-- ==== Sys2Proof/Word.lean ====
section
/-!
DEFINITION. Word.lean: the plain data types the rest of the model is written over: bytes, sectors, granules, chunks.
-/

namespace Sys2Proof

/-- One byte of a frame, a record or a sector. -/
abbrev Byte := BitVec 8

/-- A sector's content, 4,096 bytes, lowest address first (Conventions 4.3). -/
abbrev Sector := List Byte

/-- A granule's content: sixteen sectors, by sector index (Conventions 4.3). -/
abbrev Granule := Vector Sector 16

/-- One chunk of a table image, 65,536 bytes (R190). -/
abbrev Chunk := List Byte

end Sys2Proof
end

