-- ==== Sys2Proof/Config.lean ====
section
/-!
DEFINITION. Config.lean: the fixed sizes and limits the spec states, the shapes of the geometry records, and the free
values (constants with no body) for what the spec leaves open.
-/

namespace Sys2Proof.Config

/-- Bytes in a sector (Conventions 4.3). -/
def sectorBytes : Nat := 4096
/-- Bytes in an image chunk (R190). -/
def chunkBytes : Nat := 65536
/-- Request entries of the RQU (R166). -/
def entryLimit : Nat := 32
/-- The outbound queue length from which no frame is taken for judgement and no WATCH notice drawn (R165). -/
def outboundLimit : Nat := 32
/-- WATCH notices the watch notice queue holds (R182). -/
def watchQueueLimit : Nat := 64
/-- Granule buffers of the retention pool (R63). -/
def retentionBuffers : Nat := 2048
/-- Copies gathered in one cleaning batch (R118). -/
def batchLimit : Nat := 32
/-- Directory soft limit in records (R87). -/
def dirSoftLimit : Nat := 14336
/-- Directory fold start in records (R87). -/
def dirFoldStart : Nat := 8192
/-- Directory capacity in records (R87). -/
def dirCapacity : Nat := 16384
/-- Overlays a granule may have (R45). -/
def overlayLimit : Nat := 8
/-- The value at which the 64-bit placement sequence and close-order counters stand still (R30, R44). -/
def counterMax : Nat := 18446744073709551615
/-- The largest operation identifier (R141). -/
def opIdMax : Nat := 4294967295
/-- The largest order number (R147). -/
def orderNumberMax : Nat := 65535
/-- The skip count at which a class is chosen ahead of the effective order (R144). -/
def skipLimit : Nat := 16
/-- Body length limit of a frame (R161). -/
def bodyLimit : Nat := 65600
/-- The image's format identifier (R202). -/
def imageFormat : Nat := 0x06200001
/-- Largest physical track number (R1). -/
def maxTrack : Nat := 16777215
/-- Most bands a geometry may have (R16). -/
def maxBands : Nat := 131072
/-- Most logical granules (R186). -/
def maxLgns : Nat := 536870912

/-- FREE VALUE. Sector `j` of a buffer at its `n`-th allocation, before anything has been placed there. The spec does
not say what a freshly taken request, fold or cleaning buffer holds; it is read only where the channel finishes a read
without delivering every sector (log entry 7). -/
opaque bufferResidue (n j : Nat) : Sector

/-- FREE VALUE. The sectors done for an UNRECOVERED or WRITE_FAULT answer whose failing sector lies outside the
operation's run (first sector, count, failing sector). The spec states sectors done only for a sector of the run (log
entry 8). -/
opaque doneOutsideRun (first count failing : Nat) : Nat

end Sys2Proof.Config

namespace Sys2Proof

/-- A zone descriptor (R1). The derived values NB, first_band, C and tail are functions of it (Machine/Geometry.lean). -/
structure ZoneDesc where
  firstTrack : Nat
  zoneTracks : Nat
  spt : Nat
  tpb : Nat
  guard : Nat
  exposure : Nat
  deriving DecidableEq, Repr

/-- A staging area descriptor (R85). Capacity, soft limit and fold start are functions of it. -/
structure AreaDesc where
  firstTrack : Nat
  tracks : Nat
  spt : Nat
  deriving DecidableEq, Repr

end Sys2Proof
end

