-- ==== Sys2Proof/Syntax.lean ====
section
/-!
DEFINITION. Syntax.lean: the commands of the block, one constructor per row of spec/opcode_table.json, with the operands
the row's frame, record or event carries. The operands of a request are the raw fields of its body (R195, R196, R199):
what they mean, and which values are refused, is judged by the machine.
-/

namespace Sys2Proof

/-- The commands. A request row carries its frame's tag first. -/
inductive Instr where
  /-- Power-on reset (R184). -/
  | powerOnReset
  /-- The 1 ms tick (R126, R173). -/
  | msTick
  | store (tag lgn first count stream : Nat) (payload : List Sector)
  | fetch (tag lgn first count : Nat)
  | discard (tag lgn count : Nat)
  | fold (tag count : Nat)
  | clean (tag band : Nat)
  /-- `marks` bit 0: threshold present (R196). -/
  | qualify (tag band threshold marks : Nat)
  | qualifyStop (tag : Nat)
  | streamSet (tag stream lo hi : Nat)
  | pacerSet (tag mode running resetOption reload : Nat)
  | maskSet (tag mask threshold timeout : Nat)
  | watchSet (tag window mode lo hi : Nat)
  | watchClear (tag window : Nat)
  | eventEnable (tag set : Nat)
  | eventAck (tag set : Nat)
  | inspectZone (tag zone : Nat)
  | inspectBand (tag band : Nat)
  | inspectGranule (tag lgn : Nat)
  | inspectPool (tag : Nat)
  | inspectStream (tag stream : Nat)
  | inspectLog (tag : Nat)
  | inspectCleaner (tag : Nat)
  | inspectQualification (tag : Nat)
  | inspectPort (tag : Nat)
  | inspectLink (tag : Nat)
  | inspectEvent (tag : Nat)
  /-- `kind` is 12 (controller), or a kind byte that names no kind, which R189 refuses (log entry 9). -/
  | inspectController (tag kind : Nat)
  | format (tag lgnCount reserve : Nat) (area : AreaDesc) (zones : List ZoneDesc) (retired : List Nat)
  | quiesce (tag : Nat)
  | resume (tag : Nat)
  | imageRead (tag index : Nat)
  | imageWrite (tag index : Nat) (chunk : Chunk)
  | imageCommit (tag : Nat)
  | mediaRestart (tag : Nat)
  | reset (tag : Nat)
  /-- A good frame that is not well formed: its code and tag bytes (R164). -/
  | badRequest (code tag : Nat)
  | badMarker
  | overlength
  | badCheck
  | frameLimitExpiry
  | frameSent
  | deferredFrameTaken
  | watchNoticeTaken
  | holdExpiry
  | pacerUnderflow
  | claimLimitExpiry
  | reissueDelayExpiry
  | completionLimitExpiry
  | abortLimitExpiry
  | probeLimitExpiry
  /-- The order number answered (R204). -/
  | accepted (order : Nat)
  | defer (order : Nat)
  /-- Order number, status byte, sectors done, failing sector (R204). -/
  | finished (order status sectorsDone failing : Nat)
  /-- Order number, sector number within the track, the sector's bytes (R204). -/
  | data (order sector : Nat) (content : Sector)
  | headGrant
  | requestStart
  | pressureRelease
  | logRelease
  | openWaitGrant
  | bandReset
  | quiesceComplete
  | foldChoice
  | victimChoice
  | batchStart
  | markerFound
  deriving DecidableEq, Repr

end Sys2Proof
end

