-- ==== Sys2Proof/Machine/State.lean ====
section
/-!
DEFINITION. Machine/State.lean: every piece of state the spec gives the part, block by block, as plain data, and the
state right after power-on reset. Values the spec derives from other state (NB, first_band, C and tail of a zone; the
capacity and limits of the staging area; the free pool and free count; a band's live, dead and torn counts; the free
retention buffers) are not stored twice: they are functions of what is stored here (log entry 3).
-/

namespace Sys2Proof.Machine

/-- Why a step could fault. No rule of the spec stops the part on a command, so there is no reason to give: every
command has a next state (log entry 1). -/
inductive Fault where
  deriving DecidableEq, Repr

/-- Why a step could be refused. -/
inductive Refusal where
  /-- Raised by a dispatch arm whose command has no meaning yet. Safe: the model stops. No arm raises it. -/
  | notModelled (mnemonic : String)
  deriving DecidableEq, Repr

/-! ### Band Table Unit (Chapter 2) -/

/-- Band states (R18). -/
inductive BandState where
  | empty | opened | full | cleaning | qualifying | retired
  deriving DecidableEq, Repr

/-- Close reasons (R18). -/
inductive CloseReason where
  | capacity | fault | image
  deriving DecidableEq, Repr

/-- A slot entry (R19). -/
inductive Slot where
  | live (lgn : Nat)
  | dead
  | torn
  deriving DecidableEq, Repr

/-- A band record (R18). `live`, `dead` and `torn` are counts over `slots`. -/
structure Band where
  number : Nat
  zone : Nat
  state : BandState := .empty
  stream : Option (Fin 9) := none
  frontier : Nat := 0
  slots : List Slot := []
  readers : Nat := 0
  retry : Nat := 0
  fatigue : Nat := 0
  closeOrder : Option Nat := none
  closeReason : Option CloseReason := none
  holdBlocked : Bool := false
  prior : Option BandState := none
  deriving DecidableEq, Repr

/-- The BTU (R1, R18, R24, R26, R28, R30, R39). `closeOrder` and `reserve` 0: no value yet. -/
structure Btu where
  zones : List ZoneDesc := []
  bands : List Band := []
  reserve : Nat := 0
  pressure : Bool := false
  closeOrder : Nat := 0
  refresh : List Nat := []
  openWait : List (Fin 9) := []
  deriving DecidableEq, Repr

/-! ### Granule Map Unit (Chapter 3) -/

/-- A home: the band and slot of a granule's placed copy (R42). -/
structure Home where
  band : Nat
  slot : Nat
  deriving DecidableEq, Repr

/-- A map entry (R42). The default is the entry of a granule never written. -/
structure MapEntry where
  home : Option Home := none
  base : Nat := 0
  overlays : Nat := 0
  newest : Option Nat := none
  lost : Bool := false
  deriving DecidableEq, Repr

/-- The GMU (R42, R44). `map` lists, in strictly rising LGN, the entries that differ from a never-written granule's;
an unlisted LGN below `lgnCount` holds that default. `sequence` 0: the counter holds no value. -/
structure Gmu where
  lgnCount : Nat := 0
  map : List (Nat × MapEntry) := []
  sequence : Nat := 0
  deriving DecidableEq, Repr

/-! ### Stream Writer (Chapter 4) -/

/-- A recovery from a write fault (R80, R82): the faulted band, and a serial number of the model's own that tells two
faults of one band apart. -/
structure Recovery where
  serial : Nat
  band : Nat
  deriving DecidableEq, Repr

/-- What a work item does, with the condition of its proposal and the origin it reports to (R64). -/
inductive Work where
  /-- A whole-granule STORE: its request's tag and sequence. -/
  | store (tag sequence : Nat)
  /-- A fold: the merged generation and the merged records' positions. -/
  | fold (generation : Nat) (merged : List Nat)
  /-- A cleaning copy: its source slot. -/
  | clean (source : Home)
  /-- A re-placement: its source slot. -/
  | replace (source : Home)
  deriving DecidableEq, Repr

/-- A work item of a write FIFO (R64). `faulted`: the item whose own write was cut by a write fault (R80);
`recoveries`: the recoveries it counts toward (R82), earlier fault first. -/
structure Item where
  work : Work
  lgn : Nat
  content : Granule
  faulted : Bool := false
  recoveries : List Recovery := []
  deriving DecidableEq, Repr

/-- A slot of an exposed set with its retention buffer (R11, R77). -/
structure Exposed where
  slot : Nat
  lgn : Nat
  content : Granule
  deriving DecidableEq, Repr

/-- A stream record (R61), with the exposed set of its open band (R77) and the slot its head item is being written
into while a run of the item is queued or in progress (R68). -/
structure Stream where
  lo : Nat := 0
  hi : Nat := 31
  openBand : Option Nat := none
  exposed : List Exposed := []
  fifo : List Item := []
  openPending : Bool := false
  recovery : Option Recovery := none
  writing : Option Nat := none
  deriving DecidableEq, Repr

/-- The SWR (R61, R63). `faultSerial` numbers write faults (the model's own). -/
structure Swr where
  streams : Vector Stream 9 := Vector.replicate 9 {}
  faultSerial : Nat := 0
  deriving DecidableEq, Repr

/-! ### Staging Log Unit (Chapter 5) -/

/-- Staged record states (R88). -/
inductive RecState where
  | writing | live | dead
  deriving DecidableEq, Repr

/-- A staged record (R88). -/
structure Record where
  pos : Nat
  len : Nat
  lgn : Nat
  first : Nat
  count : Nat
  sequence : Nat
  stream : Nat
  prev : Option Nat := none
  state : RecState := .writing
  readers : Nat := 0
  deriving DecidableEq, Repr

/-- A STORE whose record is WRITING: the record's position, the request's tag, and whether the record is a re-append
(R94). -/
structure StagedWrite where
  pos : Nat
  tag : Nat
  again : Bool
  deriving DecidableEq, Repr

/-- Stages of a fold in progress; no fold in progress is stage IDLE (R99). -/
inductive FoldStage where
  | reading | writing
  deriving DecidableEq, Repr

/-- Failures met by a fold's reads (R99). -/
inductive FoldFailure where
  | homeUnrecovered | recordGivenUp | portDown | notServed
  deriving DecidableEq, Repr

/-- Where a fold takes the uncovered sectors from (R99). -/
inductive HomeSource where
  | none
  | held
  | slot (h : Home)
  deriving DecidableEq, Repr

/-- One record of a fold's merged set: the fields it had at the choice, its runs outstanding, and the buffer its
sectors are read into (place 0 the header). -/
structure FoldSource where
  pos : Nat
  len : Nat
  first : Nat
  count : Nat
  sequence : Nat
  left : Nat
  failed : Bool := false
  buffer : Granule
  deriving DecidableEq, Repr

/-- The fold record (R99) with its buffer set. `covered` are the sector indices a merged record supplies. -/
structure Fold where
  stage : FoldStage
  lgn : Nat
  sources : List FoldSource
  generation : Nat
  target : Fin 9
  covered : List Nat
  homeSource : HomeSource
  homeBuffer : Granule
  homeLeft : Nat
  failures : List FoldFailure := []
  merged : Option Granule := none
  deriving DecidableEq, Repr

/-- An outstanding FOLD request (R101). -/
structure FoldReq where
  tag : Nat
  count : Nat
  accepted : Nat := 0
  rejected : Nat := 0
  abandoned : Nat := 0
  deriving DecidableEq, Repr

/-- The SLU (R85, R87, R89, R90, R99, R101). An area of 0 tracks: no descriptor yet. -/
structure Slu where
  area : AreaDesc := ⟨0, 0, 0⟩
  head : Nat := 0
  tail : Nat := 0
  used : Nat := 0
  dir : List Record := []
  logHeld : Bool := false
  writes : List StagedWrite := []
  overlayWait : List Nat := []
  foldReqs : List FoldReq := []
  fold : Option Fold := none
  deriving DecidableEq, Repr

/-! ### Cleaning Engine (Chapter 6) -/

/-- Cleaner stages (R112). -/
inductive CleanStage where
  | idle | batch | waitCredit | halted | waitReset
  deriving DecidableEq, Repr

/-- Victim origins (R111). -/
inductive VictimOrigin where
  | host | refresh | scored
  deriving DecidableEq, Repr

/-- Copy states of a batch entry (R111). -/
inductive CopyState where
  | reading | read | down | handed | ended
  deriving DecidableEq, Repr

/-- A batch entry (R111), with its runs outstanding, the runs (place, count) to issue again when the port comes up
(R120), and whether a run of it ended UNRECOVERED. -/
structure BatchEntry where
  slot : Nat
  lgn : Nat
  buffer : Granule
  state : CopyState
  left : Nat
  redo : List (Nat × Nat) := []
  unrecovered : Bool := false
  deriving DecidableEq, Repr

/-- The victim record (R111). -/
structure Victim where
  band : Nat
  origin : VictimOrigin
  tag : Option Nat
  cursor : Nat := 0
  batch : List BatchEntry := []
  accepted : Nat := 0
  rejected : Nat := 0
  lost : Nat := 0
  skipped : Nat := 0
  deriving DecidableEq, Repr

/-- Pacer modes (R125). -/
inductive PacerMode where
  | time | event
  deriving DecidableEq, Repr

/-- The pacer (R125). -/
structure Pacer where
  mode : PacerMode := .time
  reload : Nat := 1000
  count : Nat := 1000
  running : Bool := false
  credits : Nat := 0
  deriving DecidableEq, Repr

/-- The CLE (R111, R112, R125, R127, R128). `hostList`: the host CLEAN list, (tag, band), oldest first. -/
structure Cle where
  stage : CleanStage := .idle
  victim : Option Victim := none
  hostList : List (Nat × Nat) := []
  pacer : Pacer := {}
  threshold : Nat := 512
  deriving DecidableEq, Repr

/-! ### Qualification Engine (Chapter 7) -/

/-- The pass in progress (R133). -/
inductive QualPass where
  | write | read
  deriving DecidableEq, Repr

/-- Qualification outcomes (R133). -/
inductive QualOutcome where
  | passed | retired | stopped
  deriving DecidableEq, Repr

/-- The qualification record (R133). `faults`: (track offset, first unwritten sector). -/
structure Qual where
  band : Nat
  threshold : Nat
  pass : QualPass := .write
  track : Nat := 0
  run : Option (Nat × Nat) := none
  errors : Nat := 0
  tracksDone : Nat := 0
  faults : List (Nat × Nat) := []
  stop : Bool := false
  stopTag : Option Nat := none
  deriving DecidableEq, Repr

/-- The last-result record (R133). -/
structure LastResult where
  band : Nat
  errors : Nat
  tracksDone : Nat
  outcome : QualOutcome
  deriving DecidableEq, Repr

/-- The QEN (R133); no qualification record is stage IDLE. -/
structure Qen where
  qual : Option Qual := none
  buffer : List Sector := []
  last : Option LastResult := none
  deriving DecidableEq, Repr

/-! ### Head Arbiter and Media Port (Chapter 8) -/

/-- Classes of media work, in class code order (R141, R198). -/
inductive Cls where
  | read | write | fold | clean | qualify
  deriving DecidableEq, Repr

/-- What a run addresses (R141). -/
inductive Target where
  | band (b : Nat)
  | staging
  deriving DecidableEq, Repr

/-- The owner of an operation and what of the owner's work it is (R141, R156). -/
inductive Origin where
  /-- A FETCH read of a band copy. -/
  | fetchBand
  /-- A FETCH read of the staged record at a position. -/
  | fetchRecord (pos : Nat)
  /-- A band write of a stream's head item. -/
  | stream (n : Fin 9)
  /-- A staged write of the record at a position. -/
  | staged (pos : Nat)
  /-- A fold's read of the record at a position. -/
  | foldRecord (pos : Nat)
  /-- A fold's read of the home copy. -/
  | foldHome
  /-- A cleaning read of a victim slot. -/
  | cleanRead (slot : Nat)
  /-- A qualification run. -/
  | qual
  deriving DecidableEq, Repr

/-- A media operation record (R141). `isWrite`: kind WRITE_RUN; `place`: the place, in the owner's buffer, of the
run's first sector; `tag`: the host request served. -/
structure MediaOp where
  id : Nat
  cls : Cls
  isWrite : Bool
  target : Target
  track : Nat
  first : Nat
  count : Nat
  place : Nat
  origin : Origin
  tag : Option Nat := none
  sectorsDone : Nat := 0
  defers : Nat := 0
  retries : Nat := 0
  servoUsed : Bool := false
  deriving DecidableEq, Repr

/-- The service mask: the masked classes (R146). -/
structure Mask where
  fold : Bool := false
  clean : Bool := false
  qualify : Bool := false
  deriving DecidableEq, Repr

/-- The HAR (R141, R142, R145, R146), queues and skip counters in class code order. -/
structure Har where
  queues : Vector (List MediaOp) 5 := Vector.replicate 5 []
  skips : Vector Nat 5 := Vector.replicate 5 0
  mask : Mask := {}
  nextId : Nat := 1
  deriving DecidableEq, Repr

/-- Media port stages (R147). -/
inductive PortStage where
  | idle | claiming | deferred | running | aborting | probing
  deriving DecidableEq, Repr

/-- Causes of a run that was not served (R156, R157). -/
inductive Cause where
  | noClaim | deferLimit | abortUnanswered | servoLost | timedOut
  deriving DecidableEq, Repr

/-- The order now outstanding: its number, first sector and count (R148). -/
structure Order where
  number : Nat := 0
  first : Nat := 0
  count : Nat := 0
  deriving DecidableEq, Repr

/-- The MPT (R147, R157). Cause sets are in the bit order of R200. `restartTag`: the MEDIA_RESTART that waits for its
probe (R159). `wire`: the records sent to the channel so far, oldest first (the model's own, log entry 4). -/
structure Mpt where
  up : Bool := true
  stage : PortStage := .idle
  op : Option MediaOp := none
  order : Order := {}
  orderNo : Nat := 1
  failures : Nat := 0
  causes : BitVec 4 := 0
  latched : BitVec 4 := 0
  restartTag : Option Nat := none
  wire : List (List Byte) := []
  deriving DecidableEq, Repr

/-! ### Frame Link Unit and Request Queue (Chapter 9) -/

/-- Receive frame assembler states (R163). -/
inductive Assembler where
  | ready | frame | seek
  deriving DecidableEq, Repr

/-- One field of a frame body: a number of a stated width, or sectors or bytes carried as they are. -/
inductive Field where
  | num (bytes value : Nat)
  | sector (x : Sector)
  | raw (bs : List Byte)
  deriving DecidableEq, Repr

/-- The part's frames: replies and notices (R161). -/
inductive FrameKind where
  | reply | notice
  deriving DecidableEq, Repr

/-- A frame generated by the part and not yet sent (R161, R165). -/
structure OutFrame where
  kind : FrameKind
  code : Nat
  tag : Nat
  clamped : Bool
  body : List Field
  deriving DecidableEq, Repr

/-- The FLU (R163, R165). `held`: the bytes the assembler holds: in FRAME the partial frame since its marker, or, while a
good frame waits, the bytes behind that frame; in READY and SEEK a first byte whose pair is still to come. `waiting`:
good frames complete at the assembler and not yet taken for judgement, oldest first (log entry 5). `wire`: the frames
sent so far (the model's own, log entry 4). -/
structure Flu where
  assembler : Assembler := .ready
  held : List Byte := []
  errors : Nat := 0
  outbound : List OutFrame := []
  waiting : List Instr := []
  wire : List (List Byte) := []
  deriving DecidableEq, Repr

/-- Entry states (R166). -/
inductive Phase where
  | waiting | active | held
  deriving DecidableEq, Repr

/-- Hold reasons (R166). -/
inductive HoldReason where
  | pressure | log
  deriving DecidableEq, Repr

/-- A request entry in use (R166). `lgns`: first and last LGN named; `range`: first sector and count used; `stream`:
the STORE's host stream; `left`, `failed`, `down`: a FETCH's runs outstanding and the failures among those ended
(R51). -/
structure Entry where
  tag : Nat
  code : Nat
  admission : Nat
  lgns : Option (Nat × Nat) := none
  range : Option (Nat × Nat) := none
  clamped : Bool := false
  sequence : Option Nat := none
  stream : Nat := 0
  phase : Phase := .active
  holdReason : Option HoldReason := none
  holdTimer : Option Nat := none
  buffer : Granule
  left : Nat := 0
  failed : Bool := false
  down : Bool := false
  deriving DecidableEq, Repr

/-- The RQU (R166, R171): entries in use in admission order, the held list by tag in the order of joining. -/
structure Rqu where
  entries : List Entry := []
  held : List Nat := []
  holdTimeout : Nat := 2000
  admission : Nat := 0
  deriving DecidableEq, Repr

/-! ### Event Unit (Chapter 10) -/

/-- The thirteen event flags, in the order of R176. -/
inductive EventFlag where
  | pressureOn | pressureOff | logFull | cleanBlocked | bandFatigued | bandRetired | granuleLost | writeFault
  | mediaDown | streamSpill | frameError | qualifyDone | watchOverrun
  deriving DecidableEq, Repr

/-- Watch window modes (R180). -/
inductive WatchMode where
  | moves | all | hold
  deriving DecidableEq, Repr

/-- A watch window in use (R180). -/
structure Window where
  lo : Nat
  hi : Nat
  mode : WatchMode
  overrun : Bool := false
  deriving DecidableEq, Repr

/-- Causes of a home change (R58). -/
inductive HomeCause where
  | store | discard | fold | clean | replace
  deriving DecidableEq, Repr

/-- A WATCH notice (R181); `windows` is its notice set, bit w for window w. -/
structure WatchNotice where
  lgn : Nat
  windows : BitVec 8
  cause : HomeCause
  old : Option Home
  new : Option Home
  deriving DecidableEq, Repr

/-- The EVU (R176, R180, R182). Flags and enables in the bit order of R200. -/
structure Evu where
  flags : BitVec 13 := 0
  enables : BitVec 13 := 0
  details : Vector Nat 13 := Vector.replicate 13 0
  windows : Vector (Option Window) 8 := Vector.replicate 8 none
  watchQueue : List WatchNotice := []
  deriving DecidableEq, Repr

/-! ### Controller (Chapter 11) -/

/-- Controller states (R184). -/
inductive Mode where
  | unformatted | online | quiescing | quiesced
  deriving DecidableEq, Repr

/-- An image load in progress (R184, R191): next expected index, chunk count, and the chunks taken, in order. -/
structure ImageLoad where
  next : Nat
  count : Nat
  chunks : List Chunk
  deriving DecidableEq, Repr

/-- A RESET whose reply waits for the MPT (R175): its tag and the entries in use at its arrival. -/
structure ResetWait where
  tag : Nat
  inUse : Nat
  deriving DecidableEq, Repr

/-- The controller state (R184). -/
structure Ctl where
  mode : Mode := .unformatted
  imageLoad : Option ImageLoad := none
  quiesceTag : Option Nat := none
  resetWait : Option ResetWait := none
  deriving DecidableEq, Repr

/-- The whole part: the block's queue of waiting commands, then each unit. `residue` counts buffer allocations, the
argument of the free value `Config.bufferResidue` (the model's own, log entry 7). -/
structure State where
  pending : List Instr := []
  ctl : Ctl := {}
  flu : Flu := {}
  rqu : Rqu := {}
  gmu : Gmu := {}
  btu : Btu := {}
  swr : Swr := {}
  slu : Slu := {}
  cle : Cle := {}
  qen : Qen := {}
  har : Har := {}
  mpt : Mpt := {}
  evu : Evu := {}
  residue : Nat := 0
  deriving DecidableEq, Repr

/-- The part right after power-on reset: every "At initial reset" line of the chapters (R184). -/
def State.reset : State := {}

end Sys2Proof.Machine
end

