-- ==== Sys2Proof/Machine/Geometry.lean ====
section
/-!
DEFINITION. Machine/Geometry.lean: the placement arithmetic of Chapter 1 and the log arithmetic of R85, R86. All division
is integer division (Conventions 4.2).
-/

namespace Sys2Proof.Machine

/-- ceil(a / b). -/
def ceilDiv (a b : Nat) : Nat := (a + b - 1) / b

/-- ceil(F / 16): slots at or behind a frontier (R9). -/
def slotsBehind (f : Nat) : Nat := ceilDiv f 16

/-- NB: the bands of a zone (R2). -/
def zoneBands (z : ZoneDesc) : Nat := z.zoneTracks / (z.tpb + z.guard)

/-- C: the slot capacity of a zone's bands (R5). -/
def zoneCap (z : ZoneDesc) : Nat := z.tpb * z.spt / 16

/-- The tail sectors of a zone's bands (R5). -/
def zoneTail (z : ZoneDesc) : Nat := z.tpb * z.spt - 16 * zoneCap z

/-- BAND_COUNT (R2). -/
def bandTotal : List ZoneDesc → Nat
  | [] => 0
  | z :: zs => zoneBands z + bandTotal zs

/-- first_band of zone `z`, and BAND_COUNT at or past the table's end (R3). -/
def firstBand (zs : List ZoneDesc) (z : Nat) : Nat := bandTotal (zs.take z)

/-- The zone index, zone and band index within it of a global band number, counting zones from `base` (R3). -/
def locateFrom (base : Nat) : List ZoneDesc → Nat → Option (Nat × ZoneDesc × Nat)
  | [], _ => none
  | z :: zs, b => if b < zoneBands z then some (base, z, b) else locateFrom (base + 1) zs (b - zoneBands z)

/-- The zone index, zone and band index within it of a global band number (R3). -/
def locate (zs : List ZoneDesc) (b : Nat) : Option (Nat × ZoneDesc × Nat) := locateFrom 0 zs b

/-- What placing, exposing and reading a band needs of its zone: first track, SPT, TPB, E and C. -/
structure BandGeo where
  track0 : Nat
  spt : Nat
  tpb : Nat
  exposure : Nat
  cap : Nat
  deriving DecidableEq, Repr

/-- The geometry of band `b` (R3, R4, R5). A number outside the table, which no rule asks about, gives all zeros. -/
def bandGeo (zs : List ZoneDesc) (b : Nat) : BandGeo :=
  match locate zs b with
  | some (_, z, i) => ⟨z.firstTrack + i * (z.tpb + z.guard), z.spt, z.tpb, z.exposure, zoneCap z⟩
  | none => ⟨0, 0, 0, 0, 0⟩

/-- The track offset a slot's last sector lies on (R7). -/
def lastTrack (spt s : Nat) : Nat := (16 * s + 15) / spt

/-- K: the completed tracks of a band at frontier `f` (R10). -/
def completedTracks (spt f : Nat) : Nat := f / spt

/-- The exposure condition: slot `s` stays exposed at completed-track count `k` (R11). -/
def staysExposed (g : BandGeo) (k s : Nat) : Bool := decide (k < lastTrack g.spt s + 1 + g.exposure)

/-- One run of a span: track offset, first sector in the track, count, and how far into the span it starts (R8). -/
structure Piece where
  track : Nat
  sector : Nat
  count : Nat
  offset : Nat
  deriving DecidableEq, Repr

/-- Cut the `n` sectors from linear position `a` at every track end (R8), `offset` sectors of the span done before. -/
def cutFrom (spt : Nat) : (fuel a n offset : Nat) → List Piece
  | 0, _, _, _ => []
  | fuel + 1, a, n, offset =>
    if n = 0 then []
    else
      let c := min n (spt - a % spt)
      ⟨a / spt, a % spt, c, offset⟩ :: cutFrom spt fuel (a + c) (n - c) (offset + c)

/-- The runs of the span of `n` sectors from linear position `a` (R8). -/
def cutSpan (spt a n : Nat) : List Piece := cutFrom spt n a n 0

/-! ### The staging area (R85, R86) -/

/-- Capacity in sectors (R85). -/
def areaCap (a : AreaDesc) : Nat := a.tracks * a.spt

/-- Soft limit (R85). -/
def softLimit (a : AreaDesc) : Nat := areaCap a * 7 / 8

/-- Fold start (R85). -/
def foldStart (a : AreaDesc) : Nat := areaCap a / 2

/-- The runs of the span of `n` log positions from position `p`, tracks as offsets in the area (R86). The wrap falls at
a track end, so cutting at track ends cuts there too. -/
def cutLog (a : AreaDesc) (p n : Nat) : List Piece :=
  (cutSpan a.spt (p % areaCap a) n).map fun q => { q with track := q.track % a.tracks }

/-- The staging descriptor's own checks (R85). -/
def areaOk (a : AreaDesc) : Bool :=
  decide (256 ≤ a.spt) && decide (a.spt ≤ 1024) && decide (65536 ≤ areaCap a) && decide (areaCap a ≤ 4194304)
    && decide (a.firstTrack + a.tracks - 1 ≤ Config.maxTrack)

/-! ### Capacity and geometry checks (R14, R15, R16) -/

/-- A descriptor within the ranges of R1. -/
def zoneInRange (z : ZoneDesc) : Bool :=
  decide (z.firstTrack ≤ Config.maxTrack) && decide (1 ≤ z.zoneTracks) && decide (z.zoneTracks ≤ Config.maxTrack)
    && decide (256 ≤ z.spt) && decide (z.spt ≤ 1024) && decide (16 ≤ z.tpb) && decide (z.tpb ≤ 256)
    && decide (1 ≤ z.guard) && decide (z.guard ≤ 4) && decide (1 ≤ z.exposure) && decide (z.exposure ≤ 2)

/-- Zones ascend and do not overlap (R16). -/
def zonesOrdered : List ZoneDesc → Bool
  | z :: y :: zs => decide (z.firstTrack + z.zoneTracks ≤ y.firstTrack) && zonesOrdered (y :: zs)
  | _ => true

/-- No track of the staging area lies in the zone (R16). -/
def areaApart (a : AreaDesc) (z : ZoneDesc) : Bool :=
  decide (a.firstTrack + a.tracks ≤ z.firstTrack) || decide (z.firstTrack + z.zoneTracks ≤ a.firstTrack)

/-- The checks of R16 from Zone count through Band count, which FORMAT and IMAGE_COMMIT both apply. -/
def geometryOk (zs : List ZoneDesc) (a : AreaDesc) : Bool :=
  decide (1 ≤ zs.length) && decide (zs.length ≤ 32) && zs.all zoneInRange
    && zs.all (fun z => decide (z.firstTrack + z.zoneTracks - 1 ≤ Config.maxTrack))
    && zonesOrdered zs && zs.all (areaApart a) && zs.all (fun z => decide (1 ≤ zoneBands z))
    && decide (bandTotal zs ≤ Config.maxBands)

/-- The slots of the bands counted from `first` that are not retired (R14). -/
def serviceSlots (retired : List Nat) : (first : Nat) → List ZoneDesc → Nat
  | _, [] => 0
  | first, z :: zs =>
    zoneCap z * ((List.range (zoneBands z)).countP fun i => !retired.contains (first + i))
      + serviceSlots retired (first + zoneBands z) zs

/-- CAP (R14). -/
def capacity (zs : List ZoneDesc) (retired : List Nat) : Nat := serviceSlots retired 0 zs

/-- The overprovision check (R14). -/
def overprovisioned (zs : List ZoneDesc) (retired : List Nat) (lgnCount : Nat) : Bool :=
  decide (lgnCount * 17 ≤ capacity zs retired * 16)

/-- The bands a FORMAT would leave EMPTY (R15). -/
def emptyAfterFormat (zs : List ZoneDesc) (retired : List Nat) : Nat :=
  (List.range (bandTotal zs)).countP fun b => !retired.contains b

/-- The reclaim ratio (R17). -/
def reclaimRatio (cap live : Nat) : Nat := 1024 * (cap - live) / cap

end Sys2Proof.Machine
end

