-- ==== Sys2Proof/WellFormed.lean ====
section
/-!
DEFINITION. WellFormed.lean: which terms of `Instr` a frame or record can spell: every operand within the width of its
field (R195, R196, R199, R204), payloads of whole sectors.
-/

namespace Sys2Proof

/-- A value that fits a field of `bytes` bytes. -/
def fits (bytes v : Nat) : Bool := v < 256 ^ bytes

/-- A whole sector. -/
def sectorOk (x : Sector) : Bool := x.length == Config.sectorBytes

/-- A zone descriptor whose fields fit their widths (R199). -/
def ZoneDesc.fits (z : ZoneDesc) : Bool :=
  Sys2Proof.fits 4 z.firstTrack && Sys2Proof.fits 4 z.zoneTracks && Sys2Proof.fits 2 z.spt && Sys2Proof.fits 2 z.tpb
    && Sys2Proof.fits 1 z.guard && Sys2Proof.fits 1 z.exposure

/-- A staging descriptor whose fields fit their widths (R199). -/
def AreaDesc.fits (a : AreaDesc) : Bool :=
  Sys2Proof.fits 4 a.firstTrack && Sys2Proof.fits 2 a.tracks && Sys2Proof.fits 2 a.spt

/-- Well-formedness of a command (R164, R195, R196, R199, R204). -/
def Instr.wf : Instr → Bool
  | .store tag lgn first count stream payload =>
      fits 1 tag && fits 4 lgn && fits 1 first && fits 1 count && fits 1 stream && decide (payload.length ≤ 16)
        && payload.all sectorOk
  | .fetch tag lgn first count => fits 1 tag && fits 4 lgn && fits 1 first && fits 1 count
  | .discard tag lgn count => fits 1 tag && fits 4 lgn && fits 4 count
  | .fold tag count => fits 1 tag && fits 2 count
  | .clean tag band => fits 1 tag && fits 4 band
  | .qualify tag band threshold marks => fits 1 tag && fits 4 band && fits 2 threshold && fits 1 marks
  | .qualifyStop tag => fits 1 tag
  | .streamSet tag stream lo hi => fits 1 tag && fits 1 stream && fits 1 lo && fits 1 hi
  | .pacerSet tag mode running resetOption reload =>
      fits 1 tag && fits 1 mode && fits 1 running && fits 1 resetOption && fits 2 reload
  | .maskSet tag mask threshold timeout => fits 1 tag && fits 1 mask && fits 2 threshold && fits 4 timeout
  | .watchSet tag window mode lo hi => fits 1 tag && fits 1 window && fits 1 mode && fits 4 lo && fits 4 hi
  | .watchClear tag window => fits 1 tag && fits 1 window
  | .eventEnable tag set => fits 1 tag && fits 2 set
  | .eventAck tag set => fits 1 tag && fits 2 set
  | .inspectZone tag zone => fits 1 tag && fits 4 zone
  | .inspectBand tag band => fits 1 tag && fits 4 band
  | .inspectGranule tag lgn => fits 1 tag && fits 4 lgn
  | .inspectPool tag => fits 1 tag
  | .inspectStream tag stream => fits 1 tag && fits 4 stream
  | .inspectLog tag => fits 1 tag
  | .inspectCleaner tag => fits 1 tag
  | .inspectQualification tag => fits 1 tag
  | .inspectPort tag => fits 1 tag
  | .inspectLink tag => fits 1 tag
  | .inspectEvent tag => fits 1 tag
  | .inspectController tag kind => fits 1 tag && fits 1 kind && (decide (kind = 0) || decide (12 ≤ kind))
  | .format tag lgnCount reserve area zones retired =>
      fits 1 tag && fits 4 lgnCount && fits 1 reserve && area.fits && zones.all ZoneDesc.fits
        && decide (zones.length < 256) && retired.all (fits 4) && decide (retired.length < 65536)
        && decide (16 + 16 * zones.length + 4 * retired.length ≤ Config.bodyLimit)
  | .quiesce tag => fits 1 tag
  | .resume tag => fits 1 tag
  | .imageRead tag index => fits 1 tag && fits 4 index
  | .imageWrite tag index chunk => fits 1 tag && fits 4 index && decide (chunk.length = Config.chunkBytes)
  | .imageCommit tag => fits 1 tag
  | .mediaRestart tag => fits 1 tag
  | .reset tag => fits 1 tag
  | .badRequest code tag => fits 1 code && fits 1 tag
  | .accepted order => fits 2 order
  | .defer order => fits 2 order
  | .finished order status sectorsDone failing =>
      fits 2 order && fits 1 status && fits 2 sectorsDone && fits 2 failing
  | .data order sector content => fits 2 order && fits 2 sector && sectorOk content
  | .powerOnReset | .msTick | .badMarker | .overlength | .badCheck | .frameLimitExpiry | .frameSent
  | .deferredFrameTaken | .watchNoticeTaken | .holdExpiry | .pacerUnderflow | .claimLimitExpiry
  | .reissueDelayExpiry | .completionLimitExpiry | .abortLimitExpiry | .probeLimitExpiry | .headGrant
  | .requestStart | .pressureRelease | .logRelease | .openWaitGrant | .bandReset | .quiesceComplete
  | .foldChoice | .victimChoice | .batchStart | .markerFound => true

end Sys2Proof
end

