-- ==== Sys2Proof/Decode.lean ====
section
/-!
DEFINITION. Decode.lean: bytes to commands. The opcode table gives its rows no bits, so `decodeTableWord` spells
nothing. What the link and the channel carry is bytes all the same: here stand the little-endian fields (Conventions
4.4), the frame check (R162), the reading of a request frame (R164, R194 to R196, R199, R202) and of a channel record
(R204) into the command it stands for, and after them the writer of a request frame.
-/

namespace Sys2Proof

/-- The command a table word spells. No row of the table has bits, so no word spells one. -/
def decodeTableWord (_nbits _w : Nat) : Option Instr := none

/-- The `n`-byte little-endian field holding `v` (Conventions 4.4). -/
def leBytes : (n v : Nat) → List Byte
  | 0, _ => []
  | n + 1, v => BitVec.ofNat 8 v :: leBytes n (v / 256)

/-- The number a little-endian field holds. -/
def leValue : List Byte → Nat
  | [] => 0
  | b :: bs => b.toNat + 256 * leValue bs

/-- The `n`-byte field at offset `off`. -/
def fieldAt (bs : List Byte) (off n : Nat) : Nat := leValue ((bs.drop off).take n)

/-- One bit entering the check register (R162). -/
def crcBit (r : BitVec 32) (bit : Bool) : BitVec 32 :=
  if r.getLsbD 0 != bit then (r >>> 1) ^^^ 0xEDB88320#32 else r >>> 1

/-- One byte entering the check register, least significant bit first (R162). -/
def crcByte (r : BitVec 32) (b : Byte) : BitVec 32 :=
  [0, 1, 2, 3, 4, 5, 6, 7].foldl (fun r i => crcBit r (b.getLsbD i)) r

/-- The 32-bit check of a run of bytes (R162). -/
def crc32 (bs : List Byte) : BitVec 32 := ~~~ (bs.foldl crcByte 0xFFFFFFFF#32)

/-- A frame's bytes (R194): marker, kind, code, tag, flags, body length, body, check over kind to body. -/
def frameBytes (kind code tag flags : Nat) (body : List Byte) : List Byte :=
  let checked := leBytes 1 kind ++ leBytes 1 code ++ leBytes 1 tag ++ leBytes 1 flags ++ leBytes 4 body.length ++ body
  [0xA5#8, 0x3C#8] ++ checked ++ leBytes 4 (crc32 checked).toNat

/-- `n` consecutive pieces of `size` bytes. -/
def pieces (size : Nat) : (n : Nat) → List Byte → List (List Byte)
  | 0, _ => []
  | n + 1, bs => bs.take size :: pieces size n (bs.drop size)

/-- A zone descriptor's 16 bytes (R199). -/
def ZoneDesc.bytes (z : ZoneDesc) : List Byte :=
  leBytes 4 z.firstTrack ++ leBytes 4 z.zoneTracks ++ leBytes 2 z.spt ++ leBytes 2 z.tpb ++ leBytes 1 z.guard
    ++ leBytes 1 z.exposure ++ leBytes 2 0

/-- The zone descriptor in 16 bytes (R199); the two zero bytes are not examined. -/
def ZoneDesc.ofBytes (bs : List Byte) : ZoneDesc :=
  ⟨fieldAt bs 0 4, fieldAt bs 4 4, fieldAt bs 8 2, fieldAt bs 10 2, fieldAt bs 12 1, fieldAt bs 13 1⟩

/-- The request a code and body stand for, or none where the body's length does not fit the code or the code is no
request code (R164, R194 to R196, R199, R202). -/
def decodeRequest (code tag : Nat) (body : List Byte) : Option Instr :=
  let n := body.length
  let f := fieldAt body
  match code with
  | 1 => if 8 ≤ n ∧ (n - 8) % 4096 = 0 ∧ (n - 8) / 4096 ≤ 16 then
      some (.store tag (f 0 4) (f 4 1) (f 5 1) (f 6 1) (pieces 4096 ((n - 8) / 4096) (body.drop 8))) else none
  | 2 => if n = 8 then some (.fetch tag (f 0 4) (f 4 1) (f 5 1)) else none
  | 3 => if n = 8 then some (.discard tag (f 0 4) (f 4 4)) else none
  | 4 => if n = 4 then some (.fold tag (f 0 2)) else none
  | 5 => if n = 4 then some (.clean tag (f 0 4)) else none
  | 6 => if n = 8 then some (.qualify tag (f 0 4) (f 4 2) (f 6 1)) else none
  | 7 => if n = 0 then some (.qualifyStop tag) else none
  | 8 => if n = 4 then some (.streamSet tag (f 0 1) (f 1 1) (f 2 1)) else none
  | 9 => if n = 8 then some (.pacerSet tag (f 0 1) (f 1 1) (f 2 1) (f 4 2)) else none
  | 10 => if n = 8 then some (.maskSet tag (f 0 1) (f 2 2) (f 4 4)) else none
  | 11 => if n = 12 then some (.watchSet tag (f 0 1) (f 1 1) (f 4 4) (f 8 4)) else none
  | 12 => if n = 4 then some (.watchClear tag (f 0 1)) else none
  | 13 => if n = 4 then some (.eventEnable tag (f 0 2)) else none
  | 14 => if n = 4 then some (.eventAck tag (f 0 2)) else none
  | 15 => if n = 8 then
      match f 0 1 with
      | 1 => some (.inspectZone tag (f 4 4))
      | 2 => some (.inspectBand tag (f 4 4))
      | 3 => some (.inspectGranule tag (f 4 4))
      | 4 => some (.inspectPool tag)
      | 5 => some (.inspectStream tag (f 4 4))
      | 6 => some (.inspectLog tag)
      | 7 => some (.inspectCleaner tag)
      | 8 => some (.inspectQualification tag)
      | 9 => some (.inspectPort tag)
      | 10 => some (.inspectLink tag)
      | 11 => some (.inspectEvent tag)
      | k => some (.inspectController tag k)
    else none
  | 16 =>
      let zones := f 5 1
      let retired := f 6 2
      if 16 ≤ n ∧ n = 16 + 16 * zones + 4 * retired then
        some (.format tag (f 0 4) (f 4 1) ⟨f 8 4, f 12 2, f 14 2⟩
          ((pieces 16 zones (body.drop 16)).map ZoneDesc.ofBytes)
          ((pieces 4 retired (body.drop (16 + 16 * zones))).map leValue))
      else none
  | 17 => if n = 0 then some (.quiesce tag) else none
  | 18 => if n = 0 then some (.resume tag) else none
  | 19 => if n = 4 then some (.imageRead tag (f 0 4)) else none
  | 20 => if n = 65544 then some (.imageWrite tag (f 0 4) (body.drop 8)) else none
  | 21 => if n = 0 then some (.imageCommit tag) else none
  | 22 => if n = 0 then some (.mediaRestart tag) else none
  | 23 => if n = 0 then some (.reset tag) else none
  | _ => none

/-- The bytes behind the first marker pair of a run of bytes, if it holds one (R163). -/
def findMarker : List Byte → Option (List Byte)
  | a :: b :: rest => if a = 0xA5#8 ∧ b = 0x3C#8 then some rest else findMarker (b :: rest)
  | _ => none

/-- What the bytes behind a marker come to (R163). -/
inductive Taken where
  /-- The frame's last check byte is still to come. -/
  | short
  /-- The header's body length exceeds the limit. -/
  | overlength
  /-- The received check differs from the computed one. -/
  | badCheck
  /-- A good frame, with the bytes behind it. -/
  | good (i : Instr) (rest : List Byte)
  deriving DecidableEq, Repr

/-- The command a good frame's kind, code, tag, flags and body come to: the request, or BAD_REQUEST (R164). -/
def goodFrame (kind code tag flags : Nat) (body : List Byte) : Instr :=
  if kind ≠ 1 ∨ flags ≠ 0 then .badRequest code tag
  else match decodeRequest code tag body with
    | some i => i
    | none => .badRequest code tag

/-- The frame that the bytes behind a marker begin with (R161 to R164). -/
def takeFrame (bs : List Byte) : Taken :=
  let n := fieldAt bs 4 4
  if bs.length < 8 then .short
  else if Config.bodyLimit < n then .overlength
  else if bs.length < 12 + n then .short
  else if fieldAt bs (8 + n) 4 ≠ (crc32 (bs.take (8 + n))).toNat then .badCheck
  else .good (goodFrame (fieldAt bs 0 1) (fieldAt bs 1 1) (fieldAt bs 2 1) (fieldAt bs 3 1) ((bs.drop 8).take n))
    (bs.drop (12 + n))

/-- The command the bytes of one frame come to at the assembler in READY: an error row (R163), BAD_REQUEST (R164), or
the request. Bytes that stop short of the frame's last check byte end at the frame limit (R163). -/
def decodeFrame (bs : List Byte) : Instr :=
  if bs.take 2 ≠ [0xA5#8, 0x3C#8] then .badMarker
  else match takeFrame (bs.drop 2) with
    | .short => .frameLimitExpiry
    | .overlength => .overlength
    | .badCheck => .badCheck
    | .good i _ => i

/-- The command a record from the channel stands for (R204); none for a record whose type or status is none of those
listed, which is discarded, and none for a record whose length is not its type's (DESIGN CHOICE, log entry 43). -/
def decodeAnswer (bs : List Byte) : Option Instr :=
  match fieldAt bs 0 1 with
  | 0x81 => if bs.length = 4 then some (.accepted (fieldAt bs 2 2)) else none
  | 0x82 => if bs.length = 4 then some (.defer (fieldAt bs 2 2)) else none
  | 0x83 => if bs.length = 8 ∧ fieldAt bs 1 1 ≤ 4 then
      some (.finished (fieldAt bs 2 2) (fieldAt bs 1 1) (fieldAt bs 4 2) (fieldAt bs 6 2)) else none
  | 0x84 => if bs.length = 4104 then some (.data (fieldAt bs 2 2) (fieldAt bs 4 2) (bs.drop 8)) else none
  | _ => none

/-- An INSPECT body (R195). -/
def inspectBody (kind subject : Nat) : List Byte := leBytes 1 kind ++ leBytes 3 0 ++ leBytes 4 subject

/-- A request's code, tag and body bytes (R194 to R196, R199, R202); none for a command that is no request. -/
def Instr.requestParts : Instr → Option (Nat × Nat × List Byte)
  | .store t lgn first count stream payload =>
      some (1, t, leBytes 4 lgn ++ leBytes 1 first ++ leBytes 1 count ++ leBytes 1 stream ++ leBytes 1 0 ++ payload.flatten)
  | .fetch t lgn first count => some (2, t, leBytes 4 lgn ++ leBytes 1 first ++ leBytes 1 count ++ leBytes 2 0)
  | .discard t lgn count => some (3, t, leBytes 4 lgn ++ leBytes 4 count)
  | .fold t count => some (4, t, leBytes 2 count ++ leBytes 2 0)
  | .clean t band => some (5, t, leBytes 4 band)
  | .qualify t band threshold marks =>
      some (6, t, leBytes 4 band ++ leBytes 2 threshold ++ leBytes 1 marks ++ leBytes 1 0)
  | .qualifyStop t => some (7, t, [])
  | .streamSet t stream lo hi => some (8, t, leBytes 1 stream ++ leBytes 1 lo ++ leBytes 1 hi ++ leBytes 1 0)
  | .pacerSet t mode running resetOption reload =>
      some (9, t, leBytes 1 mode ++ leBytes 1 running ++ leBytes 1 resetOption ++ leBytes 1 0 ++ leBytes 2 reload ++ leBytes 2 0)
  | .maskSet t mask threshold timeout =>
      some (10, t, leBytes 1 mask ++ leBytes 1 0 ++ leBytes 2 threshold ++ leBytes 4 timeout)
  | .watchSet t window mode lo hi =>
      some (11, t, leBytes 1 window ++ leBytes 1 mode ++ leBytes 2 0 ++ leBytes 4 lo ++ leBytes 4 hi)
  | .watchClear t window => some (12, t, leBytes 1 window ++ leBytes 3 0)
  | .eventEnable t set => some (13, t, leBytes 2 set ++ leBytes 2 0)
  | .eventAck t set => some (14, t, leBytes 2 set ++ leBytes 2 0)
  | .inspectZone t zone => some (15, t, inspectBody 1 zone)
  | .inspectBand t band => some (15, t, inspectBody 2 band)
  | .inspectGranule t lgn => some (15, t, inspectBody 3 lgn)
  | .inspectPool t => some (15, t, inspectBody 4 0)
  | .inspectStream t stream => some (15, t, inspectBody 5 stream)
  | .inspectLog t => some (15, t, inspectBody 6 0)
  | .inspectCleaner t => some (15, t, inspectBody 7 0)
  | .inspectQualification t => some (15, t, inspectBody 8 0)
  | .inspectPort t => some (15, t, inspectBody 9 0)
  | .inspectLink t => some (15, t, inspectBody 10 0)
  | .inspectEvent t => some (15, t, inspectBody 11 0)
  | .inspectController t kind => some (15, t, inspectBody kind 0)
  | .format t lgnCount reserve area zones retired =>
      some (16, t, leBytes 4 lgnCount ++ leBytes 1 reserve ++ leBytes 1 zones.length ++ leBytes 2 retired.length
        ++ leBytes 4 area.firstTrack ++ leBytes 2 area.tracks ++ leBytes 2 area.spt
        ++ (zones.map ZoneDesc.bytes).flatten ++ (retired.map (leBytes 4)).flatten)
  | .quiesce t => some (17, t, [])
  | .resume t => some (18, t, [])
  | .imageRead t index => some (19, t, leBytes 4 index)
  | .imageWrite t index chunk => some (20, t, leBytes 4 index ++ leBytes 4 0 ++ chunk)
  | .imageCommit t => some (21, t, [])
  | .mediaRestart t => some (22, t, [])
  | .reset t => some (23, t, [])
  | .powerOnReset | .msTick | .badRequest _ _ | .badMarker | .overlength | .badCheck | .frameLimitExpiry | .frameSent
  | .deferredFrameTaken | .watchNoticeTaken | .holdExpiry | .pacerUnderflow | .claimLimitExpiry
  | .reissueDelayExpiry | .completionLimitExpiry | .abortLimitExpiry | .probeLimitExpiry | .accepted _ | .defer _
  | .finished _ _ _ _ | .data _ _ _ | .headGrant | .requestStart | .pressureRelease | .logRelease | .openWaitGrant
  | .bandReset | .quiesceComplete | .foldChoice | .victimChoice | .batchStart | .markerFound => none

/-- The bytes of a request's frame (R194); none for a command that is no request. -/
def encodeFrame (i : Instr) : Option (List Byte) :=
  i.requestParts.map fun (code, tag, body) => frameBytes 1 code tag 0 body

/-- The bytes of a channel answer's record (R204); none for a command that is no answer. -/
def encodeAnswer : Instr → Option (List Byte)
  | .accepted order => some (leBytes 1 0x81 ++ leBytes 1 0 ++ leBytes 2 order)
  | .defer order => some (leBytes 1 0x82 ++ leBytes 1 0 ++ leBytes 2 order)
  | .finished order status sectorsDone failing =>
      some (leBytes 1 0x83 ++ leBytes 1 status ++ leBytes 2 order ++ leBytes 2 sectorsDone ++ leBytes 2 failing)
  | .data order sector content =>
      some (leBytes 1 0x84 ++ leBytes 1 0 ++ leBytes 2 order ++ leBytes 2 sector ++ leBytes 2 0 ++ content)
  | .powerOnReset | .msTick | .store _ _ _ _ _ _ | .fetch _ _ _ _ | .discard _ _ _ | .fold _ _ | .clean _ _
  | .qualify _ _ _ _ | .qualifyStop _ | .streamSet _ _ _ _ | .pacerSet _ _ _ _ _ | .maskSet _ _ _ _
  | .watchSet _ _ _ _ _ | .watchClear _ _ | .eventEnable _ _ | .eventAck _ _ | .inspectZone _ _ | .inspectBand _ _
  | .inspectGranule _ _ | .inspectPool _ | .inspectStream _ _ | .inspectLog _ | .inspectCleaner _
  | .inspectQualification _ | .inspectPort _ | .inspectLink _ | .inspectEvent _ | .inspectController _ _
  | .format _ _ _ _ _ _ | .quiesce _ | .resume _ | .imageRead _ _ | .imageWrite _ _ _ | .imageCommit _
  | .mediaRestart _ | .reset _ | .badRequest _ _ | .badMarker | .overlength | .badCheck | .frameLimitExpiry
  | .frameSent | .deferredFrameTaken | .watchNoticeTaken | .holdExpiry | .pacerUnderflow | .claimLimitExpiry
  | .reissueDelayExpiry | .completionLimitExpiry | .abortLimitExpiry | .probeLimitExpiry | .headGrant
  | .requestStart | .pressureRelease | .logRelease | .openWaitGrant | .bandReset | .quiesceComplete | .foldChoice
  | .victimChoice | .batchStart | .markerFound => none

end Sys2Proof
end

