-- ==== Sys2Proof/Machine/Layout.lean ====
section
/-!
DEFINITION. Machine/Layout.lean: the bytes of what the part sends (Chapter 12): numeric values of statuses, codes and
named states, the fields of a body, a frame's bytes, the media orders and the staged record header.
-/

namespace Sys2Proof.Machine

/-- Reply statuses (R167). -/
inductive Status where
  | done | queueFull | tagInUse | badRequest | badArgument | wrongState | noSpace | unrecovered | writeFailed
  | mediaDown | busy | imageBad
  deriving DecidableEq, Repr

/-- Status values (R194). -/
def Status.code : Status → Nat
  | .done => 0 | .queueFull => 1 | .tagInUse => 2 | .badRequest => 3 | .badArgument => 4 | .wrongState => 5
  | .noSpace => 6 | .unrecovered => 7 | .writeFailed => 8 | .mediaDown => 9 | .busy => 10 | .imageBad => 11

/-- A field of `n` bytes, all ones where the value is absent (R194). -/
def optNum (n : Nat) : Option Nat → Field
  | some v => .num n v
  | none => .num n (256 ^ n - 1)

/-- A flag byte. -/
def boolNum (n : Nat) (b : Bool) : Field := .num n b.toNat

/-- A field's bytes (Conventions 4.4). -/
def Field.bytes : Field → List Byte
  | .num n v => leBytes n v
  | .sector x => x
  | .raw bs => bs

/-- A body's bytes. -/
def bodyBytes (body : List Field) : List Byte := (body.map Field.bytes).flatten

/-- A frame's bytes on the link (R161, R162, R194). -/
def OutFrame.bytes (f : OutFrame) : List Byte :=
  frameBytes (match f.kind with | .reply => 2 | .notice => 3) f.code f.tag f.clamped.toNat (bodyBytes f.body)

/-- Request codes (R194). -/
def codeStore := 1
def codeFetch := 2
def codeDiscard := 3
def codeFold := 4
def codeClean := 5
def codeQualify := 6
def codeQualifyStop := 7
def codeStreamSet := 8
def codePacerSet := 9
def codeMaskSet := 10
def codeWatchSet := 11
def codeWatchClear := 12
def codeEventEnable := 13
def codeEventAck := 14
def codeInspect := 15
def codeFormat := 16
def codeQuiesce := 17
def codeResume := 18
def codeImageRead := 19
def codeImageWrite := 20
def codeImageCommit := 21
def codeMediaRestart := 22
def codeReset := 23
/-- Notice codes (R194). -/
def codeEvent := 64
def codeWatch := 65

/-- Band state bytes (R194). -/
def BandState.code : BandState → Nat
  | .empty => 0 | .opened => 1 | .full => 2 | .cleaning => 3 | .qualifying => 4 | .retired => 5

/-- Close reason bytes (R194). -/
def CloseReason.code : CloseReason → Nat
  | .capacity => 1 | .fault => 2 | .image => 3

/-- Staged record state bytes (R194). -/
def RecState.code : RecState → Nat
  | .writing => 0 | .live => 1 | .dead => 2

/-- Home-change cause bytes (R194). -/
def HomeCause.code : HomeCause → Nat
  | .store => 1 | .discard => 2 | .fold => 3 | .clean => 4 | .replace => 5

/-- Class codes (R198). -/
def Cls.code : Cls → Nat
  | .read => 0 | .write => 1 | .fold => 2 | .clean => 3 | .qualify => 4

/-- Qualification outcome bytes (R196). -/
def QualOutcome.code : QualOutcome → Nat
  | .passed => 0 | .retired => 1 | .stopped => 2

/-- Watch mode bytes (R196). -/
def WatchMode.code : WatchMode → Nat
  | .moves => 0 | .all => 1 | .hold => 2

/-- The watch mode a byte names (R196). -/
def WatchMode.ofCode : Nat → Option WatchMode
  | 0 => some .moves | 1 => some .all | 2 => some .hold | _ => none

/-- Victim origin bytes (R198). -/
def VictimOrigin.code : VictimOrigin → Nat
  | .host => 0 | .refresh => 1 | .scored => 2

/-- Cleaner stage bytes (R198). -/
def CleanStage.code : CleanStage → Nat
  | .idle => 0 | .batch => 1 | .waitCredit => 2 | .halted => 3 | .waitReset => 4

/-- Port stage bytes (R198). -/
def PortStage.code : PortStage → Nat
  | .idle => 0 | .claiming => 1 | .deferred => 2 | .running => 3 | .aborting => 4 | .probing => 5

/-- Controller state bytes (R198). -/
def Mode.code : Mode → Nat
  | .unformatted => 0 | .online => 1 | .quiescing => 2 | .quiesced => 3

/-- Assembler state bytes (R198). -/
def Assembler.code : Assembler → Nat
  | .ready => 0 | .frame => 1 | .seek => 2

/-- Entry state bytes (R198). -/
def Phase.code : Phase → Nat
  | .waiting => 0 | .active => 1 | .held => 2

/-- Hold reason bytes (R198). -/
def HoldReason.code : HoldReason → Nat
  | .pressure => 0 | .log => 1

/-- Pacer mode bytes (R196). -/
def PacerMode.code : PacerMode → Nat
  | .time => 0 | .event => 1

/-- The service mask byte (R196). -/
def Mask.code (m : Mask) : Nat := 4 * m.fold.toNat + 8 * m.clean.toNat + 16 * m.qualify.toNat

/-! ### Media orders (R148, R204) -/

/-- The orders the MPT sends (R148). -/
inductive MediaOrder where
  | writeRun (number track first : Nat) (sectors : List Sector)
  | readRun (number track first count : Nat)
  | abort (number : Nat)
  | probe (number : Nat)
  deriving DecidableEq, Repr

/-- An order's record (R204). -/
def MediaOrder.bytes : MediaOrder → List Byte
  | .writeRun n t f xs =>
      leBytes 1 1 ++ leBytes 1 0 ++ leBytes 2 n ++ leBytes 4 t ++ leBytes 2 f ++ leBytes 2 xs.length ++ xs.flatten
  | .readRun n t f c => leBytes 1 2 ++ leBytes 1 0 ++ leBytes 2 n ++ leBytes 4 t ++ leBytes 2 f ++ leBytes 2 c
  | .abort n => leBytes 1 3 ++ leBytes 1 0 ++ leBytes 2 n
  | .probe n => leBytes 1 4 ++ leBytes 1 0 ++ leBytes 2 n

/-! ### Sectors -/

/-- A sector of zeros (R47, R104). -/
def zeroSector : Sector := List.replicate Config.sectorBytes 0

/-- The header sector of a staged record (R201). -/
def recordHeader (r : Record) : Sector :=
  let h := leBytes 4 r.lgn ++ leBytes 1 r.first ++ leBytes 1 r.count ++ leBytes 1 r.stream ++ leBytes 1 0
    ++ leBytes 8 r.sequence
  h ++ List.replicate (Config.sectorBytes - h.length) 0

/-- Whether a header read back has a record's LGN, first sector, count and sequence (R201). -/
def headerMatches (x : Sector) (lgn first count sequence : Nat) : Bool :=
  decide (fieldAt x 0 4 = lgn) && decide (fieldAt x 4 1 = first) && decide (fieldAt x 5 1 = count)
    && decide (fieldAt x 8 8 = sequence)

end Sys2Proof.Machine
end

