-- ==== Sys2Proof/Machine/Ops.lean ====
section
/-!
DEFINITION. Machine/Ops.lean: the named operations over the state's pieces that every block uses: the sparse table under
the granule map, the records by number (bands, streams, staged records, request entries), buffers, outbound frames and
replies.
-/

namespace Sys2Proof.Machine

/-! ### Sparse tables in canonical form -/

/-- The value at a key; an unlisted key holds `d`. -/
def tableGet {α : Type} (d : α) : List (Nat × α) → Nat → α
  | [], _ => d
  | (k', v) :: t, k => if k' = k then v else tableGet d t k

/-- Set the value at a key, keeping keys strictly rising and listing no `d`. -/
def tablePut {α : Type} [DecidableEq α] (d : α) : List (Nat × α) → (k : Nat) → (v : α) → List (Nat × α)
  | [], k, v => if v = d then [] else [(k, v)]
  | (k', v') :: t, k, v =>
    if k < k' then (if v = d then (k', v') :: t else (k, v) :: (k', v') :: t)
    else if k = k' then (if v = d then t else (k, v) :: t)
    else (k', v') :: tablePut d t k v

/-- Every key of the table is above `k`. -/
def keysAbove {α : Type} (k : Nat) (t : List (Nat × α)) : Bool := t.all fun e => decide (k < e.1)

/-- The canonical form: keys strictly rising, no entry equal to `d`. -/
def tableWf {α : Type} [DecidableEq α] (d : α) : List (Nat × α) → Bool
  | [] => true
  | (k, v) :: t => decide (v ≠ d) && keysAbove k t && tableWf d t

/-! ### Bands -/

/-- The band record of a number (R18). -/
def State.band? (s : State) (b : Nat) : Option Band := s.btu.bands[b]?

/-- Change one band record. -/
def State.updBand (s : State) (b : Nat) (f : Band → Band) : State :=
  { s with btu := { s.btu with bands := s.btu.bands.modify b f } }

/-- The geometry of a band (R3 to R6). -/
def State.geo (s : State) (b : Nat) : BandGeo := bandGeo s.btu.zones b

/-- BAND_COUNT, 0 while no geometry is taken. -/
def State.bandCount (s : State) : Nat := bandTotal s.btu.zones

/-- Whether a slot entry is LIVE. -/
def Slot.isLive : Slot → Bool
  | .live _ => true
  | .dead => false
  | .torn => false

/-- The live count of a band (R19). -/
def Band.live (bd : Band) : Nat := bd.slots.countP Slot.isLive
/-- The dead count of a band (R19). -/
def Band.dead (bd : Band) : Nat := bd.slots.countP (· == .dead)
/-- The torn count of a band (R19). -/
def Band.torn (bd : Band) : Nat := bd.slots.countP (· == .torn)

/-- Whether a band stands in the free pool (R24). -/
def Band.isFree (bd : Band) : Bool := decide (bd.state = .empty)

/-- The free count (R24). -/
def State.freeCount (s : State) : Nat := s.btu.bands.countP Band.isFree

/-! ### Streams -/

/-- The stream record of a number (R61). -/
def State.stream (s : State) (n : Fin 9) : Stream := s.swr.streams[n.val]

/-- Replace a stream record. -/
def State.setStream (s : State) (n : Fin 9) (x : Stream) : State :=
  { s with swr := { s.swr with streams := s.swr.streams.set n.val x } }

/-- Change one stream record. -/
def State.updStream (s : State) (n : Fin 9) (f : Stream → Stream) : State := s.setStream n (f (s.stream n))

/-- The nine streams in order. -/
def allStreams : List (Fin 9) := [0, 1, 2, 3, 4, 5, 6, 7, 8]

/-- The relocation stream (R61). -/
def relocation : Fin 9 := 8

/-- The stream a host stream number names; numbers above 8, which no admitted request holds, wrap. -/
def streamOf (n : Nat) : Fin 9 := Fin.ofNat 9 n

/-! ### Staged records -/

/-- The record at a log position (R88). -/
def State.record? (s : State) (p : Nat) : Option Record := s.slu.dir.find? fun r => decide (r.pos = p)

/-- Change the record at a log position. -/
def State.updRecord (s : State) (p : Nat) (f : Record → Record) : State :=
  { s with slu := { s.slu with dir := s.slu.dir.map fun r => if r.pos = p then f r else r } }

/-- Whether the directory holds a LIVE record (R100, R101). -/
def State.anyLiveRecord (s : State) : Bool := s.slu.dir.any fun r => decide (r.state = .live)

/-! ### Map entries -/

/-- The map entry of an LGN (R42). -/
def State.entryOf (s : State) (lgn : Nat) : MapEntry := tableGet {} s.gmu.map lgn

/-- Replace the map entry of an LGN. -/
def State.setEntryOf (s : State) (lgn : Nat) (e : MapEntry) : State :=
  { s with gmu := { s.gmu with map := tablePut {} s.gmu.map lgn e } }

/-! ### Buffers -/

/-- The sector at an index of a granule buffer; an index past 15 holds nothing. -/
def granuleGet (g : Granule) (j : Nat) : Sector := g[j]?.getD []

/-- Place a sector at an index of a granule buffer. -/
def granulePut (g : Granule) (j : Nat) (x : Sector) : Granule := g.setIfInBounds j x

/-- The contents of a buffer at its `n`-th allocation (log entry 7). -/
def freshBuffer (n : Nat) : Granule := Vector.ofFn fun j : Fin 16 => Config.bufferResidue n j.val

/-- Place sectors at consecutive indices from `j`. -/
def placeSectors (g : Granule) (j : Nat) : List Sector → Granule
  | [] => g
  | x :: xs => placeSectors (granulePut g j x) (j + 1) xs

/-- Copy the sectors at the listed indices from one buffer to another. -/
def copySectors (src dst : Granule) (js : List Nat) : Granule :=
  js.foldl (fun g j => granulePut g j (granuleGet src j)) dst

/-- Take a fresh buffer. -/
def State.takeBuffer (s : State) : State := { s with residue := s.residue + 1 }

/-! ### Outbound frames and replies (R165, R168) -/

/-- Generate a frame: it joins the tail of the outbound queue (R165). -/
def State.push (s : State) (f : OutFrame) : State := { s with flu := { s.flu with outbound := s.flu.outbound ++ [f] } }

/-- The body of a reply: the status word, and the code's fields with DONE only (R168, R194). -/
def replyBody (st : Status) (fields : List Field) : List Field :=
  .num 4 st.code :: (if st = .done then fields else [])

/-- A reply frame (R168). -/
def replyFrame (code tag : Nat) (clamped : Bool) (st : Status) (fields : List Field) : OutFrame :=
  ⟨.reply, code, tag, clamped, replyBody st fields⟩

/-- Generate a reply (R168). -/
def State.reply (s : State) (code tag : Nat) (clamped : Bool) (st : Status) (fields : List Field) : State :=
  s.push (replyFrame code tag clamped st fields)

/-- The entry in use with a tag (R166). -/
def State.entry? (s : State) (tag : Nat) : Option Entry := s.rqu.entries.find? fun e => decide (e.tag = tag)

/-- Change the entry in use with a tag. -/
def State.updEntry (s : State) (tag : Nat) (f : Entry → Entry) : State :=
  { s with rqu := { s.rqu with entries := s.rqu.entries.map fun e => if e.tag = tag then f e else e } }

/-- Free the entry with a tag and take it off the held list (R168). -/
def State.freeEntry (s : State) (tag : Nat) : State :=
  { s with rqu := { s.rqu with
      entries := s.rqu.entries.filter fun e => decide (e.tag ≠ tag)
      held := s.rqu.held.filter fun t => decide (t ≠ tag) } }

/-- End a request: its reply is generated and its entry freed at the same event (R168). -/
def State.finish (s : State) (tag : Nat) (st : Status) (fields : List Field) : State :=
  match s.entry? tag with
  | some e => (s.reply e.code tag e.clamped st fields).freeEntry tag
  | none => s

/-- End several requests with one status. -/
def State.finishAll (s : State) (tags : List Nat) (st : Status) : State :=
  tags.foldl (fun s t => s.finish t st []) s

/-- Hand a STORE back for room: it joins the tail of the held list with a new hold timer (R171). -/
def State.hold (s : State) (tag : Nat) (why : HoldReason) : State :=
  let s' := s.updEntry tag fun e =>
    { e with phase := .held, holdReason := some why, holdTimer := some s.rqu.holdTimeout }
  { s' with rqu := { s'.rqu with held := s'.rqu.held ++ [tag] } }

/-- Take a STORE off hold: it leaves the held list and is ACTIVE again (R172). -/
def State.unhold (s : State) (tag : Nat) : State :=
  let s' := s.updEntry tag fun e => { e with phase := .active, holdReason := none, holdTimer := none }
  { s' with rqu := { s'.rqu with held := s'.rqu.held.filter fun t => decide (t ≠ tag) } }

/-- The tags on the held list with a hold reason, in list order (R172). -/
def State.heldFor (s : State) (why : HoldReason) : List Nat :=
  s.rqu.held.filter fun t => match s.entry? t with
    | some e => decide (e.holdReason = some why)
    | none => false

end Sys2Proof.Machine
end

