-- ==== Sys2Proof/Machine/Flags.lean ====
section
/-!
DEFINITION. Machine/Flags.lean: the Event Unit: event flags and EVENT notices (R176 to R179), watch windows and WATCH
notices (R180 to R182).
-/

namespace Sys2Proof.Machine

/-- A flag's place in the order of R176, which is its bit in R200. -/
def EventFlag.index : EventFlag → Fin 13
  | .pressureOn => 0 | .pressureOff => 1 | .logFull => 2 | .cleanBlocked => 3 | .bandFatigued => 4 | .bandRetired => 5
  | .granuleLost => 6 | .writeFault => 7 | .mediaDown => 8 | .streamSpill => 9 | .frameError => 10
  | .qualifyDone => 11 | .watchOverrun => 12

/-- The set holding one flag. -/
def EventFlag.bit (e : EventFlag) : BitVec 13 := 1#13 <<< e.index.val

/-- The flag indices in order. -/
def allFlags : List (Fin 13) := [0, 1, 2, 3, 4, 5, 6, 7, 8, 9, 10, 11, 12]

/-- The detail a notice shows for one flag: that of a set flag, 0 for a clear one (R177, R200). -/
def Evu.noticeDetail (v : Evu) (i : Fin 13) : Nat := if v.flags.getLsbD i.val then v.details[i.val] else 0

/-- The EVENT notice of the EVU as it stands (R177, R200). -/
def Evu.notice (v : Evu) : OutFrame :=
  ⟨.notice, codeEvent, 0, false,
    [.num 2 v.flags.toNat, .num 2 v.enables.toNat] ++ allFlags.map fun i => .num 4 (v.noticeDetail i)⟩

/-- The EVU with a flag set and its detail replaced (R177). -/
def Evu.set (v : Evu) (e : EventFlag) (detail : Nat) : Evu :=
  { v with flags := v.flags ||| e.bit, details := v.details.set e.index.val detail }

/-- Raise an event: the flag and detail are set, and a flag that was clear with its enable on gives one notice (R177). -/
def State.raise (s : State) (e : EventFlag) (detail : Nat) : State :=
  let s' := { s with evu := s.evu.set e detail }
  if !s.evu.flags.getLsbD e.index.val && s.evu.enables.getLsbD e.index.val then s'.push s'.evu.notice else s'

/-- The eight windows in order. -/
def allWindows : List (Fin 8) := [0, 1, 2, 3, 4, 5, 6, 7]

/-- The causes a mode accepts (R181). -/
def WatchMode.accepts : WatchMode → HomeCause → Bool
  | .all, _ => true
  | .moves, .fold => true
  | .moves, .clean => true
  | .moves, .replace => true
  | .moves, .store => false
  | .moves, .discard => false
  | .hold, .fold => true
  | .hold, .clean => true
  | .hold, .replace => true
  | .hold, .store => false
  | .hold, .discard => false

/-- Whether a window in use matches a home change (R181). -/
def Window.matches (w : Window) (lgn : Nat) (cause : HomeCause) : Bool :=
  decide (w.lo ≤ lgn) && decide (lgn ≤ w.hi) && w.mode.accepts cause

/-- The set of the windows that satisfy a test, bit w for window w (R200). -/
def Evu.windowSet (v : Evu) (p : Window → Bool) : BitVec 8 :=
  allWindows.foldl (fun m w => match v.windows[w.val] with
    | some x => if p x then m ||| (1#8 <<< w.val) else m
    | none => m) 0#8

/-- Give the windows of a set their overrun mark (R182). -/
def Evu.markOverrun (v : Evu) (set : BitVec 8) : Evu :=
  { v with windows := allWindows.foldl (fun ws w =>
      if set.getLsbD w.val then ws.set w.val (ws[w.val].map fun x => { x with overrun := true }) else ws) v.windows }

/-- Clear every window's overrun mark (R179). -/
def Evu.clearOverruns (v : Evu) : Evu :=
  { v with windows := allWindows.foldl (fun ws w =>
      ws.set w.val (ws[w.val].map fun x => { x with overrun := false })) v.windows }

/-- Offer a WATCH notice to the queue (R182). -/
def State.offerWatch (s : State) (n : WatchNotice) : State :=
  if s.evu.watchQueue.length < Config.watchQueueLimit then
    { s with evu := { s.evu with watchQueue := s.evu.watchQueue ++ [n] } }
  else
    let v := s.evu.markOverrun n.windows
    ({ s with evu := v }).raise .watchOverrun (v.windowSet Window.overrun).toNat

/-- A home-change report taken by the EVU (R58, R181). -/
def State.homeChange (s : State) (lgn : Nat) (cause : HomeCause) (old new : Option Home) : State :=
  let set := s.evu.windowSet fun w => w.matches lgn cause && !w.overrun
  if set = 0#8 then s else s.offerWatch ⟨lgn, set, cause, old, new⟩

/-- Whether an LGN lies in a HOLD window (R180). -/
def State.inHoldWindow (s : State) (lgn : Nat) : Bool :=
  decide (s.evu.windowSet (fun w => decide (w.mode = .hold) && decide (w.lo ≤ lgn) && decide (lgn ≤ w.hi)) ≠ 0#8)

/-- A home's fields in a WATCH notice (R200). -/
def homeFields : Option Home → List Field
  | some h => [.num 4 h.band, .num 2 h.slot, .num 2 0]
  | none => [optNum 4 none, optNum 2 none, .num 2 0]

/-- A WATCH notice's frame (R200). -/
def WatchNotice.frame (n : WatchNotice) : OutFrame :=
  ⟨.notice, codeWatch, 0, false,
    [.num 4 n.lgn, .num 1 n.windows.toNat, .num 1 n.cause.code,
      .num 1 (n.old.isSome.toNat + 2 * n.new.isSome.toNat), .num 1 0] ++ homeFields n.old ++ homeFields n.new⟩

end Sys2Proof.Machine
end

