-- ==== Sys2Proof/Machine/Bands.lean ====
section
/-!
DEFINITION. Machine/Bands.lean: the Band Table Unit's answers to the reports and requests of its neighbours (Chapter 2).
-/

namespace Sys2Proof.Machine

/-! ### Slot accounting (R21 to R23) -/

/-- The slot list brought to `n` entries, new ones TORN, with the verdict (if any) on the last of them (R21). -/
def slotsAt (slots : List Slot) (n : Nat) (verdict : Option Slot) : List Slot :=
  let grown := slots ++ List.replicate (n - slots.length) .torn
  match verdict with
  | some v => grown.set (n - 1) v
  | none => grown

/-- A band record after a frontier report (R21): the new F, never below the old one, and the slot list at
ceil(F / 16) entries. A band that is not OPEN ignores the report (R23). -/
def Band.frontierReport (bd : Band) (f : Nat) (verdict : Option Slot) : Band :=
  if bd.state = .opened ∧ bd.frontier ≤ f then
    { bd with frontier := f, slots := slotsAt bd.slots (slotsBehind f) verdict }
  else bd

/-- A frontier report (R21). -/
def State.frontierReport (s : State) (b f : Nat) (verdict : Option Slot) : State :=
  s.updBand b fun bd => bd.frontierReport f verdict

/-- Whether a band takes slot, reader and retry reports (R23). -/
def Band.takesReports (bd : Band) : Bool :=
  decide (bd.state = .opened) || decide (bd.state = .full) || decide (bd.state = .cleaning)

/-- A band record after a superseded report for one slot (R22): a LIVE entry becomes DEAD. -/
def Band.supersede (bd : Band) (slot : Nat) : Band :=
  if bd.takesReports then
    match bd.slots[slot]? with
    | some (.live _) => { bd with slots := bd.slots.set slot .dead }
    | _ => bd
  else bd

/-- A superseded report for a home, if there is one (R22). -/
def State.supersede (s : State) (h : Option Home) : State :=
  match h with
  | some h => s.updBand h.band fun bd => bd.supersede h.slot
  | none => s

/-- Whether a slot's entry is LIVE and names an LGN (R67). -/
def State.slotLiveFor (s : State) (h : Home) (lgn : Nat) : Bool :=
  match s.band? h.band with
  | some bd => decide (bd.slots[h.slot]? = some (.live lgn))
  | none => false

/-! ### PRESSURE (R28, R29) -/

/-- PRESSURE judged after a band left the free pool (R28). -/
def State.judgePressureOn (s : State) : State :=
  if s.btu.pressure = false ∧ s.freeCount ≤ s.btu.reserve then
    ({ s with btu := { s.btu with pressure := true } }).raise .pressureOn s.freeCount
  else s

/-- PRESSURE judged after a band joined the free pool (R29). Held STOREs are released by PRESSURE_RELEASE. -/
def State.judgePressureOff (s : State) : State :=
  if s.btu.pressure = true ∧ s.btu.reserve + 2 ≤ s.freeCount then
    ({ s with btu := { s.btu with pressure := false } }).raise .pressureOff s.freeCount
  else s

/-! ### Opens (R25 to R27) -/

/-- The lowest-numbered EMPTY band from `lo` up to but not including `hi`. -/
def State.firstFree (s : State) (lo hi : Nat) : Option Nat :=
  (s.btu.bands.find? fun bd => bd.isFree && decide (lo ≤ bd.number) && decide (bd.number < hi)).map Band.number

/-- The lowest-numbered EMPTY band of a stream's zone range, over the zones that exist (R3, R25, R62). -/
def State.rangeFree (s : State) (n : Fin 9) : Option Nat :=
  s.firstFree (firstBand s.btu.zones (s.stream n).lo) (firstBand s.btu.zones ((s.stream n).hi + 1))

/-- The band an open for a stream gets, and whether the open spills (R25). -/
def State.pickBand (s : State) (n : Fin 9) : Option (Nat × Bool) :=
  match s.rangeFree n with
  | some b => some (b, false)
  | none => (s.firstFree 0 s.btu.bands.length).map fun b => (b, true)

/-- Grant an open of band `b` to stream `n` (R27): the band is OPEN for the stream, the SWR is answered (R66), and
PRESSURE is judged (R28). -/
def State.grantBand (s : State) (n : Fin 9) (b : Nat) (spill : Bool) : State :=
  let s := if spill then s.raise .streamSpill n.val else s
  let s := s.updBand b fun bd => { bd with state := .opened, stream := some n }
  let s := s.updStream n fun x => { x with openBand := some b, openPending := false }
  s.judgePressureOn

/-- Grant an open to stream `n` if the pool holds a band. -/
def State.grantOpen (s : State) (n : Fin 9) : State :=
  match s.pickBand n with
  | some (b, spill) => s.grantBand n b spill
  | none => s

/-! ### Closing (R30) -/

/-- Close a band (R30). A report for a band that is not OPEN is ignored (R23). -/
def State.closeBand (s : State) (b : Nat) (why : CloseReason) : State :=
  match s.band? b with
  | some bd =>
    if bd.state = .opened then
      let s' := s.updBand b fun bd =>
        { bd with state := .full, stream := none, closeOrder := some s.btu.closeOrder, closeReason := some why }
      { s' with btu := { s'.btu with closeOrder := min (s.btu.closeOrder + 1) Config.counterMax } }
    else s
  | none => s

/-! ### Cleaning and reset (R31 to R34) -/

/-- Take a band off the refresh list (R39). -/
def State.unrefresh (s : State) (b : Nat) : State :=
  { s with btu := { s.btu with refresh := s.btu.refresh.filter fun x => decide (x ≠ b) } }

/-- Put a FULL band into cleaning (R31); the caller has found it FULL. -/
def State.enterCleaning (s : State) (b : Nat) : State :=
  (s.updBand b fun bd => { bd with state := .cleaning, holdBlocked := false }).unrefresh b

/-- Return a CLEANING band to FULL with its hold-blocked mark as given (R32, R40). -/
def State.leaveCleaning (s : State) (b : Nat) (mark : Bool) : State :=
  s.updBand b fun bd => if bd.state = .cleaning then { bd with state := .full, holdBlocked := mark } else bd

/-- A band record after its band reset, in the state the reset leaves it in (R33). -/
def Band.cleared (bd : Band) (after : BandState) : Band :=
  { bd with state := after, frontier := 0, slots := [], retry := 0, closeOrder := none, closeReason := none,
            holdBlocked := false }

/-- The state a band reset leaves a band in (R33). -/
def Band.resetState (bd : Band) : BandState := if bd.fatigue = 3 then .retired else .empty

/-- The band reset (R33): RETIRED at fatigue count 3, else EMPTY and in the free pool, where R29 judges PRESSURE. -/
def State.resetBand (s : State) (bd : Band) : State :=
  let s' := (s.updBand bd.number fun x => x.cleared bd.resetState).unrefresh bd.number
  if bd.fatigue = 3 then s'.raise .bandRetired bd.number else s'.judgePressureOff

/-- Clear every hold-blocked mark, at a watch change (R34). -/
def State.clearMarks (s : State) : State :=
  { s with btu := { s.btu with bands := s.btu.bands.map fun bd => { bd with holdBlocked := false } } }

/-! ### Qualification (R35, R36) -/

/-- The BTU's answer to a qualification entry: DONE where it is granted (R35). -/
def State.qualifyAnswer (s : State) (bd : Band) : Status :=
  match bd.state with
  | .retired => .done
  | .empty => if s.btu.reserve + 2 ≤ s.freeCount then .done else .noSpace
  | .opened => .wrongState
  | .full => .wrongState
  | .cleaning => .wrongState
  | .qualifying => .wrongState

/-- A granted qualification entry (R35). -/
def State.enterQualifying (s : State) (bd : Band) : State :=
  let s' := s.updBand bd.number fun x => { x with state := .qualifying, prior := some bd.state }
  if bd.state = .empty then s'.judgePressureOn else s'

/-- The end of a qualification (R36). -/
def State.endQualifying (s : State) (b : Nat) (out : QualOutcome) : State :=
  match s.band? b with
  | some bd =>
    if bd.state = .qualifying then
      match out with
      | .passed =>
        (s.updBand b fun x => { x with state := .empty, prior := none, retry := 0, fatigue := 0 }).judgePressureOff
      | .retired =>
        (s.updBand b fun x => { x with state := .retired, prior := none }).raise .bandRetired b
      | .stopped =>
        let s' := s.updBand b fun x => { x with state := bd.prior.getD .empty, prior := none }
        if bd.prior.getD .empty = .empty then s'.judgePressureOff else s'
    else s
  | none => s

/-! ### Readers and retries (R37 to R39) -/

/-- A read start (R37). -/
def State.readStart (s : State) (b : Nat) : State :=
  s.updBand b fun bd => if bd.takesReports then { bd with readers := bd.readers + 1 } else bd

/-- A read end (R37); one that finds the count at 0 is ignored. -/
def State.readEnd (s : State) (b : Nat) : State :=
  s.updBand b fun bd => if bd.takesReports then { bd with readers := bd.readers - 1 } else bd

/-- An unrecovered answer for a band (R38): the retry counter rises, and at 128 the band is fatigued and joins the
refresh list (R39). -/
def State.unrecoveredReport (s : State) (b : Nat) : State :=
  match s.band? b with
  | some bd =>
    if bd.takesReports then
      if bd.retry = 127 then
        let s' := s.updBand b fun x => { x with retry := 128, fatigue := min (bd.fatigue + 1) 3 }
        let s' := { s' with btu := { s'.btu with
          refresh := if s.btu.refresh.contains b then s.btu.refresh else s.btu.refresh ++ [b] } }
        s'.raise .bandFatigued b
      else s.updBand b fun x => { x with retry := min (bd.retry + 1) 255 }
    else s
  | none => s

end Sys2Proof.Machine
end

