-- ==== Sys2Proof/Machine/Media.lean ====
section
/-!
DEFINITION. Machine/Media.lean: handing runs to the head arbiter (R141, R142), the class queues and skip counters (R143 to
R146), and sending orders to the channel (R148).
-/

namespace Sys2Proof.Machine

/-- A class's place in the queues, its class code (R198). -/
def Cls.index : Cls → Fin 5
  | .read => 0 | .write => 1 | .fold => 2 | .clean => 3 | .qualify => 4

/-- The five classes in class code order. -/
def allClasses : List Cls := [.read, .write, .fold, .clean, .qualify]

/-- Whether a class is masked (R146); READ and WRITE never are. -/
def Mask.has (m : Mask) : Cls → Bool
  | .read => false
  | .write => false
  | .fold => m.fold
  | .clean => m.clean
  | .qualify => m.qualify

/-- A class's queue (R142). -/
def Har.queue (h : Har) (c : Cls) : List MediaOp := h.queues[c.index.val]

/-- A class's skip counter (R145). -/
def Har.skip (h : Har) (c : Cls) : Nat := h.skips[c.index.val]

/-- Replace a class's queue; its skip counter is 0 once the queue is empty (R145). -/
def Har.setQueue (h : Har) (c : Cls) (q : List MediaOp) : Har :=
  { h with queues := h.queues.set c.index.val q
           skips := if q.isEmpty then h.skips.set c.index.val 0 else h.skips }

/-- The identifier after one (R141). -/
def nextOpId (n : Nat) : Nat := if n < Config.opIdMax then n + 1 else 1

/-- Whether an operation's band read counts as a reader, and its UNRECOVERED answers against the band (R142, R153,
R156). -/
def MediaOp.bandRead (o : MediaOp) : Option Nat :=
  match o.isWrite, o.cls, o.target with
  | false, .read, .band b => some b
  | false, .fold, .band b => some b
  | false, .clean, .band b => some b
  | _, _, _ => none

/-- The staged record an operation reads, if any (R96). -/
def MediaOp.recordRead (o : MediaOp) : Option Nat :=
  match o.origin with
  | .fetchRecord p => some p
  | .foldRecord p => some p
  | .fetchBand => none
  | .stream _ => none
  | .staged _ => none
  | .foldHome => none
  | .cleanRead _ => none
  | .qual => none

/-- Count the readers of an operation that joins its queue (R37, R96, R142). -/
def State.countReaders (s : State) (o : MediaOp) : State :=
  let s := match o.bandRead with
    | some b => s.readStart b
    | none => s
  match o.recordRead with
  | some p => s.updRecord p fun r => { r with readers := r.readers + 1 }
  | none => s

/-- An operation with the HAR's next identifier and fresh counts (R141). -/
def MediaOp.fresh (o : MediaOp) (id : Nat) : MediaOp :=
  { o with id := id, sectorsDone := 0, defers := 0, retries := 0, servoUsed := false }

/-- Hand an operation over while the port is UP: it takes an identifier, joins the tail of its class queue, and its
readers are counted (R141, R142). -/
def State.handOver (s : State) (o : MediaOp) : State :=
  let o := o.fresh s.har.nextId
  let h := s.har.setQueue o.cls (s.har.queue o.cls ++ [o])
  ({ s with har := { h with nextId := nextOpId s.har.nextId } }).countReaders o

/-- Hand several operations over in order. -/
def State.handOverAll (s : State) (os : List MediaOp) : State := os.foldl State.handOver s

/-- Identifiers taken by operations that fail as they are handed over, the port being DOWN (R141, R142). -/
def State.spendIds (s : State) (n : Nat) : State :=
  { s with har := { s.har with nextId := Nat.repeat nextOpId n s.har.nextId } }

/-- The remainder of a stopped run enters at the head of its class queue, keeping its identifier (R142, R152). -/
def State.requeueHead (s : State) (o : MediaOp) : State :=
  { s with har := s.har.setQueue o.cls (o :: s.har.queue o.cls) }

/-- The remainder of an operation after its sectors done (R152). -/
def MediaOp.remainder (o : MediaOp) : MediaOp :=
  { o with first := o.first + o.sectorsDone, count := o.count - o.sectorsDone, place := o.place + o.sectorsDone,
           sectorsDone := 0, defers := 0 }

/-- Every queued operation: the classes in class code order, the oldest first within a class. The order among the
classes, in which a port DOWN or a RESET reports them, is the model's choice (DESIGN CHOICE, log entry 40). -/
def Har.allQueued (h : Har) : List MediaOp := (allClasses.map h.queue).flatten

/-- The HAR with every queue empty and every skip counter 0 (R158, R160). -/
def Har.emptied (h : Har) : Har := { h with queues := Vector.replicate 5 [], skips := Vector.replicate 5 0 }

/-! ### Arbitration (R143 to R145) -/

/-- The effective order, highest first (R143). -/
def effectiveOrder (pressure logHeld : Bool) : List Cls :=
  match pressure, logHeld with
  | false, false => [.read, .write, .fold, .clean, .qualify]
  | true, false => [.read, .clean, .fold, .write, .qualify]
  | false, true => [.read, .fold, .write, .clean, .qualify]
  | true, true => [.read, .fold, .clean, .write, .qualify]

/-- Whether a class may be granted (R144). -/
def Har.ready (h : Har) (c : Cls) : Bool := !h.mask.has c && !(h.queue c).isEmpty

/-- The class a grant takes: the first of the effective order among the aged classes, else among all (R144). -/
def Har.choose (h : Har) (order : List Cls) : Option Cls :=
  match order.find? fun c => h.ready c && decide (Config.skipLimit ≤ h.skip c) with
  | some c => some c
  | none => order.find? h.ready

/-- The skip counter of a class after a grant to `g` (R145). -/
def Har.skipAfter (h : Har) (g c : Cls) : Nat :=
  if c = g then 0 else if h.ready c then min (h.skip c + 1) Config.skipLimit else h.skip c

/-- The HAR after granting the head operation of class `g`: the operation leaves its queue and the skip counters move
(R144, R145). -/
def Har.granted (h : Har) (g : Cls) : Har :=
  let h := h.setQueue g ((h.queue g).drop 1)
  { h with skips := allClasses.foldl (fun v c => v.set c.index.val (h.skipAfter g c)) h.skips }

/-! ### Orders (R147, R148) -/

/-- The order number after one (R147). -/
def nextOrderNo (n : Nat) : Nat := if n < Config.orderNumberMax then n + 1 else 1

/-- Send a record to the channel: one order number is spent on each (R147, log entry 21). -/
def State.sendOrder (s : State) (o : MediaOrder) : State :=
  { s with mpt := { s.mpt with wire := s.mpt.wire ++ [o.bytes], orderNo := nextOrderNo s.mpt.orderNo } }

/-- Sector `k` of an operation's buffer, counted from the run's first sector (R141): where each owner keeps it. -/
def State.opSector (s : State) (o : MediaOp) (k : Nat) : Sector :=
  match o.origin with
  | .stream n =>
    match (s.stream n).fifo with
    | it :: _ => granuleGet it.content (o.place + k)
    | [] => []
  | .staged p =>
    match s.record? p with
    | some r =>
      if o.place + k = 0 then recordHeader r
      else match o.tag.bind s.entry? with
        | some e => granuleGet e.buffer (r.first + (o.place + k) - 1)
        | none => []
    | none => []
  | .qual => s.qen.buffer[o.place + k]?.getD []
  | .fetchBand => []
  | .fetchRecord _ => []
  | .foldRecord _ => []
  | .foldHome => []
  | .cleanRead _ => []

/-- The order for an operation's run from its sectors done on (R148). -/
def State.runOrder (s : State) (o : MediaOp) : MediaOrder :=
  if o.isWrite then
    .writeRun s.mpt.orderNo o.track (o.first + o.sectorsDone)
      ((List.range (o.count - o.sectorsDone)).map fun k => s.opSector o (o.sectorsDone + k))
  else .readRun s.mpt.orderNo o.track (o.first + o.sectorsDone) (o.count - o.sectorsDone)

/-- Send, or send again, the order of the operation in progress: the stage is CLAIMING (R148). -/
def State.issue (s : State) (o : MediaOp) : State :=
  let s' := s.sendOrder (s.runOrder o)
  { s' with mpt := { s'.mpt with
      stage := .claiming, op := some o
      order := ⟨s.mpt.orderNo, o.first + o.sectorsDone, o.count - o.sectorsDone⟩ } }

/-- Send an ABORT naming the order outstanding (R148). -/
def State.sendAbort (s : State) : State := s.sendOrder (.abort s.mpt.order.number)

/-- Replace the operation in progress. -/
def State.setOp (s : State) (o : MediaOp) : State := { s with mpt := { s.mpt with op := some o } }

/-- The port idle with no operation in progress. -/
def State.portIdle (s : State) : State := { s with mpt := { s.mpt with stage := .idle, op := none } }

/-! ### Outcomes (R156, R157) -/

/-- The outcome of an operation, reported with the operation's sectors done (R156). -/
inductive Outcome where
  | complete
  | stopped
  | unrecovered
  /-- `answered`: whether an answer gave the sectors done; an unanswered ABORT takes them as the whole count (R151). -/
  | writeFault (answered : Bool)
  | notServed (c : Cause)
  | mediaDown
  | aborted
  deriving DecidableEq, Repr

/-- A cause's bit (R200); TIMED_OUT is no counted failure and has none. -/
def Cause.bit : Cause → BitVec 4
  | .noClaim => 1#4 | .deferLimit => 2#4 | .abortUnanswered => 4#4 | .servoLost => 8#4 | .timedOut => 0#4

/-- A counted failure (R157). -/
def State.countFailure (s : State) (c : Cause) : State :=
  { s with mpt := { s.mpt with failures := min (s.mpt.failures + 1) 3, causes := s.mpt.causes ||| c.bit } }

/-- A success: the counter and the current causes are cleared (R157). -/
def State.countSuccess (s : State) : State :=
  { s with mpt := { s.mpt with failures := 0, causes := 0 } }

end Sys2Proof.Machine
end

