-- ==== Sys2Proof/Machine/Map.lean ====
section
/-!
DEFINITION. Machine/Map.lean: the Granule Map Unit (Chapter 3) and the directory operations of the Staging Log Unit that
its updates reach: chains, killing and relinking records (R46, R89), head advance and the log-held condition (R97,
R98), FOLD requests that end for want of a LIVE record (R101).
-/

namespace Sys2Proof.Machine

/-! ### The directory (R89, R97, R98, R101) -/

/-- The WRITING and LIVE records of a chain, newest first, from a position through the previous links (R89). -/
def chainFrom (dir : List Record) : (fuel : Nat) → Option Nat → List Record
  | 0, _ => []
  | _ + 1, none => []
  | fuel + 1, some p =>
    match dir.find? fun r => decide (r.pos = p) with
    | some r => r :: chainFrom dir fuel r.prev
    | none => []

/-- The chain of an LGN, newest first (R89). -/
def State.chain (s : State) (lgn : Nat) : List Record :=
  chainFrom s.slu.dir (s.slu.dir.length + 1) (s.entryOf lgn).newest

/-- Whether the log is clear for admission (R98). -/
def Slu.clearForAdmission (l : Slu) : Bool :=
  decide (l.used + 16 ≤ softLimit l.area) && decide (l.dir.length < Config.dirSoftLimit)

/-- The directory from its first record that is WRITING, LIVE or DEAD with readers (R97). -/
def keepFrom (dir : List Record) : List Record :=
  dir.dropWhile fun r => decide (r.state = .dead) && decide (r.readers = 0)

/-- The sectors of a run of records. -/
def recordSectors (rs : List Record) : Nat := (rs.map Record.len).sum

/-- The head advance, and the log-held condition judged where a record was removed (R97, R98). -/
def Slu.advance (l : Slu) : Slu :=
  let kept := keepFrom l.dir
  let l' := { l with
    dir := kept
    used := l.used - recordSectors (l.dir.take (l.dir.length - kept.length))
    head := match kept with
      | r :: _ => r.pos
      | [] => l.tail }
  if kept.length < l.dir.length ∧ l.logHeld = true ∧ l'.clearForAdmission = true then { l' with logHeld := false } else l'

/-- The head advance (R97). A release of the STOREs held for LOG is then due (LOG_RELEASE). -/
def State.advanceHead (s : State) : State := { s with slu := s.slu.advance }

/-- The DONE fields of a FOLD request (R101, R196). -/
def FoldReq.fields (q : FoldReq) (noLive : Bool) : List Field :=
  [.num 2 q.accepted, .num 2 q.rejected, .num 2 q.abandoned, boolNum 1 noLive, .num 1 0]

/-- While the engine is IDLE and no record is LIVE, every FOLD request is replied DONE (R101): in list order, at the
event that left no record LIVE and before the frames that event sends later, a DESIGN CHOICE of the model, log entry
52. -/
def State.judgeFoldReqs (s : State) : State :=
  if s.slu.fold.isNone = true ∧ s.anyLiveRecord = false then
    s.slu.foldReqs.foldl (fun s q => s.finish q.tag .done (q.fields true)) { s with slu := { s.slu with foldReqs := [] } }
  else s

/-- A record after the records at the listed positions are killed: DEAD if it is one of them, and with its previous
link cleared if it remains in the chain and named one of them, as only the oldest remaining record does (R46, R89). That
a DEAD record keeps the link it had is the model's choice (DESIGN CHOICE, log entry 62). -/
def Record.killedBy (r : Record) (ps : List Nat) : Record :=
  if ps.contains r.pos then { r with state := .dead }
  else if r.state = .dead then r
  else match r.prev with
    | some p => if ps.contains p then { r with prev := none } else r
    | none => r

/-- Mark the records at the listed positions DEAD, clear the previous link of the oldest record that remains in the
chain, and judge the head (R46, R89, R97). -/
def State.killRecords (s : State) (ps : List Nat) : State :=
  let s := { s with slu := { s.slu with dir := s.slu.dir.map fun r : Record => r.killedBy ps } }
  s.advanceHead.judgeFoldReqs

/-- The GMU's part of a record made DEAD by the SLU (R45). -/
def MapEntry.recordDead (e : MapEntry) (r : Record) : MapEntry :=
  { e with overlays := e.overlays - 1, newest := if e.newest = some r.pos then r.prev else e.newest }

/-- A record after the SLU made `dead` DEAD: `dead` itself DEAD, and the next newer record of its chain linked past it
(R89). That `dead` keeps its own link is the model's choice (DESIGN CHOICE, log entry 62). -/
def Record.afterDeath (x dead : Record) : Record :=
  if x.pos = dead.pos then { x with state := .dead }
  else if x.lgn = dead.lgn ∧ x.state ≠ .dead ∧ x.prev = some dead.pos then { x with prev := dead.prev }
  else x

/-- The SLU makes a WRITING or LIVE record DEAD: the next newer record of the LGN takes its previous link, the GMU is
told (R45, R89), and the head is judged (R97). -/
def State.makeDead (s : State) (p : Nat) : State :=
  match s.record? p with
  | some r =>
    if r.state = .dead then s
    else
      let s := { s with slu := { s.slu with dir := s.slu.dir.map fun x : Record => x.afterDeath r } }
      let s := s.setEntryOf r.lgn ((s.entryOf r.lgn).recordDead r)
      s.advanceHead.judgeFoldReqs
  | none => s

/-- A record's read end (R96): its readers count falls, and the head is judged (R97). -/
def State.recordReadEnd (s : State) (p : Nat) : State :=
  (s.updRecord p fun r => { r with readers := r.readers - 1 }).advanceHead

/-! ### Home copies (R48, R78) -/

/-- The exposed copy of a slot in a stream's open band. -/
def Stream.exposedCopy (x : Stream) (h : Home) : Option Granule :=
  if x.openBand = some h.band then (x.exposed.find? fun e => decide (e.slot = h.slot)).map Exposed.content else none

/-- The copy a re-placement item of a stream holds for its source slot (R78). It answers whatever LGN the item names, and
also where the source band has been cleaned, reset and rewritten since the fault: R78 says held there and R48 does not, a
DESIGN CHOICE of the model, log entry 61. -/
def Stream.replacedCopy (x : Stream) (h : Home) : Option Granule :=
  (x.fifo.find? fun it => decide (it.work = .replace h)).map Item.content

/-- The retained copy of a home, if the SWR holds one: an exposed slot's buffer, else a re-placement item's (R48, R78). Of
several that answer for one slot, which R78 rules out, the exposed slot's comes first, then the lowest stream's and the
item nearest the head (DESIGN CHOICE, log entry 61). -/
def State.heldCopy (s : State) (h : Home) : Option Granule :=
  match allStreams.findSome? fun n => (s.stream n).exposedCopy h with
  | some g => some g
  | none => allStreams.findSome? fun n => (s.stream n).replacedCopy h

/-! ### Conditional updates (R52 to R57) -/

/-- The GMU's verdict on a proposal (R52). -/
inductive Verdict where
  | accepted
  | rejected
  deriving DecidableEq, Repr

/-- The slot entry a verdict gives (R52). -/
def Verdict.slot (v : Verdict) (lgn : Nat) : Slot :=
  match v with
  | .accepted => .live lgn
  | .rejected => .dead

/-- A STORE or DISCARD takes the entry of an LGN: the old home is superseded, every record of the chain is killed, and
the entry has the new home, base `p` and no overlays (R46, R53, R54). -/
def State.supersedeGranule (s : State) (lgn p : Nat) (new : Option Home) : State :=
  let ps := (s.chain lgn).map Record.pos
  let s := s.supersede (s.entryOf lgn).home
  (s.setEntryOf lgn { home := new, base := p }).killRecords ps

/-- A STORE proposal, always accepted (R53). -/
def State.proposeStore (s : State) (lgn p : Nat) (new : Home) : State :=
  let old := (s.entryOf lgn).home
  (s.supersedeGranule lgn p (some new)).homeChange lgn .store old (some new)

/-- How many of the listed records are still WRITING or LIVE. -/
def State.survivors (s : State) (ps : List Nat) : Nat :=
  s.slu.dir.countP fun r => ps.contains r.pos && decide (r.state ≠ .dead)

/-- An accepted FOLD proposal (R46, R55). -/
def State.acceptFold (s : State) (lgn q : Nat) (merged : List Nat) (new : Home) : State :=
  let e := s.entryOf lgn
  let left := e.overlays - s.survivors merged
  let s := s.supersede e.home
  let s := s.setEntryOf lgn
    { home := some new, base := q, overlays := left, newest := if left = 0 then none else e.newest }
  (s.killRecords merged).homeChange lgn .fold e.home (some new)

/-- An accepted CLEAN or REPLACE proposal (R56). -/
def State.acceptCopy (s : State) (lgn : Nat) (src new : Home) (cause : HomeCause) : State :=
  let e := s.entryOf lgn
  ((s.supersede (some src)).setEntryOf lgn { e with home := some new }).homeChange lgn cause (some src) (some new)

/-- The GMU's verdict on an item's proposal (R53, R55, R56). -/
def State.verdict (s : State) (it : Item) : Verdict :=
  match it.work with
  | .store _ _ => .accepted
  | .fold q _ => if (s.entryOf it.lgn).base < q then .accepted else .rejected
  | .clean src => if (s.entryOf it.lgn).home = some src then .accepted else .rejected
  | .replace src => if (s.entryOf it.lgn).home = some src then .accepted else .rejected

/-- The state after an item's proposal for a slot; a rejected one changes nothing (R52). -/
def State.propose (s : State) (it : Item) (new : Home) : State :=
  match s.verdict it with
  | .rejected => s
  | .accepted =>
    match it.work with
    | .store _ p => s.proposeStore it.lgn p new
    | .fold q merged => s.acceptFold it.lgn q merged new
    | .clean src => s.acceptCopy it.lgn src new .clean
    | .replace src => s.acceptCopy it.lgn src new .replace

/-- A lost report (R57). -/
def State.lostReport (s : State) (lgn : Nat) (h : Home) : State :=
  let e := s.entryOf lgn
  if e.home = some h then
    ((s.setEntryOf lgn { e with home := none, lost := true }).supersede (some h)).raise .granuleLost lgn
  else s

/-- A DISCARD applied to one LGN (R54, R58). -/
def State.discardOne (s : State) (lgn p : Nat) : State :=
  let e := s.entryOf lgn
  let s' := s.supersedeGranule lgn p none
  if e.home.isSome ∨ e.overlays ≠ 0 ∨ e.lost = true then s'.homeChange lgn .discard e.home none else s'

/-- A DISCARD applied to `n` LGNs from `lgn` in ascending order (R54). -/
def State.discardRange (s : State) (p : Nat) : (n lgn : Nat) → State
  | 0, _ => s
  | n + 1, lgn => (s.discardOne lgn p).discardRange p n (lgn + 1)

end Sys2Proof.Machine
end

