-- ==== Sys2Proof/Machine/Streams.lean ====
section
/-!
DEFINITION. Machine/Streams.lean: the Stream Writer's own work (Chapter 4): FIFOs and opens, placement at the frontier,
exposure, closes, write-fault recovery, aborts. What happens beyond the SWR when an item completes is in
Machine/Outcomes.lean.
-/

namespace Sys2Proof.Machine

/-- The class queue an item's runs enter (R64). -/
def itemClass (n : Fin 9) : Work → Cls
  | .store _ _ => .write
  | .fold _ _ => .fold
  | .clean _ => .clean
  | .replace _ => if n = relocation then .clean else .write

/-- The request an item serves (R64, R141). -/
def Work.tag : Work → Option Nat
  | .store t _ => some t
  | .fold _ _ => none
  | .clean _ => none
  | .replace _ => none

/-- Whether an item is a STORE. -/
def Work.isStore : Work → Bool
  | .store _ _ => true
  | .fold _ _ => false
  | .clean _ => false
  | .replace _ => false

/-- Whether an item is a re-placement. -/
def Work.isReplace : Work → Bool
  | .store _ _ => false
  | .fold _ _ => false
  | .clean _ => false
  | .replace _ => true

/-- A band's frontier, 0 for a number outside the table. -/
def State.frontier (s : State) (b : Nat) : Nat := ((s.band? b).map Band.frontier).getD 0

/-! ### Recoveries (R82) -/

/-- A stream record once only the items `kept` are left in its FIFO: a recovery band none of them counts toward becomes
absent (R82). -/
def Stream.keeping (x : Stream) (kept : List Item) : Stream :=
  { x with fifo := kept, recovery := x.recovery.filter fun r => kept.any fun it => it.recoveries.contains r }

/-- The head item leaves the FIFO (R67, R70, R75, R82). -/
def State.dropHead (s : State) (n : Fin 9) : State := s.updStream n fun x => x.keeping (x.fifo.drop 1)

/-- Items that fail a test leave the FIFO (R76, R82, R83). -/
def State.keepItems (s : State) (n : Fin 9) (keep : Item → Bool) : State :=
  s.updStream n fun x => x.keeping (x.fifo.filter keep)

/-- Insert a recovery into a list kept in the order of the faults, each once. -/
def insertRecovery (r : Recovery) : List Recovery → List Recovery
  | [] => [r]
  | x :: xs => if r = x then x :: xs else if r.serial < x.serial then r :: x :: xs else x :: insertRecovery r xs

/-- The recoveries counted by a list of items, each once, in the order of their faults (R82). -/
def recoveriesOf (items : List Item) : List Recovery :=
  (items.map Item.recoveries).flatten.foldl (fun rs r => insertRecovery r rs) []

/-- The recoveries in progress: those the items of every FIFO count toward, in the order of their faults (R82). -/
def State.recoveries (s : State) : List Recovery := recoveriesOf (allStreams.map fun n => (s.stream n).fifo).flatten

/-- Raise WRITE_FAULT for each recovery of `rs`, those in progress before the event's work, that has ended in it: all of
an event together, in the order of their faults, whatever their streams (R82). -/
def State.raiseEnded (s : State) (rs : List Recovery) : State :=
  (rs.filter fun r => !s.recoveries.contains r).foldl (fun s r => s.raise .writeFault r.band) s

/-! ### Placement (R66 to R68) -/

/-- Queue the next run of the item being written, from the frontier to the end of its slot (R68). -/
def State.queueRun (s : State) (n : Fin 9) : State :=
  let x := s.stream n
  match x.openBand, x.writing, x.fifo with
  | some b, some w, it :: _ =>
    let f := s.frontier b
    let g := s.geo b
    match cutSpan g.spt f (16 * w + 16 - f) with
    | p :: _ => s.handOver
        { id := 0, cls := itemClass n it.work, isWrite := true, target := .band b, track := g.track0 + p.track,
          first := p.sector, count := p.count, place := f - 16 * w, origin := .stream n, tag := it.work.tag }
    | [] => s
  | _, _, _ => s

/-- Whether an item is a re-placement whose source slot no longer holds its granule (R67). A faulted item is not
checked. -/
def State.stale (s : State) (it : Item) : Bool :=
  match it.work with
  | .replace src => !it.faulted && !s.slotLiveFor src it.lgn
  | .store _ _ => false
  | .fold _ _ => false
  | .clean _ => false

/-- Whether the open an item needs is a host open (R66). -/
def hostOpen (x : Stream) (it : Item) : Bool := it.work.isStore && x.recovery.isNone

/-- Work on a stream's head until a run is queued, an open is waited for, or the FIFO is empty: opens are asked (R66),
refused STOREs are handed back, stale re-placements are dropped (R67). A machinery open waits while the pool is empty,
and behind the opens that wait already: a band that joins the pool goes to the oldest of them (R26). A re-placement is
checked each time it is to be placed, a second time too where its run was aborted (DESIGN CHOICE, log entry 37). While
the port is DOWN nothing is placed (R76). A faulted STORE of an earlier recovery that is handed back for PRESSURE has
left the FIFO: it counts as left for that recovery, and comes back as an item of none (DESIGN CHOICE, log entry 58).
Each round takes an item off the FIFO or grants the open, so `fuel` of two more than the items is never used up. -/
def State.pumpFor (s : State) (n : Fin 9) : (fuel : Nat) → State
  | 0 => s
  | fuel + 1 =>
    let x := s.stream n
    if x.writing.isSome || x.openPending then s
    else match x.fifo with
    | [] => s
    | it :: rest =>
      match x.openBand with
      | none =>
        if hostOpen x it && (s.btu.pressure || decide (s.freeCount = 0)) then
          let s := s.updStream n fun x => { x with fifo := rest }
          let s := match it.work.tag with
            | some t => s.hold t .pressure
            | none => s
          s.pumpFor n fuel
        else if s.freeCount = 0 ∨ s.btu.openWait ≠ [] then
          let s := s.updStream n fun x => { x with openPending := true }
          { s with btu := { s.btu with openWait := s.btu.openWait ++ [n] } }
        else (s.grantOpen n).pumpFor n fuel
      | some b =>
        if !s.mpt.up then s
        else if s.stale it then (s.dropHead n).pumpFor n fuel
        else (s.updStream n fun x => { x with writing := some (slotsBehind (s.frontier b)) }).queueRun n

/-- A stream goes on with its head, the notices of recoveries that end in it still to come. -/
def State.goOn (s : State) (n : Fin 9) : State := s.pumpFor n ((s.stream n).fifo.length + 2)

/-- Work on a stream's head (R66 to R68). The WRITE_FAULT notices of recoveries that end in it are raised after it, an
open it asks for included: a DESIGN CHOICE of the model, log entry 53. -/
def State.pump (s : State) (n : Fin 9) : State := (s.goOn n).raiseEnded s.recoveries

/-- Work on every stream's head, in ascending stream number: which of them asks first at a RESET or as the port goes
DOWN or comes UP is the model's choice (DESIGN CHOICE, log entry 19). The recoveries that end in it are told after all
of it (R82; log entry 53). -/
def State.pumpAll (s : State) : State := (allStreams.foldl State.goOn s).raiseEnded s.recoveries

/-- Items join the tail of a stream's FIFO (R65). -/
def State.enqueue (s : State) (n : Fin 9) (items : List Item) : State :=
  (s.updStream n fun x => { x with fifo := x.fifo ++ items }).pump n

/-- The SWR takes a whole-granule STORE: it joins its stream's FIFO, or is answered MEDIA_DOWN while the port is DOWN
(R65). -/
def State.takeStore (s : State) (e : Entry) : State :=
  if s.mpt.up then
    s.enqueue (streamOf e.stream)
      [{ work := .store e.tag (e.sequence.getD 0), lgn := (e.lgns.getD (0, 0)).1, content := e.buffer }]
  else s.finish e.tag .mediaDown []

/-! ### Frontier, exposure and closes (R69 to R72, R77) -/

/-- The exposed set after releases judged at completed-track count `k` (R11, R77). -/
def Stream.release (x : Stream) (g : BandGeo) (k : Nat) : Stream :=
  { x with exposed := x.exposed.filter fun e => staysExposed g k e.slot }

/-- The frontier of a stream's band moves to `f`: reported to the BTU, with releases judged on the new K unless the
advance precedes a write fault (R10, R11, R69, R79). -/
def State.moveFrontier (s : State) (n : Fin 9) (b f : Nat) (verdict : Option Slot) (release : Bool) : State :=
  let s := s.frontierReport b f verdict
  let g := s.geo b
  if release then s.updStream n fun x => x.release g (completedTracks g.spt f) else s

/-- The close for CAPACITY where the frontier has reached 16 × C (R71): the exposed set is released whole. -/
def State.capacityClose (s : State) (n : Fin 9) (b : Nat) : State :=
  if 16 * (s.geo b).cap ≤ s.frontier b then
    (s.updStream n fun x => { x with exposed := [], openBand := none }).closeBand b .capacity
  else s

/-- The items a write fault makes (R80): one re-placement for each exposed slot, then the faulted item, then the rest.
-/
def faultedFifo (x : Stream) (r : Recovery) : List Item :=
  x.exposed.map (fun e => { work := .replace ⟨r.band, e.slot⟩, lgn := e.lgn, content := e.content, recoveries := [r] })
    ++ match x.fifo with
      | it :: rest => { it with faulted := true, recoveries := it.recoveries ++ [r] } :: rest
      | [] => []

/-- A write fault with `d` sectors of the run done (R79, R80). -/
def State.writeFault (s : State) (n : Fin 9) (d : Nat) : State :=
  let x := s.stream n
  match x.openBand, x.writing with
  | some b, some w =>
    let s := s.moveFrontier n b (min (s.frontier b + d) (16 * w + 15)) none false
    let s := s.closeBand b .fault
    let r : Recovery := ⟨s.swr.faultSerial, b⟩
    let s := { s with swr := { s.swr with faultSerial := s.swr.faultSerial + 1 } }
    let s := s.updStream n fun x =>
      { x with fifo := faultedFifo x r, exposed := [], openBand := none, recovery := some r, writing := none }
    s.pump n
  | _, _ => s

/-- The end of a run by an abort with `d` sectors done (R74): a slot touched stays TORN and F is rounded up. -/
def State.abortRound (s : State) (n : Fin 9) (d : Nat) : State :=
  let x := s.stream n
  match x.openBand, x.writing with
  | some b, some w =>
    let k := s.frontier b - 16 * w + d
    let s :=
      if k = 0 then s
      else
        let s := s.moveFrontier n b (16 * w + min k 15) none true
        (s.moveFrontier n b (16 * (w + 1)) none true).capacityClose n b
    s.updStream n fun x => { x with writing := none }
  | _, _ => s

/-- Whether the SWR is idle (R84). -/
def State.swrIdle (s : State) : Bool :=
  allStreams.all fun n =>
    (s.stream n).fifo.isEmpty && (s.stream n).writing.isNone && !(s.stream n).openPending

end Sys2Proof.Machine
end

