-- ==== Sys2Proof/Machine/Staging.lean ====
section
/-!
DEFINITION. Machine/Staging.lean: the Staging Log Unit (Chapter 5): admission of partial STOREs, staged writes and their
outcomes, the fold engine's choice, reads, merge and end.
-/

namespace Sys2Proof.Machine

/-! ### Staged writes (R90 to R95) -/

/-- Queue a record's write run starting at sector `off` of its span (R92). -/
def State.queueStaged (s : State) (p tag off : Nat) : State :=
  match s.record? p with
  | some r =>
    match cutLog s.slu.area (p + off) (r.len - off) with
    | q :: _ => s.handOver
        { id := 0, cls := .write, isWrite := true, target := .staging, track := s.slu.area.firstTrack + q.track,
          first := q.sector, count := q.count, place := off, origin := .staged p, tag := some tag }
    | [] => s
  | none => s

/-- A record joins the directory at the tail, WRITING, is reported to the GMU and its first run is queued (R45, R92,
R94). -/
def State.appendRecord (s : State) (tag lgn first count sequence stream : Nat) (prev : Option Nat) (again : Bool) :
    State :=
  let p := s.slu.tail
  let r : Record :=
    { pos := p, len := count + 1, lgn := lgn, first := first, count := count, sequence := sequence, stream := stream,
      prev := prev }
  let l := s.slu
  let s := { s with slu := { l with
    dir := l.dir ++ [r], tail := (p + r.len) % areaCap l.area, used := l.used + r.len
    writes := l.writes ++ [({ pos := p, tag := tag, again := again } : StagedWrite)] } }
  let e := s.entryOf lgn
  (s.setEntryOf lgn { e with overlays := e.overlays + 1, newest := some p }).queueStaged p tag 0

/-- Whether a record of `len` sectors may be admitted (R91). -/
def Slu.admits (l : Slu) (len : Nat) : Bool :=
  !l.logHeld && decide (l.used + len ≤ softLimit l.area) && decide (l.dir.length < Config.dirSoftLimit)

/-- A partial STORE judged for admission (R91, R92): a record, or hold with LOG_FULL. -/
def State.judgeAdmission (s : State) (e : Entry) : State :=
  let lgn := (e.lgns.getD (0, 0)).1
  let range := e.range.getD (0, 0)
  if s.slu.admits (range.2 + 1) then
    s.appendRecord e.tag lgn range.1 range.2 (e.sequence.getD 0) e.stream (s.entryOf lgn).newest false
  else
    (({ s with slu := { s.slu with logHeld := true } }).raise .logFull s.slu.used).hold e.tag .log

/-- The SLU takes a partial STORE (R90). -/
def State.takePartial (s : State) (e : Entry) : State :=
  let lgn := (e.lgns.getD (0, 0)).1
  if !s.mpt.up then s.finish e.tag .mediaDown []
  else if Config.overlayLimit ≤ (s.entryOf lgn).overlays then
    { s with slu := { s.slu with overlayWait := s.slu.overlayWait ++ [e.tag] } }
  else s.judgeAdmission e

/-- A STORE of the overlay wait list looked at again at the end of a fold (R90). -/
def State.rejudgeOverlay (s : State) (tag : Nat) : State :=
  match s.entry? tag with
  | some e =>
    if (s.entryOf (e.lgns.getD (0, 0)).1).overlays < Config.overlayLimit then
      ({ s with slu := { s.slu with overlayWait := s.slu.overlayWait.filter fun t => decide (t ≠ tag) } }).judgeAdmission e
    else s
  | none => s

/-- Every STORE of the overlay wait list looked at again, oldest first (R90). -/
def State.rejudgeOverlays (s : State) : State := s.slu.overlayWait.foldl State.rejudgeOverlay s

/-- The staged write of a record, if its STORE is in progress. -/
def State.stagedWrite? (s : State) (p : Nat) : Option StagedWrite := s.slu.writes.find? fun w => decide (w.pos = p)

/-- A record's STORE is no longer in progress on it. -/
def State.dropWrite (s : State) (p : Nat) : State :=
  { s with slu := { s.slu with writes := s.slu.writes.filter fun w => decide (w.pos ≠ p) } }

/-- The DONE fields of a STORE (R169, R195). -/
def Entry.storeFields (e : Entry) : List Field :=
  let r := e.range.getD (0, 0)
  [.num 1 r.1, .num 1 r.2, .num 2 0, .num 8 (e.sequence.getD 0)]

/-- A STORE ends DONE (R70, R93). -/
def State.storeDone (s : State) (tag : Nat) : State :=
  match s.entry? tag with
  | some e => s.finish tag .done e.storeFields
  | none => s

/-- A staged write run written whole up to sector `next` of the record's span (R93): the next run, or the record LIVE
and the STORE DONE. -/
def State.stagedAdvance (s : State) (p next : Nat) : State :=
  match s.record? p, s.stagedWrite? p with
  | some r, some w =>
    if next < r.len then s.queueStaged p w.tag next
    else
      ((s.updRecord p fun r => { r with state := .live }).dropWrite p).storeDone w.tag
  | _, _ => s

/-- A staged write fault (R94): the record is DEAD; a first record is appended again if there is room, else the STORE
ends WRITE_FAILED. The head advance and the log-held judgement that the death brings (R97, R98) come before the room
check and the re-append (DESIGN CHOICE, log entry 38). -/
def State.stagedFault (s : State) (p : Nat) : State :=
  match s.record? p, s.stagedWrite? p with
  | some r, some w =>
    let s := (s.dropWrite p).makeDead p
    if !w.again && decide (s.slu.used + r.len ≤ areaCap s.slu.area)
        && decide (s.slu.dir.length < Config.dirCapacity) then
      s.appendRecord w.tag r.lgn r.first r.count r.sequence r.stream r.prev true
    else s.finish w.tag .writeFailed []
  | _, _ => s

/-- A staged write failed by the port going DOWN (R95). -/
def State.stagedDown (s : State) (p : Nat) : State :=
  match s.stagedWrite? p with
  | some w => ((s.dropWrite p).makeDead p).finish w.tag .mediaDown []
  | none => s

/-! ### The fold engine (R99 to R106) -/

/-- The sector indices a range covers. -/
def rangeIndices (first count : Nat) : List Nat := (List.range count).map (first + ·)

/-- Whether an index lies in a range. -/
def inRange (first count j : Nat) : Bool := decide (first ≤ j) && decide (j < first + count)

/-- The granule a standing cause folds, if one stands (R100). -/
def State.foldCause (s : State) : Option Nat :=
  let nearest := (s.slu.dir.find? fun r => decide (r.state = .live)).map Record.lgn
  let online := decide (s.ctl.mode = .online)
  let working := online || decide (s.ctl.mode = .quiescing)
  if s.slu.fold.isSome || !s.mpt.up || !working then none
  else match s.slu.overlayWait with
  | t :: _ => (s.entry? t).map fun e => (e.lgns.getD (0, 0)).1
  | [] =>
    if !s.slu.foldReqs.isEmpty then nearest
    else if online && (decide (foldStart s.slu.area ≤ s.slu.used) || decide (Config.dirFoldStart ≤ s.slu.dir.length))
    then nearest else none

/-- Maximal runs of consecutive indices among those of `js` (ascending), each as (first, length). -/
def consecutive : List Nat → List (Nat × Nat)
  | [] => []
  | j :: js =>
    match consecutive js with
    | (k, n) :: rest => if k = j + 1 then (j, n + 1) :: rest else (j, 1) :: (k, n) :: rest
    | [] => [(j, 1)]

/-- The read runs of a record's sectors from `off` for `n` (R49, R86, R102): place `place` in the reader's buffer. -/
def State.recordRuns (s : State) (p off n place : Nat) (cls : Cls) (origin : Origin) (tag : Option Nat) :
    List MediaOp :=
  (cutLog s.slu.area (p + off) n).map fun q =>
    { id := 0, cls := cls, isWrite := false, target := .staging, track := s.slu.area.firstTrack + q.track,
      first := q.sector, count := q.count, place := place + q.offset, origin := origin, tag := tag }

/-- The read runs of sector indices `j` to `j + n - 1` of a home copy (R8, R49, R102, R119). -/
def State.homeRuns (s : State) (h : Home) (j n : Nat) (cls : Cls) (origin : Origin) (tag : Option Nat) :
    List MediaOp :=
  let g := s.geo h.band
  (cutSpan g.spt (16 * h.slot + j) n).map fun q =>
    { id := 0, cls := cls, isWrite := false, target := .band h.band, track := g.track0 + q.track,
      first := q.sector, count := q.count, place := j + q.offset, origin := origin, tag := tag }

/-- The highest sequence among records, with its record's stream (R99). -/
def newestOf (rs : List Record) : Nat × Nat :=
  rs.foldl (fun m r => if m.1 < r.sequence then (r.sequence, r.stream) else m) (0, 0)

/-- The runs a fold reads: its records in log order, then the uncovered sectors of the home (R102). -/
def State.foldRuns (s : State) (rs : List Record) (uncovered : List Nat) (home : Option Home) :
    List (List MediaOp) × List MediaOp :=
  (rs.map fun r => s.recordRuns r.pos 0 r.len 0 .fold (.foldRecord r.pos) none,
   match home with
   | some h => ((consecutive uncovered).map fun (j, n) => s.homeRuns h j n .fold .foldHome none).flatten
   | none => [])

/-- Build the fold record for a granule and queue its reads (R100, R102). The buffer set is one allocation (DESIGN
CHOICE, log entry 7). -/
def State.startFold (s : State) (lgn : Nat) : State :=
  let rs := s.slu.dir.filter fun r => decide (r.lgn = lgn) && decide (r.state = .live)
  if rs.isEmpty then s
  else
    let covered := (List.range 16).filter fun j => rs.any fun r => inRange r.first r.count j
    let uncovered := (List.range 16).filter fun j => !covered.contains j
    let home := if uncovered.isEmpty then none else (s.entryOf lgn).home
    let held := home.bind s.heldCopy
    let runs := s.foldRuns rs uncovered (if held.isSome then none else home)
    let fresh := freshBuffer s.residue
    let f : Fold :=
      { stage := .reading, lgn := lgn
        sources := (rs.zip runs.1).map fun (r, ops) =>
          { pos := r.pos, len := r.len, first := r.first, count := r.count, sequence := r.sequence,
            left := ops.length, buffer := fresh }
        generation := (newestOf rs).1, target := streamOf (newestOf rs).2, covered := covered
        homeSource := match home, held with
          | none, _ => .none
          | some _, some _ => .held
          | some h, none => .slot h
        homeBuffer := match held with
          | some g => copySectors g fresh uncovered
          | none => fresh
        homeLeft := runs.2.length }
    (({ s with slu := { s.slu with fold := some f } }).takeBuffer).handOverAll (runs.1.flatten ++ runs.2)

/-- Count the end of a fold toward the oldest FOLD request; at its n-th the request is replied DONE (R101, R106). -/
def State.countFold (s : State) (f : FoldReq → FoldReq) : State :=
  match s.slu.foldReqs with
  | q :: rest =>
    let q := f q
    if q.count ≤ q.accepted + q.rejected + q.abandoned then
      ({ s with slu := { s.slu with foldReqs := rest } }).finish q.tag .done (q.fields (!s.anyLiveRecord))
    else { s with slu := { s.slu with foldReqs := q :: rest } }
  | [] => s

/-- A fold ends ACCEPTED, REJECTED or ABANDONED: the engine is IDLE, the end is counted, and both waiting lists are
judged (R106). The requests are counted and replied before the waiting STOREs are looked at (DESIGN CHOICE, log entry
39). The next fold, if one is due, is FOLD_CHOICE. -/
def State.foldEnd (s : State) (f : FoldReq → FoldReq) : State :=
  ((({ s with slu := { s.slu with fold := none } }).countFold f).judgeFoldReqs).rejudgeOverlays

/-- The fold's proposal was judged (R105, R106). -/
def State.foldPlaced (s : State) (v : Verdict) : State :=
  match v with
  | .accepted => s.foldEnd fun q => { q with accepted := q.accepted + 1 }
  | .rejected => s.foldEnd fun q => { q with rejected := q.rejected + 1 }

/-- The source of a merged sector: the record with the highest sequence whose range has the index (R104). -/
def bestSource (sources : List FoldSource) (j : Nat) : Option FoldSource :=
  sources.foldl (fun best x =>
    if inRange x.first x.count j then
      match best with
      | some b => if b.sequence < x.sequence then some x else some b
      | none => some x
    else best) none

/-- One sector of the merged granule (R104). -/
def Fold.mergedSector (f : Fold) (j : Nat) : Sector :=
  match bestSource f.sources j with
  | some x => granuleGet x.buffer (1 + j - x.first)
  | none => match f.homeSource with
    | .none => zeroSector
    | .held => granuleGet f.homeBuffer j
    | .slot _ => granuleGet f.homeBuffer j

/-- The merged granule (R104). -/
def Fold.mergedGranule (f : Fold) : Granule := Vector.ofFn fun j : Fin 16 => f.mergedSector j.val

/-- Merge and hand the FOLD item to the SWR (R104, R105). -/
def State.mergeFold (s : State) (f : Fold) : State :=
  let g := f.mergedGranule
  let s := { s with slu := { s.slu with fold := some { f with stage := .writing, merged := some g } } }
  s.enqueue f.target
    [{ work := .fold f.generation (f.sources.map FoldSource.pos), lgn := f.lgn, content := g }]

/-- The runs of a fold still outstanding. -/
def Fold.left (f : Fold) : Nat := f.homeLeft + (f.sources.map FoldSource.left).sum

/-- The fold judged when its last run has ended (R103, R104). -/
def State.judgeFold (s : State) (f : Fold) : State :=
  if f.left ≠ 0 then s
  else if f.failures.isEmpty then s.mergeFold f
  else if f.failures.all (fun x => decide (x = .homeUnrecovered)) && (s.entryOf f.lgn).lost
      && (s.entryOf f.lgn).home.isNone then
    s.mergeFold { f with homeSource := .none }
  else if f.failures.contains .portDown then { s with slu := { s.slu with fold := none } }
  else s.foldEnd fun q => { q with abandoned := q.abandoned + 1 }

/-- Replace the fold record and judge it. -/
def State.setFold (s : State) (f : Fold) : State :=
  ({ s with slu := { s.slu with fold := some f } }).judgeFold f

/-- A failure recorded once. -/
def Fold.fail (f : Fold) (x : FoldFailure) : Fold :=
  { f with failures := if f.failures.contains x then f.failures else f.failures ++ [x] }

/-- Change the source of a fold at a record position. -/
def Fold.updSource (f : Fold) (p : Nat) (g : FoldSource → FoldSource) : Fold :=
  { f with sources := f.sources.map fun x => if x.pos = p then g x else x }

/-- The SLU gives a record up, if it is still LIVE (R103). -/
def State.giveUp (s : State) (p lgn : Nat) : State :=
  match s.record? p with
  | some r => if r.state = .live then (s.makeDead p).raise .granuleLost lgn else s
  | none => s

/-- A fold's record read lost: the record is given up and the failure recorded (R103). -/
def State.foldRecordLost (s : State) (f : Fold) (p : Nat) : State :=
  let f := (f.updSource p fun x => { x with left := x.left - 1, failed := true }).fail .recordGivenUp
  (s.giveUp p f.lgn).setFold f

/-- A fold's record run completed; with the record's last run its header is compared (R102, R201). -/
def State.foldRecordRead (s : State) (f : Fold) (p : Nat) : State :=
  match f.sources.find? fun x => decide (x.pos = p) with
  | some x =>
    if x.left ≤ 1 ∧ x.failed = false
        ∧ headerMatches (granuleGet x.buffer 0) f.lgn x.first x.count x.sequence = false then
      s.foldRecordLost f p
    else s.setFold (f.updSource p fun x => { x with left := x.left - 1 })
  | none => s

/-- A fold's record run ended without being served (R103). -/
def State.foldRecordUnserved (s : State) (f : Fold) (p : Nat) (x : FoldFailure) : State :=
  s.setFold ((f.updSource p fun y => { y with left := y.left - 1, failed := true }).fail x)

/-- A fold's home run ended, with the failure it met, if any (R103). -/
def State.foldHomeEnded (s : State) (f : Fold) (x : Option FoldFailure) : State :=
  let f := { f with homeLeft := f.homeLeft - 1 }
  s.setFold (match x with
    | some x => f.fail x
    | none => f)

/-- Whether a staged run is queued or in progress (R110). -/
def State.stagedRunOut (s : State) : Bool :=
  (s.har.allQueued ++ s.mpt.op.toList).any fun o => match o.origin with
    | .staged _ => true
    | .fetchBand => false
    | .fetchRecord _ => false
    | .stream _ => false
    | .foldRecord _ => false
    | .foldHome => false
    | .cleanRead _ => false
    | .qual => false

/-- Whether the SLU is idle (R110). -/
def State.sluIdle (s : State) : Bool :=
  !(s.slu.dir.any fun r => decide (r.state = .writing)) && !s.stagedRunOut && s.slu.fold.isNone
    && s.slu.overlayWait.isEmpty && s.slu.foldReqs.isEmpty

end Sys2Proof.Machine
end

