-- ==== Sys2Proof/Machine/Cleaner.lean ====
section
/-!
DEFINITION. Machine/Cleaner.lean: the Cleaning Engine and pacer (Chapter 6): victim choice, batches, the end of a walk,
the host CLEAN list, credits.
-/

namespace Sys2Proof.Machine

/-! ### The pacer (R126) -/

/-- The largest number of credits (R125). -/
def creditLimit : Nat := 8

/-- One decrease of the pacer's count; at 0 it underflows: a credit, saturating at 8, and the count reloaded (R126). -/
def Pacer.countDown (p : Pacer) : Pacer :=
  if p.count ≤ 1 then { p with credits := min (p.credits + 1) creditLimit, count := p.reload }
  else { p with count := p.count - 1 }

/-- A decrease in the given mode, if the pacer is RUN in it (R126). -/
def Pacer.decrease (p : Pacer) (m : PacerMode) : Pacer :=
  if p.running = true ∧ p.mode = m then p.countDown else p

/-- One placed granule reported to the pacer (R70, R126). -/
def State.placedGranule (s : State) : State :=
  { s with cle := { s.cle with pacer := s.cle.pacer.decrease .event } }

/-! ### The end of a victim (R123, R128) -/

/-- Set the cleaner's stage. -/
def State.setStage (s : State) (g : CleanStage) : State := { s with cle := { s.cle with stage := g } }

/-- Replace the victim record. -/
def State.setVictim (s : State) (v : Victim) : State := { s with cle := { s.cle with victim := some v } }

/-- The DONE fields of a CLEAN request (R123, R196). -/
def Victim.fields (v : Victim) (after : BandState) : List Field :=
  [.num 4 v.band, .num 1 after.code, .num 3 0, .num 2 v.accepted, .num 2 v.rejected, .num 2 v.lost, .num 2 v.skipped]

/-- The end of a victim whose band is left in state `after` (R123): a CLEAN request that named it is replied DONE and
leaves the host CLEAN list. The next choice is VICTIM_CHOICE. -/
def State.victimEnd (s : State) (v : Victim) (after : BandState) : State :=
  let s := { s with cle := { s.cle with stage := .idle, victim := none } }
  match v.tag with
  | some t =>
    ({ s with cle := { s.cle with hostList := s.cle.hostList.filter fun e => decide (e.1 ≠ t) } }).finish t .done
      (v.fields after)
  | none => s

/-- The walk reached the frontier slot (R32, R123). -/
def State.walkEnd (s : State) (v : Victim) : State :=
  match s.band? v.band with
  | some bd =>
    if bd.live = 0 then (s.setVictim v).setStage .waitReset
    else ((s.leaveCleaning v.band true).raise .cleanBlocked v.band).victimEnd v .full
  | none => s

/-! ### Batches (R118 to R122) -/

/-- What gathering found: the slots gathered with their LGNs, the cursor after it, the slots skipped (R118). -/
structure Gathered where
  slots : List (Nat × Nat)
  cursor : Nat
  skipped : Nat
  deriving DecidableEq, Repr

/-- Gather from the slot entries at and after the cursor, up to `room` more slots (R118). -/
def State.gather (s : State) : (room cursor : Nat) → List Slot → Gathered
  | _, cursor, [] => ⟨[], cursor, 0⟩
  | 0, cursor, _ :: _ => ⟨[], cursor, 0⟩
  | room + 1, cursor, e :: es =>
    match e with
    | .live lgn =>
      if s.inHoldWindow lgn then
        let g := s.gather (room + 1) (cursor + 1) es
        { g with skipped := g.skipped + 1 }
      else
        let g := s.gather room (cursor + 1) es
        { g with slots := (cursor, lgn) :: g.slots }
    | .dead => s.gather (room + 1) (cursor + 1) es
    | .torn => s.gather (room + 1) (cursor + 1) es

/-- The read runs of a victim slot (R119). -/
def State.cleanRuns (s : State) (band slot : Nat) : List MediaOp :=
  s.homeRuns ⟨band, slot⟩ 0 16 .clean (.cleanRead slot) none

/-- A batch entry for a gathered slot: READ from a retained copy, else READING (R119). -/
def State.newEntry (s : State) (band : Nat) (g : Nat × Nat) : BatchEntry :=
  match s.heldCopy ⟨band, g.1⟩ with
  | some c => { slot := g.1, lgn := g.2, buffer := c, state := .read, left := 0 }
  | none =>
    { slot := g.1, lgn := g.2, buffer := freshBuffer s.residue, state := .reading,
      left := (s.cleanRuns band g.1).length }

/-- The CLEAN item of a batch entry (R121). -/
def BatchEntry.item (e : BatchEntry) (band : Nat) : Item :=
  { work := .clean ⟨band, e.slot⟩, lgn := e.lgn, content := e.buffer }

/-- Hand over every READ entry that no lower entry holds back: the batch after it, and the items (R121). -/
def handReady (band : Nat) : List BatchEntry → List BatchEntry × List Item
  | [] => ([], [])
  | e :: es =>
    match e.state with
    | .read => ({ e with state := .handed } :: (handReady band es).1, e.item band :: (handReady band es).2)
    | .handed => (e :: (handReady band es).1, (handReady band es).2)
    | .ended => (e :: (handReady band es).1, (handReady band es).2)
    | .reading => (e :: es, [])
    | .down => (e :: es, [])

/-- Hand the READ entries of the batch that may go to stream 8 (R121). -/
def State.handBatch (s : State) : State :=
  match s.cle.victim with
  | some v =>
    let h := handReady v.band v.batch
    (s.setVictim { v with batch := h.1 }).enqueue relocation h.2
  | none => s

/-- Whether the next batch of the victim would be paced (R118). -/
def State.paced (s : State) (v : Victim) : Bool :=
  !s.btu.pressure && decide (v.origin ≠ .host) && s.cle.hostList.isEmpty

/-- Gather a batch and start its reads, or end the walk (R118, R119). The cleaning buffers of one batch are one
allocation and hold the same free values before their reads (DESIGN CHOICE, log entry 7). The read runs join their queue
before the entries READ from retention are handed to stream 8, whose write run may join the same queue (R119, R121): a
DESIGN CHOICE of the model, log entry 54. -/
def State.gatherBatch (s : State) (v : Victim) (bd : Band) : State :=
  let g := s.gather Config.batchLimit v.cursor (bd.slots.drop v.cursor)
  let v := { v with cursor := g.cursor, skipped := v.skipped + g.skipped }
  if g.slots.isEmpty then s.walkEnd v
  else
    let es := g.slots.map (s.newEntry v.band)
    let runs := ((es.filter fun e => decide (e.state = .reading)).map fun e => s.cleanRuns v.band e.slot).flatten
    let s := ((s.setVictim { v with batch := es }).setStage .batch).takeBuffer
    (s.handOverAll runs).handBatch

/-- Start the next batch of a walk that may proceed: end the walk at the frontier slot, wait for a credit, or gather
(R118). -/
def State.startBatch (s : State) : State :=
  match s.cle.victim with
  | some v =>
    match s.band? v.band with
    | some bd =>
      if bd.slots.length ≤ v.cursor then s.walkEnd v
      else if s.paced v then
        if s.cle.pacer.credits = 0 then s.setStage .waitCredit
        else
          ({ s with cle := { s.cle with pacer :=
            { s.cle.pacer with credits := s.cle.pacer.credits - 1 } } }).gatherBatch v bd
      else s.gatherBatch v bd
    | none => s
  | none => s

/-- Whether a walk between batches may proceed (R129, R130). -/
def State.walkMayProceed (s : State) : Bool :=
  s.mpt.up && match s.ctl.mode with
    | .online => true
    | .quiescing => match s.cle.victim with
      | some v => decide (v.origin = .host) || !s.cle.hostList.isEmpty
      | none => false
    | .quiesced => false
    | .unformatted => false

/-- A batch ends when its last entry is ENDED (R122). -/
def State.judgeBatch (s : State) : State :=
  match s.cle.victim with
  | some v =>
    if s.cle.stage = .batch ∧ (v.batch.all fun e => decide (e.state = .ended)) = true then
      let v := { v with batch := [] }
      let s := s.setVictim v
      if ((s.band? v.band).map fun bd => bd.slots.length).getD 0 ≤ v.cursor then s.walkEnd v
      else if s.walkMayProceed then s.startBatch
      else s.setStage .halted
    else s
  | none => s

/-- Change the batch entry of a slot. -/
def Victim.updEntry (v : Victim) (slot : Nat) (f : BatchEntry → BatchEntry) : Victim :=
  { v with batch := v.batch.map fun e => if e.slot = slot then f e else e }

/-- A copy handed to stream 8 was judged by the GMU (R121). -/
def State.copyPlaced (s : State) (src : Home) (verdict : Verdict) : State :=
  match s.cle.victim with
  | some v =>
    if v.band = src.band then
      let v := v.updEntry src.slot fun e => { e with state := .ended }
      let v := match verdict with
        | .accepted => { v with accepted := v.accepted + 1 }
        | .rejected => { v with rejected := v.rejected + 1 }
      (s.setVictim v).judgeBatch
    else s
  | none => s

/-- A batch entry one of whose runs has ended: what it is once no run of it is outstanding (R119, R120). -/
def BatchEntry.settle (e : BatchEntry) : BatchEntry :=
  if e.left ≠ 0 then e
  else if !e.redo.isEmpty then { e with state := .down }
  else if e.unrecovered then { e with state := .ended }
  else { e with state := .read }

/-- The entry of a slot after one of its runs ended: the entry changed and settled, lost counted (R120), copies handed
over (R121), the batch judged (R122). -/
def State.cleanRunEnded (s : State) (slot : Nat) (f : BatchEntry → BatchEntry) : State :=
  match s.cle.victim with
  | some v =>
    match v.batch.find? fun e => decide (e.slot = slot) with
    | some e =>
      let e' := (f { e with left := e.left - 1 }).settle
      let v := v.updEntry slot fun _ => e'
      let v := if e'.state = .ended then { v with lost := v.lost + 1 } else v
      ((s.setVictim v).handBatch).judgeBatch
    | none => s
  | none => s

/-- A cleaning read ended UNRECOVERED (R57, R120). -/
def State.cleanReadLost (s : State) (slot : Nat) : State :=
  match s.cle.victim with
  | some v =>
    let lgn := ((v.batch.find? fun e => decide (e.slot = slot)).map BatchEntry.lgn).getD 0
    (s.lostReport lgn ⟨v.band, slot⟩).cleanRunEnded slot fun e => { e with unrecovered := true }
  | none => s

/-- A cleaning read failed by the port going DOWN (R120, R129). Only the runs reported MEDIA_DOWN are noted for the
port's coming UP; a run of the entry that had ended UNRECOVERED before the DOWN is not read again: a DESIGN CHOICE of the
model, log entry 60. -/
def State.cleanReadDown (s : State) (slot place count : Nat) : State :=
  match s.cle.victim with
  | some v => s.setVictim (v.updEntry slot fun e =>
      { e with left := e.left - 1, redo := e.redo ++ [(place, count)], state := .down })
  | none => s

/-- The DOWN entries of a batch re-issue the runs that did not complete (R120, R129): the entries in ascending slot
order and, within one, the runs in the order in which they were reported failed, a DESIGN CHOICE of the model, log
entry 47. -/
def State.reissueBatch (s : State) : State :=
  match s.cle.victim with
  | some v =>
    let downs := v.batch.filter fun e => decide (e.state = .down)
    let runs := (downs.map fun e => (e.redo.map fun (place, count) =>
      s.homeRuns ⟨v.band, e.slot⟩ place count .clean (.cleanRead e.slot) none).flatten).flatten
    let v := { v with batch := v.batch.map fun e =>
      if e.state = .down then { e with state := .reading, left := e.left + e.redo.length, redo := [] } else e }
    (s.setVictim v).handOverAll runs
  | none => s

/-! ### Choosing a victim (R113 to R117) -/

/-- The refresh candidate (R115). -/
def State.refreshCandidate (s : State) : Option Nat :=
  s.btu.refresh.find? fun b => match s.band? b with
    | some bd => decide (bd.state = .full)
    | none => false

/-- Whether a band is a scored candidate (R116). -/
def State.scoredOk (s : State) (bd : Band) : Bool :=
  let r := reclaimRatio (s.geo bd.number).cap bd.live
  decide (bd.state = .full) && !bd.holdBlocked
    && (if s.btu.pressure then decide (0 < r) else decide (s.cle.threshold ≤ r))

/-- Whether band `a` ranks above band `b`: higher ratio, then lower close order, then lower number (R116). -/
def State.ranksAbove (s : State) (a b : Band) : Bool :=
  let ra := reclaimRatio (s.geo a.number).cap a.live
  let rb := reclaimRatio (s.geo b.number).cap b.live
  decide (rb < ra) || (decide (ra = rb) && (decide (a.closeOrder.getD 0 < b.closeOrder.getD 0)
    || (decide (a.closeOrder.getD 0 = b.closeOrder.getD 0) && decide (a.number < b.number))))

/-- The scored candidate (R116). -/
def State.scoredCandidate (s : State) : Option Nat :=
  ((s.btu.bands.filter s.scoredOk).foldl (fun best bd =>
    match best with
    | some x => if s.ranksAbove bd x then some bd else some x
    | none => some bd) none).map Band.number

/-- Take a FULL band as the victim and start its walk (R31, R117, R118). -/
def State.takeVictim (s : State) (b : Nat) (origin : VictimOrigin) (tag : Option Nat) : State :=
  ((s.enterCleaning b).setVictim { band := b, origin := origin, tag := tag }).startBatch

/-- The refresh and scored sources (R114): a victim, or CLEAN_BLOCKED under PRESSURE. -/
def State.ownChoice (s : State) (allowed : Bool) : State :=
  let credit := allowed && (s.btu.pressure || decide (1 ≤ s.cle.pacer.credits))
  match (if credit then s.refreshCandidate else none), (if credit then s.scoredCandidate else none) with
  | some b, _ => s.takeVictim b .refresh none
  | none, some b => s.takeVictim b .scored none
  | none, none => if s.btu.pressure then s.raise .cleanBlocked 0xFFFFFFFF else s

/-- A choice (R114, R117): the oldest request of the host CLEAN list, requests whose band is not FULL being replied
WRONG_STATE, then the CLE's own sources. -/
def State.choose (s : State) (own : Bool) : List (Nat × Nat) → State
  | [] => s.ownChoice own
  | (t, b) :: rest =>
    match s.band? b with
    | some bd =>
      if bd.state = .full then s.takeVictim b .host (some t)
      else ((({ s with cle := { s.cle with hostList := rest } }).finish t .wrongState [])).choose own rest
    | none => (({ s with cle := { s.cle with hostList := rest } }).finish t .wrongState []).choose own rest

/-- The victim band, if it is pending reset with no reader left (R33). -/
def State.pendingReset (s : State) : Option (Victim × Band) :=
  if s.cle.stage = .waitReset then
    match s.cle.victim with
    | some v => match s.band? v.band with
      | some bd => if bd.state = .cleaning ∧ bd.readers = 0 then some (v, bd) else none
      | none => none
    | none => none
  else none

/-- Whether the CLE is idle (R130). -/
def State.cleIdle (s : State) : Bool :=
  decide (s.cle.stage ≠ .batch) && s.cle.hostList.isEmpty
    && !(decide (s.cle.stage = .waitReset) && match s.cle.victim with
      | some v => decide (v.origin = .host)
      | none => false)

end Sys2Proof.Machine
end

