-- ==== Sys2Proof/Machine/Qualify.lean ====
section
/-!
DEFINITION. Machine/Qualify.lean: the Qualification Engine (Chapter 7): the test pattern, the write and read-back passes,
grading, the end of a qualification and stopping.
-/

namespace Sys2Proof.Machine

/-! ### The test pattern (R135) -/

/-- One step of the shift generator (R135). -/
def lfsrStep (x : BitVec 32) : BitVec 32 := (x <<< 1) ||| (((x >>> 31) ^^^ (x >>> 28)) &&& 1#32)

/-- The next word: the state after 32 further steps (R135). -/
def lfsrWord (x : BitVec 32) : BitVec 32 := Nat.repeat lfsrStep 32 x

/-- The seed of a track (R135). -/
def patternSeed (band track : Nat) : BitVec 32 := BitVec.ofNat 32 (band * 65536 + track + 1)

/-- `n` words after state `x`, least significant byte first, and the state after them (R135). -/
def patternWords : (n : Nat) → BitVec 32 → List Byte × BitVec 32
  | 0, x => ([], x)
  | n + 1, x =>
    let y := lfsrWord x
    let r := patternWords n y
    (leBytes 4 y.toNat ++ r.1, r.2)

/-- The next `n` sectors after state `x`, 1,024 words each (R135). -/
def patternSectors : (n : Nat) → BitVec 32 → List Sector
  | 0, _ => []
  | n + 1, x => (patternWords 1024 x).1 :: patternSectors n (patternWords 1024 x).2

/-- The pattern of a track of `spt` sectors (R135). -/
def trackPattern (band track spt : Nat) : List Sector := patternSectors spt (patternSeed band track)

/-! ### The qualification record -/

/-- Replace the qualification record. -/
def State.setQual (s : State) (q : Qual) : State := { s with qen := { s.qen with qual := some q } }

/-- Add error sectors, saturating at 65,535 (R133, R137). -/
def Qual.addErrors (q : Qual) (n : Nat) : Qual := { q with errors := min (q.errors + n) 65535 }

/-- The last-result record a qualification would leave (R133, R138). -/
def Qual.result (q : Qual) (out : QualOutcome) : LastResult := ⟨q.band, q.errors, q.tracksDone, out⟩

/-- The DONE fields of a QUALIFY_STOP (R196). -/
def LastResult.fields (r : LastResult) : List Field :=
  [.num 4 r.band, .num 2 r.errors, .num 2 r.tracksDone, .num 1 r.outcome.code, .num 3 0]

/-- The engine becomes IDLE: the last-result record written, the record and the track buffer gone (R138, R140). -/
def State.qenIdle (s : State) (r : LastResult) : State :=
  { s with qen := { s.qen with last := some r, qual := none, buffer := [] } }

/-- The end of a qualification, in the order of R138. -/
def State.endQual (s : State) (q : Qual) (out : QualOutcome) : State :=
  let r := q.result out
  let s := { s with qen := { s.qen with last := some r } }
  let s := (s.endQualifying q.band out).raise .qualifyDone q.band
  let s := match q.stopTag with
    | some t => s.finish t .done r.fields
    | none => s
  s.qenIdle r

/-- Queue a run of the current track: it becomes the current run (R136, R137). -/
def State.queueQual (s : State) (q : Qual) (first count : Nat) : State :=
  (s.setQual { q with run := some (first, count) }).handOver
    { id := 0, cls := .qualify, isWrite := decide (q.pass = .write), target := .band q.band,
      track := (s.geo q.band).track0 + q.track, first := first, count := count, place := first, origin := .qual }

/-- Take the current track of the write pass (R136): the buffer is filled with its pattern and the whole track queued. -/
def State.startTrackWrite (s : State) (q : Qual) : State :=
  let spt := (s.geo q.band).spt
  ({ s with qen := { s.qen with buffer := trackPattern q.band q.track spt } }).queueQual q 0 spt

/-- The sectors of a track that the read pass reads (R137). -/
def Qual.span (q : Qual) (spt : Nat) : Nat :=
  match q.faults.find? fun e => decide (e.1 = q.track) with
  | some e => e.2
  | none => spt

/-- The grade (R138). -/
def Qual.grade (q : Qual) : QualOutcome := if q.errors ≤ q.threshold then .passed else .retired

/-- The record after the current track's write or read has ended. -/
def Qual.trackEnded (q : Qual) : Qual := { q with track := q.track + 1, tracksDone := q.tracksDone + 1, run := none }

/-- Take the current track of the read pass, `n` tracks remaining: a track with nothing to read ends at once (R137), and
after the last the qualification is graded (R138). -/
def State.startTrackRead (s : State) (q : Qual) : (n : Nat) → State
  | 0 => s.endQual { q with run := none } q.grade
  | n + 1 =>
    let u := q.span (s.geo q.band).spt
    if u = 0 then s.startTrackRead q.trackEnded n else s.queueQual q 0 u

/-- The write of the current track has ended (R136, R139). -/
def State.qualWriteEnded (s : State) (q : Qual) : State :=
  let tpb := (s.geo q.band).tpb
  let q' := q.trackEnded
  if q.stop then s.endQual q' .stopped
  else if q'.track < tpb then s.startTrackWrite q'
  else s.startTrackRead { q' with pass := .read, track := 0 } tpb

/-- The read of the current track has ended (R137, R139). -/
def State.qualReadEnded (s : State) (q : Qual) : State :=
  let q' := q.trackEnded
  if q.stop then s.endQual q' .stopped else s.startTrackRead q' ((s.geo q.band).tpb - q'.track)

/-- A further run of the current track is due, unless a stop is pending (R136, R137, R139). -/
def State.qualContinue (s : State) (q : Qual) (first count : Nat) : State :=
  if q.stop then s.endQual q .stopped else s.queueQual q first count

/-- Sectors of the track buffer, from `lo` for `n`, that differ from the track's pattern (R137). -/
def State.miscompares (s : State) (q : Qual) (lo n : Nat) : Nat :=
  let p := trackPattern q.band q.track (s.geo q.band).spt
  (((s.qen.buffer.drop lo).take n).zip ((p.drop lo).take n)).countP fun e => decide (e.1 ≠ e.2)

/-- The record after `n` delivered sectors from `lo` are compared (R137). -/
def State.compared (s : State) (q : Qual) (lo n : Nat) : Qual := q.addErrors (s.miscompares q lo n)

/-- A write fault that left the track unwritten from sector `u` on (R136). -/
def State.qualFault (s : State) (q : Qual) (u : Nat) : State :=
  s.qualWriteEnded ({ q with faults := q.faults ++ [(q.track, u)] }.addErrors ((s.geo q.band).spt - u))

/-- The QEN's write run ended (R136). STOPPED, whose remainder the media port has queued, makes it the current run. -/
def State.qualWriteOutcome (s : State) (q : Qual) (o : MediaOp) : Outcome → State
  | .complete => s.qualWriteEnded q
  | .stopped => s.setQual { q with run := some (o.first + o.sectorsDone, o.count - o.sectorsDone) }
  | .unrecovered => s.qualFault q (o.first + o.sectorsDone)
  | .writeFault true => s.qualFault q (o.first + o.sectorsDone)
  | .writeFault false => s.qualFault q o.first
  | .notServed _ =>
    if o.sectorsDone < o.count then s.qualContinue q (o.first + o.sectorsDone) (o.count - o.sectorsDone)
    else s.qualWriteEnded q
  | .mediaDown => s.endQual q .stopped
  | .aborted => s

/-- The QEN's read run ended without being served for a cause (R137). -/
def State.qualReadUnserved (s : State) (q : Qual) (o : MediaOp) : Cause → State
  | .servoLost => s.qualReadEnded ((s.compared q o.first o.sectorsDone).addErrors (o.count - o.sectorsDone))
  | .timedOut => s.qualReadEnded ((s.compared q o.first o.sectorsDone).addErrors (o.count - o.sectorsDone))
  | .abortUnanswered => s.qualReadEnded (q.addErrors o.count)
  | .noClaim => s.qualContinue q o.first o.count
  | .deferLimit => s.qualContinue q o.first o.count

/-- The QEN's read run ended (R137). -/
def State.qualReadOutcome (s : State) (q : Qual) (o : MediaOp) : Outcome → State
  | .complete => s.qualReadEnded (s.compared q o.first o.count)
  | .stopped => s.setQual { s.compared q o.first o.sectorsDone with
      run := some (o.first + o.sectorsDone, o.count - o.sectorsDone) }
  | .unrecovered =>
    let q := (s.compared q o.first o.sectorsDone).addErrors 1
    let next := o.first + o.sectorsDone + 1
    if next < o.first + o.count then s.qualContinue q next (o.first + o.count - next) else s.qualReadEnded q
  | .notServed c => s.qualReadUnserved q o c
  | .mediaDown => s.endQual q .stopped
  | .writeFault _ => s
  | .aborted => s

/-- The outcome of a QEN run (R136, R137). -/
def State.qualOutcome (s : State) (o : MediaOp) (out : Outcome) : State :=
  match s.qen.qual with
  | some q => if o.isWrite then s.qualWriteOutcome q o out else s.qualReadOutcome q o out
  | none => s

/-- Withdraw the QEN's queued run: it leaves the QUALIFY queue without a report (R139, R142). -/
def State.withdrawQual (s : State) : State := { s with har := s.har.setQueue .qualify [] }

/-- After a STOPPED outcome whose remainder has been queued: with a stop pending the remainder is withdrawn and the
qualification ends (R139). -/
def State.judgeQualStop (s : State) : State :=
  match s.qen.qual with
  | some q => if q.stop then s.withdrawQual.endQual q .stopped else s
  | none => s

/-- Whether the QEN's run is the operation in progress. -/
def State.qualInProgress (s : State) : Bool :=
  match s.mpt.op with
  | some o => decide (o.origin = .qual)
  | none => false

/-- Set stop pending, with a tag if a QUALIFY_STOP asks and none is carried, and judge the current run (R139). -/
def State.stopQual (s : State) (tag : Option Nat) : State :=
  match s.qen.qual with
  | some q =>
    let q := { q with stop := true, stopTag := match q.stopTag with
      | some t => some t
      | none => tag }
    if s.qualInProgress then s.setQual q else (s.withdrawQual.setQual q).endQual q .stopped
  | none => s

/-- The QEN's part of a port DOWN or of a queued run's MEDIA_DOWN: the qualification ends STOPPED at once (R139). -/
def State.qualDown (s : State) : State :=
  match s.qen.qual with
  | some q => s.endQual q .stopped
  | none => s

/-- The QEN's part of a RESET request (R140): no QUALIFY_DONE, no answer to a QUALIFY_STOP. -/
def State.qualReset (s : State) : State :=
  match s.qen.qual with
  | some q => (s.endQualifying q.band .stopped).qenIdle (q.result .stopped)
  | none => s

/-- Place a delivered sector in the track buffer. -/
def State.placeQual (s : State) (j : Nat) (x : Sector) : State :=
  { s with qen := { s.qen with buffer := s.qen.buffer.set j x } }

end Sys2Proof.Machine
end

