-- ==== Sys2Proof/Machine/Outcomes.lean ====
section
/-!
DEFINITION. Machine/Outcomes.lean: what each owner does with the outcome of an operation (R51, R69 to R76, R93 to R95,
R103, R120, R136, R137, R156), the completion of a work item (R70), and the port going DOWN and coming UP (R158, R159).
-/

namespace Sys2Proof.Machine

/-! ### Owners: FETCH (R51) -/

/-- The DONE fields of a FETCH (R195). -/
def Entry.fetchFields (e : Entry) : List Field :=
  let r := e.range.getD (0, 0)
  [.num 1 r.1, .num 1 r.2, .num 2 0] ++ (List.range r.2).map fun k => .sector (granuleGet e.buffer (r.1 + k))

/-- The status a FETCH ends with when no run of it is outstanding (R51). -/
def Entry.fetchStatus (e : Entry) : Status := if e.down then .mediaDown else if e.failed then .unrecovered else .done

/-- The FETCH of a tag replied if no run of it is outstanding (R51). -/
def State.judgeFetch (s : State) (tag : Nat) : State :=
  match s.entry? tag with
  | some e => if e.left = 0 then s.finish tag e.fetchStatus e.fetchFields else s
  | none => s

/-- A FETCH's run ended, with the failure it met (R51). -/
def State.fetchRunEnded (s : State) (tag : Nat) (failed down : Bool) : State :=
  (s.updEntry tag fun e => { e with left := e.left - 1, failed := e.failed || failed, down := e.down || down }).judgeFetch
    tag

/-- The outcome of a FETCH run (R51). -/
def State.fetchOutcome (s : State) (o : MediaOp) (out : Outcome) : State :=
  match o.tag, out with
  | some t, .complete => s.fetchRunEnded t false false
  | some t, .unrecovered => s.fetchRunEnded t true false
  | some t, .notServed _ => s.fetchRunEnded t true false
  | some t, .mediaDown => s.fetchRunEnded t true true
  | some _, .stopped => s
  | some _, .writeFault _ => s
  | some _, .aborted => s
  | none, _ => s

/-! ### Owners: band writes (R69 to R76) -/

/-- The completion reported to an item's origin (R70 step 4). -/
def State.reportItem (s : State) (it : Item) (v : Verdict) : State :=
  match it.work with
  | .store t _ => s.storeDone t
  | .fold _ _ => s.foldPlaced v
  | .clean src => s.copyPlaced src v
  | .replace _ => s

/-- An item completes in slot `w` of its stream's band, in the order of R70; a full band then closes (R71) and the next
item is taken. The recoveries that end at the event are told last, earlier fault first (R82; log entries 24 and 53). -/
def State.itemComplete (s : State) (n : Fin 9) (b w : Nat) (it : Item) : State :=
  let v := s.verdict it
  let rs := s.recoveries
  let s := (s.propose it ⟨b, w⟩).moveFrontier n b (16 * (w + 1)) (some (v.slot it.lgn)) true
  let s := s.updStream n fun x => { x with exposed := x.exposed ++ [⟨w, it.lgn, it.content⟩] }
  let s := s.reportItem it v
  let s := if n = relocation then s else s.placedGranule
  let s := (s.dropHead n).updStream n fun x => { x with writing := none }
  ((s.capacityClose n b).goOn n).raiseEnded rs

/-- A write run advanced the frontier by `d` sectors and ended, served or not, so that a run from the new frontier is
next, unless the slot is whole (R69, R73). -/
def State.runAdvanced (s : State) (n : Fin 9) (d : Nat) : State :=
  match (s.stream n).openBand, (s.stream n).writing, (s.stream n).fifo with
  | some b, some w, it :: _ =>
    let f := s.frontier b + d
    if 16 * (w + 1) ≤ f then s.itemComplete n b w it
    else if d = 0 then s.queueRun n
    else (s.moveFrontier n b f none true).queueRun n
  | _, _, _ => s

/-- A write run stopped with `d` sectors done (R72). -/
def State.runStopped (s : State) (n : Fin 9) (d : Nat) : State :=
  match (s.stream n).openBand with
  | some b => if d = 0 then s else s.moveFrontier n b (s.frontier b + d) none true
  | none => s

/-- The STORE at a stream's head, its run ended by the port DOWN, is replied MEDIA_DOWN and removed; any other item
stays (R75). The WRITE_FAULT of a recovery that the removal ends is raised with the SWR's part of the DOWN (R82; log
entry 45). -/
def State.downHead (s : State) (n : Fin 9) : State :=
  match (s.stream n).fifo with
  | it :: _ =>
    match it.work with
    | .store t _ => (s.finish t .mediaDown []).dropHead n
    | .fold _ _ => s
    | .clean _ => s
    | .replace _ => s
  | [] => s

/-- The outcome of a band write run of stream `n` (R69 to R76, R79). -/
def State.streamOutcome (s : State) (n : Fin 9) (o : MediaOp) : Outcome → State
  | .complete => s.runAdvanced n o.sectorsDone
  | .stopped => s.runStopped n o.sectorsDone
  | .notServed _ => s.runAdvanced n o.sectorsDone
  | .unrecovered => s.writeFault n o.sectorsDone
  | .writeFault _ => s.writeFault n o.sectorsDone
  | .mediaDown => (s.abortRound n o.sectorsDone).downHead n
  | .aborted => s.abortRound n o.sectorsDone

/-! ### Owners: staged writes (R93 to R95) -/

/-- The outcome of a staged write run (R93 to R95). -/
def State.stagedOutcome (s : State) (p : Nat) (o : MediaOp) : Outcome → State
  | .complete => s.stagedAdvance p (o.place + o.sectorsDone)
  | .notServed _ => s.stagedAdvance p (o.place + o.sectorsDone)
  | .stopped => s
  | .unrecovered => s.stagedFault p
  | .writeFault _ => s.stagedFault p
  | .mediaDown => s.stagedDown p
  | .aborted => s

/-! ### Owners: the fold engine (R103) -/

/-- The outcome of a fold's record run (R102, R103). -/
def State.foldRecordOutcome (s : State) (p : Nat) (out : Outcome) : State :=
  match s.slu.fold, out with
  | some f, .complete => s.foldRecordRead f p
  | some f, .unrecovered => s.foldRecordLost f p
  | some f, .notServed _ => s.foldRecordUnserved f p .notServed
  | some f, .mediaDown => s.foldRecordUnserved f p .portDown
  | some _, .stopped => s
  | some _, .writeFault _ => s
  | some _, .aborted => s
  | none, _ => s

/-- A fold's home read lost: the lost report for the home slot, and the failure (R57, R103). -/
def State.foldHomeLost (s : State) (f : Fold) : State :=
  match f.homeSource with
  | .slot h => (s.lostReport f.lgn h).foldHomeEnded f (some .homeUnrecovered)
  | .held => s.foldHomeEnded f (some .homeUnrecovered)
  | .none => s.foldHomeEnded f (some .homeUnrecovered)

/-- The outcome of a fold's home run (R102, R103). -/
def State.foldHomeOutcome (s : State) (out : Outcome) : State :=
  match s.slu.fold, out with
  | some f, .complete => s.foldHomeEnded f none
  | some f, .unrecovered => s.foldHomeLost f
  | some f, .notServed _ => s.foldHomeEnded f (some .notServed)
  | some f, .mediaDown => s.foldHomeEnded f (some .portDown)
  | some _, .stopped => s
  | some _, .writeFault _ => s
  | some _, .aborted => s
  | none, _ => s

/-! ### Owners: cleaning reads (R119, R120) -/

/-- The outcome of a cleaning read of a slot (R119, R120). -/
def State.cleanOutcome (s : State) (slot : Nat) (o : MediaOp) : Outcome → State
  | .complete => s.cleanRunEnded slot id
  | .unrecovered => s.cleanReadLost slot
  | .notServed _ => s.handOver o
  | .mediaDown => s.cleanReadDown slot o.place o.count
  | .stopped => s
  | .writeFault _ => s
  | .aborted => s

/-! ### The report to the owner (R156) -/

/-- The readers an operation was counted in fall by one at its final outcome (R37, R96, R156). -/
def State.endReaders (s : State) (o : MediaOp) : State :=
  let s := match o.bandRead with
    | some b => s.readEnd b
    | none => s
  match o.recordRead with
  | some p => s.recordReadEnd p
  | none => s

/-- The owner deals with an outcome (R156). -/
def State.ownerOutcome (s : State) (o : MediaOp) (out : Outcome) : State :=
  match o.origin with
  | .fetchBand => s.fetchOutcome o out
  | .fetchRecord _ => s.fetchOutcome o out
  | .stream n => s.streamOutcome n o out
  | .staged p => s.stagedOutcome p o out
  | .foldRecord p => s.foldRecordOutcome p out
  | .foldHome => s.foldHomeOutcome out
  | .cleanRead slot => s.cleanOutcome slot o out
  | .qual => s.qualOutcome o out

/-- An outcome reported: every outcome but STOPPED ends the operation's readers (R152, R156). The readers fall, and a DEAD
record that has none left leaves the log head, before the owner deals with the outcome: a DESIGN CHOICE of the model,
log entry 55. -/
def State.reportOutcome (s : State) (o : MediaOp) (out : Outcome) : State :=
  (if out = .stopped then s else s.endReaders o).ownerOutcome o out

/-- Report one outcome for several operations, in order. -/
def State.reportAll (s : State) (os : List MediaOp) (out : Outcome) : State :=
  os.foldl (fun s o => s.reportOutcome o out) s

/-- The operation in progress ends with the port staying UP: the port is IDLE and the owner is told (R156). -/
def State.endOp (s : State) (o : MediaOp) (out : Outcome) : State := s.portIdle.reportOutcome o out

/-- A FINISHED STOPPED: the owner is told, the remainder goes to the head of its class queue, and a QEN with a stop
pending withdraws it (R139, R152). -/
def State.stopOp (s : State) (o : MediaOp) : State :=
  let s := (s.endOp o .stopped).requeueHead o.remainder
  if o.origin = .qual then s.judgeQualStop else s

/-! ### The port going DOWN (R158) -/

/-- Every STORE item left in a stream's FIFO is replied MEDIA_DOWN and removed (R76). -/
def State.streamDown (s : State) (n : Fin 9) : State :=
  let tags := (s.stream n).fifo.filterMap fun it => it.work.tag
  (s.finishAll tags .mediaDown).keepItems n fun it => !it.work.isStore

/-- The SWR's part of a port DOWN (R76). -/
def State.swrDown (s : State) : State := allStreams.foldl State.streamDown s

/-- The SLU's part of a port DOWN: the overlay wait list and the FOLD requests that stood at the DOWN are replied
MEDIA_DOWN (R95, R101, R106), the waiting STOREs first, each list in its own order (DESIGN CHOICE, log entry 46). -/
def State.sluDown (s : State) (reqs : List FoldReq) : State :=
  (({ s with slu := { s.slu with overlayWait := [] } }).finishAll s.slu.overlayWait .mediaDown).finishAll
    (reqs.map FoldReq.tag) .mediaDown

/-- The CLE's part of a port DOWN (R129): the CLEAN requests are replied in the order of the host list, oldest first
(DESIGN CHOICE, log entry 48). -/
def State.cleDown (s : State) : State :=
  let tags := s.cle.hostList.map Prod.fst
  let victim := s.cle.victim.map fun v : Victim => { v with tag := none }
  let stage := if s.cle.stage = .waitCredit then .halted else s.cle.stage
  ({ s with cle := { s.cle with hostList := [], victim := victim, stage := stage } }).finishAll tags .mediaDown

/-- The current causes are latched and MEDIA_DOWN raised (R157, R158). -/
def State.latchDown (s : State) : State :=
  let latched := s.mpt.latched ||| s.mpt.causes
  ({ s with mpt := { s.mpt with latched := latched } }).raise .mediaDown latched.toNat

/-- The port goes DOWN with an operation's failure (R158), the parts of the rule taken in the order it lists them. The
WRITE_FAULT notices of recoveries that its removals end come after the replies to the STOREs of every stream, in the
order of the faults (R76, R82): that they follow those replies is a DESIGN CHOICE of the model, log entry 45. The opens
that items left in the FIFOs ask are judged after MEDIA_DOWN is raised (DESIGN CHOICE, log entry 50). -/
def State.portDown (s : State) (o : MediaOp) : State :=
  let reqs := s.slu.foldReqs
  let rs := s.recoveries
  let queued := s.har.allQueued
  let s := { s with
    mpt := { s.mpt with up := false, stage := .idle, op := none }
    har := s.har.emptied
    slu := { s.slu with foldReqs := [] } }
  let s := (s.reportOutcome o .mediaDown).reportAll queued .mediaDown
  ((((s.swrDown.raiseEnded rs).sluDown reqs).cleDown).qualDown).latchDown.pumpAll

/-- A counted failure of the operation in progress: at the third the port goes DOWN, else the operation ends with its
outcome (R157, R158). -/
def State.failOp (s : State) (o : MediaOp) (c : Cause) (out : Outcome) : State :=
  let s := s.countFailure c
  if s.mpt.failures = 3 then s.portDown o else s.endOp o out

/-! ### The port coming UP (R159) -/

/-- The port comes UP at a probe's OK (R159): MEDIA_RESTART is replied, and the owners resume. The streams resume first,
so that stream 8's write run joins CLEAN before the batch's reads that are issued again (R76, R120, R129): a DESIGN
CHOICE of the model, log entry 59. -/
def State.portUp (s : State) : State :=
  let tag := s.mpt.restartTag
  let s := ({ s with mpt := { s.mpt with up := true, stage := .idle, op := none, restartTag := none } }).countSuccess
  let s := match tag with
    | some t => s.finish t .done []
    | none => s
  s.pumpAll.reissueBatch

/-- A probe failed: the port stays DOWN and MEDIA_RESTART is replied MEDIA_DOWN (R159). -/
def State.probeFailed (s : State) : State :=
  let tag := s.mpt.restartTag
  let s := { s with mpt := { s.mpt with stage := .idle, restartTag := none } }
  match tag with
  | some t => s.finish t .mediaDown []
  | none => s

/-! ### The end of a RESET (R160, R175) -/

/-- Empty the outbound queue but for the frame being sent (R175). -/
def State.keepSending (s : State) (sending : List OutFrame) : State :=
  { s with flu := { s.flu with outbound := sending } }

/-- Generate the RESET reply (R175). -/
def State.resetReply (s : State) (w : ResetWait) : State :=
  ({ s with ctl := { s.ctl with resetWait := none } }).reply codeReset w.tag false .done [.num 1 w.inUse, .num 3 0]

/-- The media port takes a RESET: UP and IDLE, its counter 0, its cause sets empty, a probe abandoned; the order number
counter is kept (R160). -/
def State.mptTakesReset (s : State) : State :=
  { s with mpt := { s.mpt with
      up := true, stage := .idle, op := none, failures := 0, causes := 0, latched := 0, restartTag := none } }

/-- The operation a RESET aborted has ended: the media port takes the reset, the operation's owner is told, streams
that have items go on (R83), frames generated meanwhile are dropped but for the one being sent, and the RESET is
replied (R160, R175). -/
def State.resetAborted (s : State) (o : MediaOp) (w : ResetWait) (sending : List OutFrame) : State :=
  ((s.mptTakesReset.reportOutcome o .aborted).pumpAll.keepSending sending).resetReply w

end Sys2Proof.Machine
end

