-- ==== Sys2Proof/Machine/Image.lean ====
section
/-!
DEFINITION. Machine/Image.lean: table images (R190 to R193, R202, R203): laying the tables out as bytes and chunks,
reading a loaded image back, the checks of a commit (R16, R18, R20, R60, R85, R109, R192), and the tables a commit builds
(R41, R193).
-/

namespace Sys2Proof.Machine

/-! ### Writing an image (R190, R202, R203) -/

/-- A slot entry's number in an image (R202). -/
def Slot.imageCode : Slot → Nat
  | .live lgn => lgn
  | .dead => 0xFFFFFFFF
  | .torn => 0xFFFFFFFE

/-- A band record's fields in an image (R202). -/
def Band.imageFields (bd : Band) : List Field :=
  [.num 4 bd.number, .num 1 bd.zone, .num 1 bd.state.code, optNum 1 (bd.stream.map Fin.val),
    optNum 1 (bd.closeReason.map CloseReason.code), .num 4 bd.frontier, .num 2 bd.live, .num 2 bd.dead, .num 2 bd.torn,
    .num 1 bd.retry, .num 1 bd.fatigue, optNum 1 (bd.prior.map BandState.code), .num 3 0, .num 8 (bd.closeOrder.getD 0)]
    ++ bd.slots.map fun e => .num 4 e.imageCode

/-- A stream record's fields in an image (R202). -/
def Stream.imageFields (x : Stream) : List Field := [.num 1 x.lo, .num 1 x.hi, .num 2 0, optNum 4 x.openBand]

/-- The marks of a map entry: home present, lost flag, newest staged present (R197, R202). -/
def MapEntry.marks (e : MapEntry) : Nat := e.home.isSome.toNat + 2 * e.lost.toNat + 4 * e.newest.isSome.toNat

/-- A map entry's fields in an image (R202). -/
def MapEntry.imageFields (e : MapEntry) : List Field :=
  [optNum 4 (e.home.map Home.band), optNum 2 (e.home.map Home.slot), .num 1 e.marks, .num 1 e.overlays, .num 8 e.base,
    optNum 4 e.newest, .num 4 0]

/-- A staged record's fields in an image (R202). -/
def Record.imageFields (r : Record) : List Field :=
  [.num 4 r.pos, .num 1 r.len, .num 1 r.first, .num 1 r.count, .num 1 r.stream, .num 4 r.lgn, .num 1 r.state.code,
    .num 3 0, optNum 4 r.prev, .num 8 r.sequence]

/-- The sections after the header, in order (R190). -/
def State.imageSections (s : State) : List Byte :=
  (s.btu.zones.map ZoneDesc.bytes).flatten
    ++ (s.btu.bands.map fun bd => bodyBytes bd.imageFields).flatten
    ++ (allStreams.map fun n => bodyBytes (s.stream n).imageFields).flatten
    ++ ((List.range s.gmu.lgnCount).map fun lgn => bodyBytes (s.entryOf lgn).imageFields).flatten
    ++ (s.slu.dir.map fun r => bodyBytes r.imageFields).flatten

/-- The image byte length (R203). -/
def imageLength (zones lgns records : Nat) (slotCounts : List Nat) : Nat :=
  64 + 16 * zones + (slotCounts.map fun n => 32 + 4 * n).sum + 72 + 24 * lgns + 28 * records

/-- The image byte length of the tables (R203). -/
def State.imageLength (s : State) : Nat :=
  Machine.imageLength s.btu.zones.length s.gmu.lgnCount s.slu.dir.length (s.btu.bands.map fun bd => bd.slots.length)

/-- The chunk count of an image byte length (R190). -/
def chunksOf (length : Nat) : Nat := ceilDiv length Config.chunkBytes

/-- The header with a check value (R202). -/
def State.imageHeader (s : State) (check : Nat) : List Byte :=
  bodyBytes [.num 4 Config.imageFormat, .num 8 s.imageLength, .num 4 (chunksOf s.imageLength), .num 4 check,
    .num 4 s.gmu.lgnCount, .num 8 s.gmu.sequence, .num 4 s.bandCount, .num 1 s.btu.reserve, .num 1 s.btu.zones.length,
    .num 2 s.slu.dir.length, .num 4 s.slu.area.firstTrack, .num 2 s.slu.area.tracks, .num 2 s.slu.area.spt,
    .num 4 s.slu.head, .num 4 s.slu.tail, .num 4 s.slu.used, .num 4 0]

/-- The whole image (R190, R203). -/
def State.image (s : State) : List Byte :=
  s.imageHeader (crc32 (s.imageHeader 0 ++ s.imageSections)).toNat ++ s.imageSections

/-- A chunk of an image, zeros past its end (R203). -/
def chunkAt (image : List Byte) (i : Nat) : Chunk :=
  let bs := (image.drop (Config.chunkBytes * i)).take Config.chunkBytes
  bs ++ List.replicate (Config.chunkBytes - bs.length) 0

/-! ### Reading an image (R192, R202) -/

/-- An optional field, all ones read as absent (R194). -/
def optField (bs : List Byte) (off n : Nat) : Option Nat :=
  let v := fieldAt bs off n
  if v = 256 ^ n - 1 then none else some v

/-- The slot entry an image number stands for (R202). -/
def Slot.ofImageCode (v : Nat) : Slot := if v = 0xFFFFFFFF then .dead else if v = 0xFFFFFFFE then .torn else .live v

/-- Band states by byte (R194). -/
def BandState.ofCode : Nat → Option BandState
  | 0 => some .empty | 1 => some .opened | 2 => some .full | 3 => some .cleaning | 4 => some .qualifying
  | 5 => some .retired | _ => none

/-- Close reasons by byte (R194). -/
def CloseReason.ofCode : Nat → Option CloseReason
  | 1 => some .capacity | 2 => some .fault | 3 => some .image | _ => none

/-- Staged record states by byte (R194). -/
def RecState.ofCode : Nat → Option RecState
  | 0 => some .writing | 1 => some .live | 2 => some .dead | _ => none

/-- A band record as an image gives it: the numbers of its fields, unjudged (R202). -/
structure BandImage where
  number : Nat
  zone : Nat
  state : Nat
  stream : Option Nat
  closeReason : Option Nat
  frontier : Nat
  live : Nat
  dead : Nat
  torn : Nat
  retry : Nat
  fatigue : Nat
  prior : Option Nat
  closeOrder : Nat
  slots : List Slot
  deriving DecidableEq, Repr

/-- Read one band record (R202). -/
def readBand (bs : List Byte) : BandImage :=
  { number := fieldAt bs 0 4, zone := fieldAt bs 4 1, state := fieldAt bs 5 1, stream := optField bs 6 1,
    closeReason := optField bs 7 1, frontier := fieldAt bs 8 4, live := fieldAt bs 12 2, dead := fieldAt bs 14 2,
    torn := fieldAt bs 16 2, retry := fieldAt bs 18 1, fatigue := fieldAt bs 19 1, prior := optField bs 20 1,
    closeOrder := fieldAt bs 24 8,
    slots := (pieces 4 (slotsBehind (fieldAt bs 8 4)) (bs.drop 32)).map fun x => Slot.ofImageCode (leValue x) }

/-- Read `n` band records; the records and the bytes after them (R202). -/
def readBands : (n : Nat) → List Byte → List BandImage × List Byte
  | 0, bs => ([], bs)
  | n + 1, bs =>
    let b := readBand bs
    let r := readBands n (bs.drop (32 + 4 * b.slots.length))
    (b :: r.1, r.2)

/-- Read a map entry (R202). The home is absent where its band is all ones, whatever its slot reads as: the spec does
not say whether a home with one of the two absent is bad (DESIGN CHOICE, log entry 28). -/
def readMapEntry (bs : List Byte) : MapEntry :=
  { home := (optField bs 0 4).map fun b => ⟨b, fieldAt bs 4 2⟩, lost := decide (fieldAt bs 6 1 / 2 % 2 = 1),
    overlays := fieldAt bs 7 1, base := fieldAt bs 8 8, newest := optField bs 16 4 }

/-- A staged record as an image gives it: the record, its state byte not yet judged (R202). -/
structure RecordImage where
  record : Record
  state : Nat
  deriving DecidableEq, Repr

/-- Read a staged record (R202). -/
def readRecord (bs : List Byte) : RecordImage :=
  let st := fieldAt bs 12 1
  { state := st
    record := { pos := fieldAt bs 0 4, len := fieldAt bs 4 1, first := fieldAt bs 5 1, count := fieldAt bs 6 1,
                stream := fieldAt bs 7 1, lgn := fieldAt bs 8 4, prev := optField bs 16 4, sequence := fieldAt bs 20 8,
                state := (RecState.ofCode st).getD .dead } }

/-- A loaded image, read whole (R202). -/
structure Image where
  length : Nat
  lgnCount : Nat
  sequence : Nat
  bandCount : Nat
  reserve : Nat
  area : AreaDesc
  head : Nat
  tail : Nat
  used : Nat
  zones : List ZoneDesc
  bands : List BandImage
  streams : List (Nat × Nat × Option Nat)
  entries : List MapEntry
  dir : List RecordImage
  deriving DecidableEq, Repr

/-- Read a loaded image (R202). -/
def readImage (bs : List Byte) : Image :=
  let zones := fieldAt bs 37 1
  let dirCount := fieldAt bs 38 2
  let lgns := fieldAt bs 20 4
  let b := readBands (fieldAt bs 32 4) (bs.drop (64 + 16 * zones))
  { length := fieldAt bs 4 8, lgnCount := lgns, sequence := fieldAt bs 24 8, bandCount := fieldAt bs 32 4,
    reserve := fieldAt bs 36 1, area := ⟨fieldAt bs 40 4, fieldAt bs 44 2, fieldAt bs 46 2⟩,
    head := fieldAt bs 48 4, tail := fieldAt bs 52 4, used := fieldAt bs 56 4,
    zones := (pieces 16 zones (bs.drop 64)).map ZoneDesc.ofBytes, bands := b.1,
    streams := (pieces 8 9 b.2).map fun x => (fieldAt x 0 1, fieldAt x 1 1, optField x 4 4),
    entries := (pieces 24 lgns (b.2.drop 72)).map readMapEntry,
    dir := (pieces 28 dirCount (b.2.drop (72 + 24 * lgns))).map readRecord }

/-- The image bytes with the check field taken as zero (R203). -/
def withoutCheck (bs : List Byte) : List Byte := bs.take 16 ++ List.replicate 4 0 ++ bs.drop 20

/-! ### The checks of a commit (R192) -/

/-- Check 2: the image check, and the image byte length against the counts (R192). -/
def Image.lengthOk (m : Image) (bs : List Byte) : Bool :=
  decide (m.length = imageLength m.zones.length m.lgnCount m.dir.length (m.bands.map fun b => b.slots.length))
    && decide ((crc32 (withoutCheck (bs.take m.length))).toNat = fieldAt bs 16 4)

/-- Check 3: ranges of LGN_COUNT, R and the zone count (R192). -/
def Image.rangesOk (m : Image) : Bool :=
  decide (1 ≤ m.lgnCount) && decide (m.lgnCount ≤ Config.maxLgns) && decide (2 ≤ m.reserve) && decide (m.reserve ≤ 64)
    && decide (1 ≤ m.zones.length) && decide (m.zones.length ≤ 32)

/-- Check 4: the geometry checks a commit applies, R85, and BAND_COUNT (R16, R192). -/
def Image.geometryOk (m : Image) : Bool :=
  Machine.geometryOk m.zones m.area && areaOk m.area && overprovisioned m.zones [] m.lgnCount
    && decide (m.bandCount = bandTotal m.zones)

/-- Whether an optional field is present exactly where the state says, with a value that passes (R18, R20). -/
def presentAs (there : Bool) (v : Option Nat) (ok : Nat → Bool) : Bool :=
  match v with
  | some x => there && ok x
  | none => !there

/-- A band record consistent with its state (R18, R20). -/
def BandImage.stateOk (b : BandImage) (st : BandState) : Bool :=
  let closed := decide (st = .full) || decide (st = .cleaning)
  let written := closed || decide (st = .opened)
  presentAs (decide (st = .opened)) b.stream (fun n => decide (n ≤ 8))
    && presentAs closed b.closeReason (fun c => (CloseReason.ofCode c).isSome)
    && decide (closed = decide (b.closeOrder ≠ 0))
    && presentAs (decide (st = .qualifying)) b.prior
      (fun p => decide (BandState.ofCode p = some .empty) || decide (BandState.ofCode p = some .retired))
    && (written || decide (b.frontier = 0))

/-- Check 5 for the band record in place `i` (R192). -/
def BandImage.ok (zones : List ZoneDesc) (lgnCount : Nat) (b : BandImage) (i : Nat) : Bool :=
  let cap := (bandGeo zones i).cap
  decide (b.number = i) && decide (some b.zone = (locate zones i).map Prod.fst)
    && (match BandState.ofCode b.state with
      | some st => b.stateOk st
      | none => false)
    && decide (b.frontier ≤ 16 * cap) && decide (b.fatigue ≤ 3)
    && decide (b.slots.length = slotsBehind b.frontier)
    && decide (b.live = b.slots.countP Slot.isLive) && decide (b.dead = b.slots.countP (· == .dead))
    && decide (b.torn = b.slots.countP (· == .torn)) && decide (b.live + b.dead + b.torn ≤ cap)
    && b.slots.all fun e => match e with
      | .live lgn => decide (lgn < lgnCount)
      | .dead => true
      | .torn => true

/-- Check 5 (R192). -/
def Image.bandsOk (m : Image) : Bool := (m.bands.zipIdx).all fun e => e.1.ok m.zones m.lgnCount e.2

/-- Whether the band record of a number is OPEN for a stream. -/
def Image.openFor (m : Image) (b n : Nat) : Bool :=
  match m.bands[b]? with
  | some x => decide (BandState.ofCode x.state = some .opened) && decide (x.stream = some n)
  | none => false

/-- Check 6 (R192). -/
def Image.streamsOk (m : Image) : Bool :=
  (m.streams.all fun x => decide (x.1 ≤ x.2.1) && decide (x.2.1 ≤ 31))
    && decide ((m.streams[8]?.map fun x => (x.1, x.2.1)) = some (0, 31))
    && (m.bands.all fun b => match BandState.ofCode b.state, b.stream with
      | some .opened, some n => decide ((m.streams[n]?.bind fun x => x.2.2) = some b.number)
      | _, _ => true)
    && m.streams.zipIdx.all fun e => match e.1.2.2 with
      | some b => m.openFor b e.2
      | none => true

/-- The WRITING and LIVE records of an LGN (R60). -/
def Image.chainOf (m : Image) (lgn : Nat) : List Record :=
  (m.dir.map RecordImage.record).filter fun r => decide (r.lgn = lgn) && decide (r.state ≠ .dead)

/-- The checks of R60 on one entry. That no two entries name one home follows from each naming a slot LIVE with its own
LGN. -/
def Image.entryOk (m : Image) (e : MapEntry) (lgn : Nat) : Bool :=
  let rs := m.chainOf lgn
  !(e.home.isSome && e.lost)
    && (decide (e.base ≠ 0) || (e.home.isNone && !e.lost))
    && (match e.home with
      | some h => decide ((m.bands[h.band]?.bind fun b => b.slots[h.slot]?) = some (.live lgn))
      | none => true)
    && decide (e.overlays = rs.length) && decide (rs.length ≤ Config.overlayLimit)
    && (match e.newest with
      | some p => rs.any fun r => decide (r.pos = p) && rs.all fun x => decide (x.sequence ≤ r.sequence)
      | none => rs.isEmpty)
    && rs.all (fun r => decide (e.base < r.sequence))
    && decide (e.base < m.sequence)

/-- Check 7 (R60, R192). -/
def Image.mapOk (m : Image) : Bool :=
  (m.entries.zipIdx.all fun e => m.entryOk e.1 e.2)
    && (m.bands.all fun b => b.slots.zipIdx.all fun e => match e.1 with
      | .live lgn => decide ((m.entries[lgn]?.bind MapEntry.home) = some ⟨b.number, e.2⟩)
      | .dead => true
      | .torn => true)
    && m.dir.all fun r => decide (r.record.sequence < m.sequence)

/-- The fields of a staged record within their ranges (R88). -/
def Record.fieldsOk (r : Record) (cap lgnCount : Nat) : Bool :=
  decide (r.pos < cap) && decide (r.len = r.count + 1) && decide (r.lgn < lgnCount) && decide (r.first ≤ 15)
    && decide (1 ≤ r.count) && decide (r.count ≤ 15) && decide (r.first + r.count ≤ 16) && decide (1 ≤ r.sequence)
    && decide (r.sequence < Config.counterMax) && decide (r.stream ≤ 7) && decide (r.prev.getD 0 < cap)

/-- Records that follow one another from position `p` and end at `tail`, mod capacity (R109). -/
def contiguous (cap tail : Nat) : (p : Nat) → List Record → Bool
  | p, [] => decide (p = tail)
  | p, r :: rs => decide (r.pos = p) && contiguous cap tail ((p + r.len) % cap) rs

/-- No two records of one LGN have the same sequence (R109). -/
def distinctSequences : List Record → Bool
  | [] => true
  | r :: rs => (rs.all fun x => decide (x.lgn ≠ r.lgn) || decide (x.sequence ≠ r.sequence)) && distinctSequences rs

/-- Each previous field, of a LIVE record and of a DEAD one, names an earlier LIVE record of its LGN with a lower
sequence, so that every DEAD record is out of every chain (R109); `before` are the records earlier in the log. That the
check is of a DEAD record's field too, which it keeps from before its death, is the model's choice: it refuses a part's
own image after two records of one chain were killed and both still stand in the log (DESIGN CHOICE, log entry 62). -/
def previousOk : (before : List Record) → List Record → Bool
  | _, [] => true
  | before, r :: rs =>
    (match r.prev with
      | some p => before.any fun x =>
          decide (x.pos = p) && decide (x.state = .live) && decide (x.lgn = r.lgn) && decide (x.sequence < r.sequence)
      | none => true)
      && previousOk (r :: before) rs

/-- Check 8 (R109, R192). -/
def Image.logOk (m : Image) : Bool :=
  let cap := areaCap m.area
  let rs := m.dir.map RecordImage.record
  decide (m.head < cap) && decide (m.tail < cap) && decide (rs.length ≤ Config.dirCapacity)
    && (m.dir.all fun r => decide (r.state = 1) || decide (r.state = 2))
    && rs.all (fun r => r.fieldsOk cap m.lgnCount) && contiguous cap m.tail m.head rs
    && decide (m.used = recordSectors rs) && decide (m.used ≤ cap) && distinctSequences rs && previousOk [] rs

/-- All checks of R192 on a load, in order. -/
def loadOk (l : ImageLoad) : Bool :=
  let bs := l.chunks.flatten
  let m := readImage bs
  decide (l.next = l.count) && m.lengthOk bs && m.rangesOk && m.geometryOk && m.bandsOk && m.streamsOk && m.mapOk
    && m.logOk

/-! ### The tables a commit builds (R41, R193) -/

/-- A band record taken from an image, all readers 0 and marks clear, before the conversions of R41. -/
def BandImage.band (b : BandImage) : Band :=
  { number := b.number, zone := b.zone, state := (BandState.ofCode b.state).getD .empty
    stream := b.stream.map (Fin.ofNat 9), frontier := b.frontier, slots := b.slots, retry := b.retry
    fatigue := b.fatigue, closeOrder := if b.closeOrder = 0 then none else some b.closeOrder
    closeReason := b.closeReason.bind CloseReason.ofCode, prior := b.prior.bind BandState.ofCode }

/-- The highest close order among bands; 0 with none (R41). -/
def highestClose (bands : List Band) : Nat := bands.foldl (fun m b => max m (b.closeOrder.getD 0)) 0

/-- Convert bands in ascending number: OPEN bands are closed for IMAGE and stamped from the counter, CLEANING bands
become FULL and QUALIFYING bands return to their prior state; with the counter after them (R41). -/
def convertBands : (counter : Nat) → List Band → List Band × Nat
  | c, [] => ([], c)
  | c, b :: bs =>
    match b.state with
    | .opened =>
      let r := convertBands (min (c + 1) Config.counterMax) bs
      ({ b with state := .full, stream := none, closeOrder := some c, closeReason := some .image } :: r.1, r.2)
    | .cleaning => ({ b with state := .full } :: (convertBands c bs).1, (convertBands c bs).2)
    | .qualifying =>
      ({ b with state := b.prior.getD .empty, prior := none } :: (convertBands c bs).1, (convertBands c bs).2)
    | .empty => (b :: (convertBands c bs).1, (convertBands c bs).2)
    | .full => (b :: (convertBands c bs).1, (convertBands c bs).2)
    | .retired => (b :: (convertBands c bs).1, (convertBands c bs).2)

/-- The BTU a commit builds (R41). -/
def Image.btu (m : Image) : Btu :=
  let raw := m.bands.map BandImage.band
  let r := convertBands (min (highestClose raw + 1) Config.counterMax) raw
  { zones := m.zones, bands := r.1, reserve := m.reserve
    pressure := decide (r.1.countP Band.isFree ≤ m.reserve), closeOrder := r.2
    refresh := (r.1.filter fun b => decide (b.state = .full) && decide (128 ≤ b.retry)).map Band.number }

/-- The GMU a commit builds (R60). -/
def Image.gmu (m : Image) : Gmu :=
  { lgnCount := m.lgnCount, sequence := m.sequence
    map := (m.entries.zipIdx.map fun e => (e.2, e.1)).filter fun e => decide (e.2 ≠ {}) }

/-- The stream record a commit builds (R84). -/
def Image.stream (m : Image) (n : Fin 9) : Stream :=
  match m.streams[n.val]? with
  | some x => { lo := x.1, hi := x.2.1 }
  | none => {}

/-- The SLU a commit builds (R109). -/
def Image.slu (m : Image) : Slu :=
  { area := m.area, head := m.head, tail := m.tail, used := m.used, dir := m.dir.map RecordImage.record }

/-- The tables replaced from an image (R193). -/
def State.fromImage (s : State) (m : Image) : State :=
  { s with
    btu := m.btu, gmu := m.gmu, slu := m.slu, qen := {}
    swr := { s.swr with streams := Vector.ofFn m.stream }
    cle := { s.cle with stage := .idle, victim := none, hostList := [] }
    ctl := { s.ctl with mode := .online, imageLoad := none } }

/-! ### Loading (R191) -/

/-- A chunk 0 whose header passes: format, and a chunk count that agrees with the byte length (R191). -/
def headerOk (chunk : Chunk) : Bool :=
  decide (fieldAt chunk 0 4 = Config.imageFormat) && decide (1 ≤ fieldAt chunk 12 4)
    && decide (fieldAt chunk 12 4 = chunksOf (fieldAt chunk 4 8))

/-- The image load after an IMAGE_WRITE, and whether the chunk was taken (R191). -/
def loadChunk (load : Option ImageLoad) (index : Nat) (chunk : Chunk) : Option ImageLoad × Bool :=
  if index = 0 then
    if headerOk chunk then (some ⟨1, fieldAt chunk 12 4, [chunk]⟩, true) else (none, false)
  else
    match load with
    | some l =>
      if index = l.next ∧ l.next < l.count then (some ⟨l.next + 1, l.count, l.chunks ++ [chunk]⟩, true) else (load, false)
    | none => (none, false)

end Sys2Proof.Machine
end

