-- ==== Sys2Proof/Machine/Port.lean ====
section
/-!
DEFINITION. Machine/Port.lean: the head grant (R144) and the media port's answers, read data and limits (R148 to R155,
R159, R160). A command whose event cannot occur in the state it finds (an answer of an order given up, a limit whose
timer does not run) leaves the state as it is (R148, log entry 1).
-/

namespace Sys2Proof.Machine

/-! ### The grant (R144) -/

/-- HEAD_GRANT: with the port UP and IDLE, the head operation of the chosen class is put in progress and its order sent
(R143 to R145, R148). -/
def execHeadGrant (s : State) : Host.Outcome State Fault Refusal :=
  .next (
    if s.mpt.up = true ∧ s.mpt.stage = .idle then
      match s.har.choose (effectiveOrder s.btu.pressure s.slu.logHeld) with
      | some c =>
        match s.har.queue c with
        | o :: _ => ({ s with har := s.har.granted c }).issue o
        | [] => s
      | none => s
    else s)

/-! ### Answers in CLAIMING and DEFERRED (R149, R150) -/

/-- Whether an answer's order number is that of the order outstanding, in a stage (R148). -/
def Mpt.answers (m : Mpt) (stage : PortStage) (n : Nat) : Bool := decide (m.stage = stage) && decide (m.order.number = n)

/-- The order is claimed (R149). -/
def State.claim (s : State) (o : MediaOp) : State :=
  { s with mpt := { s.mpt with stage := .running, op := some { o with defers := 0 } } }

/-- ACCEPTED (R149). -/
def execAccepted (n : Nat) (s : State) : Host.Outcome State Fault Refusal :=
  .next (match s.mpt.op with
    | some o => if s.mpt.answers .claiming n then s.claim o else s
    | none => s)

/-- The most DEFER answers an operation takes before its last (R150). -/
def deferLimit : Nat := 4

/-- The order is deferred, or the defer limit is met (R150). -/
def State.deferred (s : State) (o : MediaOp) : State :=
  if o.defers < deferLimit then
    { s with mpt := { s.mpt with stage := .deferred, op := some { o with defers := o.defers + 1 } } }
  else s.failOp o .deferLimit (.notServed .deferLimit)

/-- DEFER (R150). -/
def execDefer (n : Nat) (s : State) : Host.Outcome State Fault Refusal :=
  .next (match s.mpt.op with
    | some o => if s.mpt.answers .claiming n then s.deferred o else s
    | none => s)

/-- The re-issue delay expires: the order is sent again under a new number (R150). -/
def execReissueDelayExpiry (s : State) : Host.Outcome State Fault Refusal :=
  .next (match s.mpt.op with
    | some o => if s.mpt.stage = .deferred then s.issue o else s
    | none => s)

/-- The claim limit expires: an ABORT is sent and not waited for, and the operation ends NOT_SERVED (R149). -/
def execClaimLimitExpiry (s : State) : Host.Outcome State Fault Refusal :=
  .next (match s.mpt.op with
    | some o => if s.mpt.stage = .claiming then s.sendAbort.failOp o .noClaim (.notServed .noClaim) else s
    | none => s)

/-! ### FINISHED (R151 to R155) -/

/-- Statuses of a FINISHED answer (R148). -/
inductive Answer where
  | ok | stopped | unrecovered | writeFault | servoLost
  deriving DecidableEq, Repr

/-- The status byte of a FINISHED record (R204). -/
def Answer.ofCode : Nat → Option Answer
  | 0 => some .ok | 1 => some .stopped | 2 => some .unrecovered | 3 => some .writeFault | 4 => some .servoLost
  | _ => none

/-- The statuses as they are taken (R148, R153, R154): a STOPPED of the whole count is OK, a WRITE_FAULT of a read is
UNRECOVERED, and an UNRECOVERED of a write is WRITE_FAULT. -/
def Answer.taken (a : Answer) (isWrite : Bool) (count done : Nat) : Answer :=
  match a with
  | .stopped => if count ≤ done then .ok else .stopped
  | .unrecovered => if isWrite then .writeFault else .unrecovered
  | .writeFault => if isWrite then .writeFault else .unrecovered
  | .ok => .ok
  | .servoLost => .servoLost

/-- The sectors of an operation before a failing sector of its run. An order starts at the operation's first sector plus
its sectors done (R148), so this is R154's count too, the order's sectors before `x` added to those done earlier; and
a failing sector before the order's first takes the sectors done back to it. Outside the run the value is free, at
most the count (log entry 8). -/
def MediaOp.doneBefore (o : MediaOp) (x : Nat) : Nat :=
  if o.first ≤ x ∧ x < o.first + o.count then x - o.first
  else min (Config.doneOutsideRun o.first o.count x) o.count

/-- The operation's sectors done after a FINISHED answer to an order of it (R148, R152 to R155). -/
def MediaOp.doneAfter (o : MediaOp) (d : Order) (a : Answer) (done x : Nat) : Nat :=
  match a with
  | .ok => o.count
  | .stopped => o.sectorsDone + min done d.count
  | .servoLost => o.sectorsDone + min done d.count
  | .unrecovered => o.doneBefore x
  | .writeFault => o.doneBefore x

/-- The sectors an answer to an ABORT adds: those it carries, the count for an OK (R148, R151, R160). -/
def Order.abortReported (d : Order) (a : Answer) (done : Nat) : Nat := if a = .ok then d.count else min done d.count

/-- An operation with `d` more sectors done. -/
def MediaOp.add (o : MediaOp) (d : Nat) : MediaOp := { o with sectorsDone := o.sectorsDone + d }

/-- The most re-issues of a read (R151, R153). -/
def retryLimit : Nat := 8

/-- The operation ends COMPLETE: a success (R152, R157). -/
def State.completeOp (s : State) (o : MediaOp) : State :=
  s.countSuccess.endOp { o with sectorsDone := o.count } .complete

/-- One unrecovered answer of a band read reported to the BTU (R38, R153). -/
def State.reportUnrecovered (s : State) (o : MediaOp) : State :=
  match o.bandRead with
  | some b => s.unrecoveredReport b
  | none => s

/-- An UNRECOVERED answer to a read in RUNNING, its sectors done set to those before the failing sector (R153). -/
def State.readUnrecovered (s : State) (o : MediaOp) : State :=
  let s := s.reportUnrecovered o
  if o.retries < retryLimit then s.issue { o with retries := o.retries + 1 } else s.endOp o .unrecovered

/-- A SERVO_LOST answer in RUNNING, its sectors already added (R155). -/
def State.servoLost (s : State) (o : MediaOp) : State :=
  if o.servoUsed then
    s.failOp o .servoLost (if o.isWrite then .writeFault true else .notServed .servoLost)
  else s.issue { o with servoUsed := true }

/-- A FINISHED answer in RUNNING, or in CLAIMING after the claim it stands for; the operation has its sectors done after
the answer (R148, R152 to R155). -/
def State.finishRun (s : State) (o : MediaOp) (a : Answer) : State :=
  match a with
  | .ok => s.completeOp o
  | .stopped => s.stopOp o
  | .unrecovered => s.readUnrecovered o
  | .writeFault => s.endOp o (.writeFault true)
  | .servoLost => s.servoLost o

/-- The operation is ended by the completion limit, with its ABORT answered (R151). -/
def State.timedOut (s : State) (o : MediaOp) : State :=
  if o.isWrite then s.endOp o (.writeFault true)
  else if o.cls = .qualify then s.endOp o (.notServed .timedOut)
  else if o.retries < retryLimit then s.issue { o with retries := o.retries + 1 }
  else s.endOp o (.notServed .timedOut)

/-- An answer to an ABORT sent at a completion limit (R151). -/
def State.finishAbort (s : State) (o : MediaOp) (a : Answer) (d : Nat) : State :=
  if a = .ok then s.completeOp o else s.timedOut (o.add d)

/-- An answer in ABORTING: a RESET's ABORT ends the operation ABORTED (R160), a completion limit's as R151 says. An
UNRECOVERED answer to either is reported to the BTU first, as every UNRECOVERED answer of a band read is (R38, log entry
18). -/
def State.abortAnswered (s : State) (o : MediaOp) (a : Answer) (d : Nat) : State :=
  let sending := s.flu.outbound.take 1
  let s := if a = .unrecovered then s.reportUnrecovered o else s
  match s.ctl.resetWait with
  | some w => s.resetAborted (o.add d) w sending
  | none => s.finishAbort o a d

/-- A FINISHED answer for the operation in progress, by the stage (R148). -/
def State.finishOp (s : State) (o : MediaOp) (a : Answer) (done x : Nat) : State :=
  let a := a.taken o.isWrite s.mpt.order.count done
  let after := o.doneAfter s.mpt.order a done x
  match s.mpt.stage with
  | .claiming => (s.claim o).finishRun { o with defers := 0, sectorsDone := after } a
  | .running => s.finishRun { o with sectorsDone := after } a
  | .aborting => s.abortAnswered o a (s.mpt.order.abortReported a done)
  | .idle => s
  | .deferred => s
  | .probing => s

/-- A FINISHED answer to the probe (R159). -/
def State.probeAnswered (s : State) (a : Answer) : State := if a = .ok then s.portUp else s.probeFailed

/-- FINISHED (R148). A status byte that is none of those listed discards the record (R204). -/
def execFinished (n status done x : Nat) (s : State) : Host.Outcome State Fault Refusal :=
  .next (match Answer.ofCode status with
    | some a =>
      if s.mpt.order.number = n then
        match s.mpt.op with
        | some o => s.finishOp o a done x
        | none => if s.mpt.stage = .probing then s.probeAnswered a else s
      else s
    | none => s)

/-! ### Limits in RUNNING, ABORTING and PROBING (R151, R159, R160) -/

/-- The completion limit expires: ABORT is sent (R151). -/
def execCompletionLimitExpiry (s : State) : Host.Outcome State Fault Refusal :=
  .next (if s.mpt.stage = .running then
      let s' := s.sendAbort
      { s' with mpt := { s'.mpt with stage := .aborting } }
    else s)

/-- The abort limit expires with no answer (R151, R160): a write's sectors done are its whole count. -/
def State.abortUnanswered (s : State) (o : MediaOp) : State :=
  match s.ctl.resetWait with
  | some w => s.resetAborted { o with sectorsDone := o.count } w (s.flu.outbound.take 1)
  | none =>
    if o.isWrite then s.failOp { o with sectorsDone := o.count } .abortUnanswered (.writeFault false)
    else s.failOp o .abortUnanswered (.notServed .abortUnanswered)

/-- ABORT_LIMIT_EXPIRY (R151, R160). -/
def execAbortLimitExpiry (s : State) : Host.Outcome State Fault Refusal :=
  .next (match s.mpt.op with
    | some o => if s.mpt.stage = .aborting then s.abortUnanswered o else s
    | none => s)

/-- The probe limit expires: the port stays DOWN (R159). -/
def execProbeLimitExpiry (s : State) : Host.Outcome State Fault Refusal :=
  .next (if s.mpt.stage = .probing then s.probeFailed else s)

/-! ### Read data (R148, R204) -/

/-- A sector placed in the request buffer of a tag. -/
def State.placeEntry (s : State) (tag : Option Nat) (j : Nat) (x : Sector) : State :=
  match tag with
  | some t => s.updEntry t fun e => { e with buffer := granulePut e.buffer j x }
  | none => s

/-- A sector placed in a buffer of the fold's buffer set. -/
def State.placeFold (s : State) (f : Fold → Fold) : State :=
  { s with slu := { s.slu with fold := s.slu.fold.map f } }

/-- A sector placed in the cleaning buffer of a slot. -/
def State.placeClean (s : State) (slot j : Nat) (x : Sector) : State :=
  let victim := s.cle.victim.map fun v => v.updEntry slot fun e => { e with buffer := granulePut e.buffer j x }
  { s with cle := { s.cle with victim := victim } }

/-- Place a delivered sector at place `j` of an operation's buffer (R141). -/
def State.placeSector (s : State) (o : MediaOp) (j : Nat) (x : Sector) : State :=
  match o.origin with
  | .fetchBand => s.placeEntry o.tag j x
  | .fetchRecord _ => s.placeEntry o.tag j x
  | .foldRecord p => s.placeFold fun f => f.updSource p fun y => { y with buffer := granulePut y.buffer j x }
  | .foldHome => s.placeFold fun f => { f with homeBuffer := granulePut f.homeBuffer j x }
  | .cleanRead slot => s.placeClean slot j x
  | .qual => s.placeQual j x
  | .stream _ => s
  | .staged _ => s

/-- The place in an operation's buffer that a sector number of its track has: none where the sector lies outside the
operation's run (log entry 22), and none in a write's buffer, which data is taken from and not delivered to (R141, log
entry 51). -/
def MediaOp.placeOf? (o : MediaOp) (x : Nat) : Option Nat :=
  if o.isWrite = false ∧ o.first ≤ x ∧ x < o.first + o.count then some (o.place + (x - o.first)) else none

/-- DATA: each record taken in RUNNING is placed in the operation's buffer at the place of its sector, whatever the order
number it carries, and one taken in any other stage is discarded (R148, R204). -/
def execData (_order x : Nat) (content : Sector) (s : State) : Host.Outcome State Fault Refusal :=
  .next (match s.mpt.op with
    | some o =>
      if s.mpt.stage = .running then
        match o.placeOf? x with
        | some j => s.placeSector o j content
        | none => s
      else s
    | none => s)

end Sys2Proof.Machine
end

