-- ==== Sys2Proof/Machine/Operands.lean ====
section
/-!
DEFINITION. Machine/Operands.lean: how a request reaches its judgement (R163, R165, R167), how the controller state takes
or refuses it (R185), and the argument forms the requests share: clamped ranges, named bytes, sets of flags, DONE fields.
-/

namespace Sys2Proof.Machine

/-! ### Arrival and admission (R165, R167) -/

/-- Whether a good frame completed now is taken for judgement at once: none waits before it, the outbound queue holds
fewer than 32 frames, and no RESET reply is awaited (R165, R175). -/
def State.takesFrames (s : State) : Bool :=
  s.flu.waiting.isEmpty && decide (s.flu.outbound.length < Config.outboundLimit) && s.ctl.resetWait.isNone

/-- A good frame completes at the assembler, the bytes held being its own: it is judged and the assembler is READY, or it
waits in the assembler (R163, R165). -/
def State.arrive (s : State) (i : Instr) (judge : State → State) : State :=
  if s.takesFrames then judge { s with flu := { s.flu with assembler := .ready, held := [] } }
  else { s with flu := { s.flu with
      assembler := .frame, held := if s.flu.waiting.isEmpty then [] else s.flu.held, waiting := s.flu.waiting ++ [i] } }

/-- The entry an admission takes (R166, R167): its buffer holds what the free value says (log entry 7). -/
def State.newRequest (s : State) (code tag : Nat) : Entry :=
  { tag := tag, code := code, admission := s.rqu.admission, buffer := freshBuffer s.residue }

/-- A free entry is taken; the admission counter is a 64-bit counter that wraps (R166, R167). -/
def State.admitRequest (s : State) (code tag : Nat) : State :=
  { s with
    residue := s.residue + 1
    rqu := { s.rqu with
      entries := s.rqu.entries ++ [s.newRequest code tag]
      admission := (s.rqu.admission + 1) % 2 ^ 64 } }

/-- The judgement of a request other than RESET: refused for room or tag, or admitted and judged by its own code
(R167). -/
def State.judgeRequest (s : State) (code tag : Nat) (own : State → State) : State :=
  if Config.entryLimit ≤ s.rqu.entries.length then s.reply code tag false .queueFull []
  else if (s.entry? tag).isSome then s.reply code tag false .tagInUse []
  else own (s.admitRequest code tag)

/-- A request refused at its judgement: replied and its entry freed (R167, R168). -/
def State.refuse (s : State) (tag : Nat) (st : Status) : State := s.finish tag st []

/-- Mark a request as carrying an argument the part changed (R161, R168). -/
def State.markClamped (s : State) (tag : Nat) (c : Bool) : State := s.updEntry tag fun e => { e with clamped := c }

/-! ### The controller state's judgement (R185) -/

/-- The columns of R185: whether a request is taken in UNFORMATTED, ONLINE, QUIESCING and QUIESCED. -/
structure TakenIn where
  unformatted : Bool
  online : Bool
  quiescing : Bool
  quiesced : Bool
  deriving DecidableEq, Repr

/-- Whether a controller state takes a request (R185). -/
def TakenIn.has (t : TakenIn) : Mode → Bool
  | .unformatted => t.unformatted
  | .online => t.online
  | .quiescing => t.quiescing
  | .quiesced => t.quiesced

/-- STORE, FETCH, DISCARD, FOLD, CLEAN, QUALIFY (R185). -/
def takenData : TakenIn := ⟨false, true, false, false⟩
/-- QUALIFY_STOP, PACER_SET, MASK_SET, WATCH_SET, WATCH_CLEAR, MEDIA_RESTART (R185), and the INSPECT kinds that need
tables (R189). -/
def takenFormatted : TakenIn := ⟨false, true, true, true⟩
/-- STREAM_SET (R185). -/
def takenStreamSet : TakenIn := ⟨false, true, true, false⟩
/-- FORMAT (R185). -/
def takenFormat : TakenIn := ⟨true, false, false, true⟩
/-- RESUME, IMAGE_READ (R185). -/
def takenQuiesced : TakenIn := ⟨false, false, false, true⟩
/-- IMAGE_WRITE, IMAGE_COMMIT (R185). -/
def takenUnformatted : TakenIn := ⟨true, false, false, false⟩
/-- EVENT_ENABLE, EVENT_ACK, and the INSPECT kinds taken in every state (R185, R189). -/
def takenAlways : TakenIn := ⟨true, true, true, true⟩

/-- A request judged against the controller state before its arguments (R185). -/
def State.inState (s : State) (t : TakenIn) (tag : Nat) (k : State → State) : State :=
  if t.has s.ctl.mode then k s else s.refuse tag .wrongState

/-! ### Argument forms -/

/-- A sector range after R169: refused (none), or the count clamped to the granule's end. -/
def sectorRange (first count : Nat) : Option (Nat × Nat) :=
  if 15 < first ∨ count = 0 then none else some (first, min count (16 - first))

/-- A value brought into a range (R174). -/
def clampTo (lo hi v : Nat) : Nat := max lo (min v hi)

/-- The named value of a byte listed 0 and 1 (R196). -/
def boolByte (v : Nat) : Option Bool := if v = 0 then some false else if v = 1 then some true else none

/-- The pacer mode of a byte (R196). -/
def PacerMode.ofCode (v : Nat) : Option PacerMode := if v = 0 then some .time else if v = 1 then some .event else none

/-- The service mask of a byte; none if it names READ, WRITE or no class (R146, R196). -/
def Mask.ofCode (v : Nat) : Option Mask :=
  if v % 4 = 0 ∧ v < 32 then some ⟨v.testBit 2, v.testBit 3, v.testBit 4⟩ else none

/-- The flag set of a 16-bit field; none if it names no flag (R178, R179, R196). -/
def flagSet (v : Nat) : Option (BitVec 13) := if v < 2 ^ 13 then some (BitVec.ofNat 13 v) else none

/-- A watch window's fields in a WATCH_SET or WATCH_CLEAR reply (R196). A free window has its overrun mark clear
(R182, R183); its mode and range are absent (R194; log entry 25). -/
def windowFields (w : Option Window) : List Field :=
  match w with
  | some x => [.num 1 1, .num 1 x.mode.code, boolNum 1 x.overrun, .num 4 x.lo, .num 4 x.hi]
  | none => [.num 1 0, optNum 1 none, boolNum 1 false, optNum 4 none, optNum 4 none]

/-- The pacer's fields in a reply (R196): mode, running state, credits, zero, reload, count. -/
def Pacer.fields (p : Pacer) : List Field :=
  [.num 1 p.mode.code, boolNum 1 p.running, .num 1 p.credits, .num 1 0, .num 2 p.reload, .num 2 p.count]

end Sys2Proof.Machine
end

