-- ==== Sys2Proof/Machine/Control.lean ====
section
/-!
DEFINITION. Machine/Control.lean: the controller's own requests: FORMAT (R186), QUIESCE, RESUME (R187, R188), the image
requests (R190 to R193), RESET (R175 and the reset rule of each block) and power-on reset (R184).
-/

namespace Sys2Proof.Machine

/-! ### FORMAT (R16, R186) -/

/-- R as a FORMAT gives it: 0 is taken as absent, hence 8 (R186, R199). -/
def formatReserve (r : Nat) : Nat := if r = 0 then 8 else r

/-- The checks of a FORMAT (R14, R15, R16, R85, R186). -/
def formatOk (lgnCount reserve : Nat) (area : AreaDesc) (zones : List ZoneDesc) (retired : List Nat) : Bool :=
  decide (1 ≤ lgnCount) && decide (lgnCount ≤ Config.maxLgns) && decide (2 ≤ formatReserve reserve)
    && decide (formatReserve reserve ≤ 64) && areaOk area && geometryOk zones area && decide (retired.length ≤ 1024)
    && retired.all (fun b => decide (b < bandTotal zones)) && overprovisioned zones retired lgnCount
    && decide (formatReserve reserve + 10 ≤ emptyAfterFormat zones retired)

/-- The band records of a new table (R18). -/
def freshBands (retired : List Nat) : (z first : Nat) → List ZoneDesc → List Band
  | _, _, [] => []
  | z, first, d :: ds =>
    ((List.range (zoneBands d)).map fun i : Nat =>
      { number := first + i, zone := z, state := if retired.contains (first + i) then .retired else .empty })
      ++ freshBands retired (z + 1) (first + zoneBands d) ds

/-- A stream record after FORMAT (R61). -/
def freshStream (zones : List ZoneDesc) (n : Fin 9) : Stream :=
  if n = relocation then {} else { hi := min 31 (zones.length - 1) }

/-- The tables a FORMAT builds (R186). -/
def State.buildTables (s : State) (lgnCount reserve : Nat) (area : AreaDesc) (zones : List ZoneDesc)
    (retired : List Nat) : State :=
  { s with
    btu := { zones := zones, bands := freshBands retired 0 0 zones, reserve := reserve, closeOrder := 1 }
    gmu := { lgnCount := lgnCount, sequence := 1 }
    swr := { s.swr with streams := Vector.ofFn (freshStream zones) }
    slu := { area := area }
    cle := { s.cle with stage := .idle, victim := none, hostList := [] }
    qen := {}
    evu := { s.evu with windows := Vector.replicate 8 none, watchQueue := [] }
    ctl := { s.ctl with mode := .online, imageLoad := none } }

/-- The own judgement of a FORMAT (R186). -/
def State.formatOwn (s : State) (tag lgnCount reserve : Nat) (area : AreaDesc) (zones : List ZoneDesc)
    (retired : List Nat) : State :=
  if formatOk lgnCount reserve area zones retired then
    let s := s.buildTables lgnCount (formatReserve reserve) area zones retired
    s.finish tag .done [.num 4 s.bandCount, .num 4 (capacity zones retired), .num 4 s.freeCount, .num 1 s.btu.reserve,
      .num 3 0]
  else s.refuse tag .badArgument

/-- The judgement of a FORMAT (R185, R186). -/
def State.judgeFormat (s : State) (tag lgnCount reserve : Nat) (area : AreaDesc) (zones : List ZoneDesc)
    (retired : List Nat) : State :=
  s.judgeRequest codeFormat tag fun s => s.inState takenFormat tag fun s =>
    s.formatOwn tag lgnCount reserve area zones retired

/-- FORMAT (R186). -/
def execFormat (tag lgnCount reserve : Nat) (area : AreaDesc) (zones : List ZoneDesc) (retired : List Nat) (s : State) :
    Host.Outcome State Fault Refusal :=
  .next (s.arrive (.format tag lgnCount reserve area zones retired) fun s =>
    s.judgeFormat tag lgnCount reserve area zones retired)

/-! ### QUIESCE and RESUME (R187, R188) -/

/-- Whether the part is quiet (R187). A band reset is taken at the event that makes it due (R33), so a part with a
BAND_RESET due is not quiet before it is taken (DEDUCED, log entry 57). -/
def State.quiet (s : State) : Bool :=
  (s.rqu.entries.all fun e => decide (some e.tag = s.ctl.quiesceTag)) && s.swrIdle && s.sluIdle && s.cleIdle
    && s.qen.qual.isNone && s.pendingReset.isNone

/-- Set the controller state. -/
def State.setMode (s : State) (m : Mode) : State := { s with ctl := { s.ctl with mode := m } }

/-- A quiet part in QUIESCING becomes QUIESCED, and the QUIESCE is replied (R187). -/
def State.judgeQuiet (s : State) : State :=
  if s.ctl.mode = .quiescing ∧ s.quiet = true then
    let tag := s.ctl.quiesceTag
    let s := { s with ctl := { s.ctl with mode := .quiesced, quiesceTag := none } }
    match tag with
    | some t => s.finish t .done []
    | none => s
  else s

/-- The cleaner at the entry to QUIESCING: a walk in WAIT_CREDIT is HALTED, unless the host list holds a request
(R130). -/
def State.cleQuiescing (s : State) : State :=
  if s.cle.stage = .waitCredit ∧ s.cle.hostList.isEmpty = true then s.setStage .halted else s

/-- The entry to QUIESCING (R130, R139, R187). -/
def State.enterQuiescing (s : State) (tag : Nat) : State :=
  let s := { s with ctl := { s.ctl with mode := .quiescing, quiesceTag := some tag } }
  ((s.cleQuiescing).stopQual none).judgeQuiet

/-- The own judgement of a QUIESCE, by the controller state (R185, R187). -/
def State.quiesceOwn (s : State) (tag : Nat) : State :=
  match s.ctl.mode with
  | .unformatted => s.refuse tag .wrongState
  | .online => s.enterQuiescing tag
  | .quiescing => s.refuse tag .busy
  | .quiesced => s.finish tag .done []

/-- The judgement of a QUIESCE (R187). -/
def State.judgeQuiesce (s : State) (tag : Nat) : State := s.judgeRequest codeQuiesce tag fun s => s.quiesceOwn tag

/-- QUIESCE (R187). -/
def execQuiesce (tag : Nat) (s : State) : Host.Outcome State Fault Refusal :=
  .next (s.arrive (.quiesce tag) fun s => s.judgeQuiesce tag)

/-- QUIESCE_COMPLETE (R187). -/
def execQuiesceComplete (s : State) : Host.Outcome State Fault Refusal := .next s.judgeQuiet

/-- The judgement of a RESUME (R185, R188). -/
def State.judgeResume (s : State) (tag : Nat) : State :=
  s.judgeRequest codeResume tag fun s => s.inState takenQuiesced tag fun s => (s.setMode .online).finish tag .done []

/-- RESUME (R188). -/
def execResume (tag : Nat) (s : State) : Host.Outcome State Fault Refusal :=
  .next (s.arrive (.resume tag) fun s => s.judgeResume tag)

/-! ### Images (R190 to R193) -/

/-- The own judgement of an IMAGE_READ (R190, R202). -/
def State.imageReadOwn (s : State) (tag index : Nat) : State :=
  let chunks := chunksOf s.imageLength
  if index < chunks then
    s.finish tag .done [.num 4 index, .num 4 chunks, .num 4 0, .raw (chunkAt s.image index)]
  else s.refuse tag .badArgument

/-- The judgement of an IMAGE_READ (R185, R190). -/
def State.judgeImageRead (s : State) (tag index : Nat) : State :=
  s.judgeRequest codeImageRead tag fun s => s.inState takenQuiesced tag fun s => s.imageReadOwn tag index

/-- IMAGE_READ (R190). -/
def execImageRead (tag index : Nat) (s : State) : Host.Outcome State Fault Refusal :=
  .next (s.arrive (.imageRead tag index) fun s => s.judgeImageRead tag index)

/-- Set the image load. -/
def State.setLoad (s : State) (l : Option ImageLoad) : State := { s with ctl := { s.ctl with imageLoad := l } }

/-- The DONE fields of an IMAGE_WRITE (R196). -/
def loadFields (l : Option ImageLoad) : List Field :=
  match l with
  | some x => [.num 4 x.next, .num 4 x.count, .num 4 0]
  | none => []

/-- The own judgement of an IMAGE_WRITE (R191). -/
def State.imageWriteOwn (s : State) (tag index : Nat) (chunk : Chunk) : State :=
  let r := loadChunk s.ctl.imageLoad index chunk
  if r.2 then (s.setLoad r.1).finish tag .done (loadFields r.1) else (s.setLoad r.1).refuse tag .badArgument

/-- The judgement of an IMAGE_WRITE (R185, R191). -/
def State.judgeImageWrite (s : State) (tag index : Nat) (chunk : Chunk) : State :=
  s.judgeRequest codeImageWrite tag fun s => s.inState takenUnformatted tag fun s => s.imageWriteOwn tag index chunk

/-- IMAGE_WRITE (R191). -/
def execImageWrite (tag index : Nat) (chunk : Chunk) (s : State) : Host.Outcome State Fault Refusal :=
  .next (s.arrive (.imageWrite tag index chunk) fun s => s.judgeImageWrite tag index chunk)

/-- A commit that passes: the tables replaced and the commit replied (R193). -/
def State.commit (s : State) (tag : Nat) (m : Image) : State :=
  let s := s.fromImage m
  s.finish tag .done [.num 4 s.bandCount, .num 4 s.gmu.lgnCount, .num 4 s.freeCount, boolNum 1 s.btu.pressure, .num 3 0]

/-- The own judgement of an IMAGE_COMMIT (R192). -/
def State.imageCommitOwn (s : State) (tag : Nat) : State :=
  match s.ctl.imageLoad with
  | some l =>
    if loadOk l then s.commit tag (readImage l.chunks.flatten) else (s.setLoad none).refuse tag .imageBad
  | none => s.refuse tag .imageBad

/-- The judgement of an IMAGE_COMMIT (R185, R192). -/
def State.judgeImageCommit (s : State) (tag : Nat) : State :=
  s.judgeRequest codeImageCommit tag fun s => s.inState takenUnformatted tag fun s => s.imageCommitOwn tag

/-- IMAGE_COMMIT (R192). -/
def execImageCommit (tag : Nat) (s : State) : Host.Outcome State Fault Refusal :=
  .next (s.arrive (.imageCommit tag) fun s => s.judgeImageCommit tag)

/-! ### RESET (R175) -/

/-- The RQU at a RESET: every entry freed without a reply, the admission counter kept (R166, R175). -/
def Rqu.resetRequest (r : Rqu) : Rqu := { r with entries := [], held := [], holdTimeout := 2000 }

/-- A stream's record at a RESET: open pending clears (R83). -/
def State.streamReset (s : State) (n : Fin 9) : State :=
  (s.keepItems n fun it => it.work.isReplace).updStream n fun x => { x with openPending := false }

/-- The SWR at a RESET: STORE, FOLD and CLEAN items leave every FIFO, and the recoveries that their removal ends are
told (R82, R83). -/
def State.swrReset (s : State) : State := (allStreams.foldl State.streamReset s).raiseEnded s.recoveries

/-- The SLU at a RESET (R108): its lists and fold gone, WRITING records DEAD, the log-held condition clear. -/
def State.sluReset (s : State) : State :=
  let writing := (s.slu.dir.filter fun r => decide (r.state = .writing)).map Record.pos
  let s := { s with slu := { s.slu with
    writes := [], overlayWait := [], foldReqs := [], fold := none, logHeld := false } }
  (writing.foldl State.makeDead s).advanceHead

/-- The pacer at a RESET (R131). -/
def Pacer.resetRequest (p : Pacer) : Pacer := { p with running := false, count := p.reload, credits := 0 }

/-- The CLE at a RESET (R40, R131). -/
def State.cleReset (s : State) : State :=
  let s := match s.cle.victim with
    | some v => s.leaveCleaning v.band false
    | none => s
  { s with cle := { stage := .idle, victim := none, hostList := [], pacer := s.cle.pacer.resetRequest, threshold := 512 } }

/-- The operation in progress that a RESET ends at once: one DEFERRED (R160). -/
def Mpt.endedAtReset (m : Mpt) : List MediaOp := if m.stage = .deferred then m.op.toList else []

/-- Whether a RESET waits for an answer of the channel: an operation is CLAIMING, RUNNING or ABORTING (R160, R175). -/
def Mpt.awaitsAbort (m : Mpt) : Bool :=
  m.op.isSome && (decide (m.stage = .claiming) || decide (m.stage = .running) || decide (m.stage = .aborting))

/-- The media port at a RESET's arrival (R160, R175): it takes the reset, or, with an operation to end by its ABORT,
sends the ABORT (unless it is out already) and takes the reset when that operation ends. -/
def State.mptReset (s : State) : State :=
  if s.mpt.awaitsAbort then
    let s := if s.mpt.stage = .aborting then s else s.sendAbort
    { s with mpt := { s.mpt with stage := .aborting } }
  else s.mptTakesReset

/-- The controller's and the EVU's own part of a RESET (R183, R184). -/
def State.ctlReset (s : State) : State :=
  { s with
    evu := {}
    ctl := { s.ctl with
      mode := if s.ctl.mode = .unformatted then .unformatted else .online, imageLoad := none, quiesceTag := none } }

/-- Every block but the FLU takes the RESET: the requests discarded, work in flight aborted, each block's state as its
reset rule says, and the streams that still have items go on (R40, R59, R83, R108, R131, R140, R160, R183). The open
wait list is emptied before a QUALIFYING band returns to EMPTY, so the band joins the pool and no waiter takes it
(R26, R40): a DESIGN CHOICE of the model, log entry 44. An operation that was DEFERRED is reported ABORTED before the
queued ones: a DESIGN CHOICE, log entry 56. -/
def State.resetBlocks (s : State) : State :=
  let ended := s.mpt.endedAtReset ++ s.har.allQueued
  let s := { s with
    rqu := s.rqu.resetRequest
    har := { s.har.emptied with mask := {} }
    btu := { s.btu with openWait := [] } }
  let s := (s.mptReset.reportAll ended .aborted).swrReset
  (((s.sluReset.cleReset).qualReset).ctlReset).pumpAll

/-- RESET (R175): carried out at its arrival, replied at once or, where an ABORT is out, when the channel's operation
has ended. -/
def State.judgeReset (s : State) (tag : Nat) : State :=
  let w : ResetWait := ⟨tag, s.rqu.entries.length⟩
  let sending := s.flu.outbound.take 1
  let waits := s.mpt.awaitsAbort
  let s := s.resetBlocks.keepSending sending
  let s := { s with flu := { s.flu with errors := 0 } }
  if waits then { s with ctl := { s.ctl with resetWait := some w } } else s.resetReply w

/-- RESET (R175). -/
def execReset (tag : Nat) (s : State) : Host.Outcome State Fault Refusal :=
  .next (s.arrive (.reset tag) fun s => s.judgeReset tag)

/-! ### Power-on reset (R184) -/

/-- POWER_ON_RESET: every block in its initial state. The commands still to come, the records of what was sent and the
free value's counter are the model's own, and stay. -/
def execPowerOnReset (s : State) : Host.Outcome State Fault Refusal :=
  .next { State.reset with
    pending := s.pending
    residue := s.residue
    flu := { State.reset.flu with wire := s.flu.wire }
    mpt := { State.reset.mpt with wire := s.mpt.wire } }

end Sys2Proof.Machine
end

