-- ==== Sys2Proof/Machine/DataRequests.lean ====
section
/-!
DEFINITION. Machine/DataRequests.lean: STORE, FETCH and DISCARD: their judgement and entry into ordering (R44, R169,
R170), their start (REQUEST_START), the resolution of a FETCH (R47 to R51), and the releases and expiry of held STOREs
(R172, R173).
-/

namespace Sys2Proof.Machine

/-! ### Arrival judgement (R169) -/

/-- The placement sequence a STORE or DISCARD takes, if the counter is not at its maximum (R44). -/
def State.takeSequence (s : State) : Option (Nat × State) :=
  if s.gmu.sequence < Config.counterMax then
    some (s.gmu.sequence, { s with gmu := { s.gmu with sequence := s.gmu.sequence + 1 } })
  else none

/-- A request whose arguments pass takes its sequence and enters ordering as `f` fills its entry, or is refused
WRONG_STATE (R44, R169, R170). -/
def State.enterOrdering (s : State) (tag : Nat) (f : Nat → Entry → Entry) : State :=
  match s.takeSequence with
  | some (p, s') => s'.updEntry tag (f p)
  | none => s.refuse tag .wrongState

/-- The own judgement of a STORE (R169). -/
def State.storeOwn (s : State) (tag lgn first count stream : Nat) (payload : List Sector) : State :=
  if s.gmu.lgnCount ≤ lgn ∨ 8 ≤ stream then s.refuse tag .badArgument
  else match sectorRange first count with
  | none => s.refuse tag .badArgument
  | some (f, n) =>
    let s := s.markClamped tag (decide (n ≠ count))
    if payload.length < n then s.refuse tag .badArgument
    else s.enterOrdering tag fun p e =>
      { e with lgns := some (lgn, lgn), range := some (f, n), sequence := some p, stream := stream, phase := .waiting,
               buffer := placeSectors e.buffer f (payload.take n) }

/-- The judgement of a STORE (R167, R169, R185). -/
def State.judgeStore (s : State) (tag lgn first count stream : Nat) (payload : List Sector) : State :=
  s.judgeRequest codeStore tag fun s => s.inState takenData tag fun s => s.storeOwn tag lgn first count stream payload

/-- STORE (R169). -/
def execStore (tag lgn first count stream : Nat) (payload : List Sector) (s : State) :
    Host.Outcome State Fault Refusal :=
  .next (s.arrive (.store tag lgn first count stream payload) fun s =>
    s.judgeStore tag lgn first count stream payload)

/-- The own judgement of a FETCH (R169). -/
def State.fetchOwn (s : State) (tag lgn first count : Nat) : State :=
  if s.gmu.lgnCount ≤ lgn then s.refuse tag .badArgument
  else match sectorRange first count with
  | none => s.refuse tag .badArgument
  | some (f, n) => s.updEntry tag fun e =>
    { e with lgns := some (lgn, lgn), range := some (f, n), clamped := decide (n ≠ count), phase := .waiting }

/-- The judgement of a FETCH (R167, R169, R185). -/
def State.judgeFetchRequest (s : State) (tag lgn first count : Nat) : State :=
  s.judgeRequest codeFetch tag fun s => s.inState takenData tag fun s => s.fetchOwn tag lgn first count

/-- FETCH (R47, R169). -/
def execFetch (tag lgn first count : Nat) (s : State) : Host.Outcome State Fault Refusal :=
  .next (s.arrive (.fetch tag lgn first count) fun s => s.judgeFetchRequest tag lgn first count)

/-- The most granules a DISCARD names (R169). -/
def discardLimit : Nat := 65536

/-- The own judgement of a DISCARD (R169). -/
def State.discardOwn (s : State) (tag lgn count : Nat) : State :=
  if s.gmu.lgnCount ≤ lgn ∨ count = 0 ∨ discardLimit < count then s.refuse tag .badArgument
  else
    let last := min (lgn + count - 1) (s.gmu.lgnCount - 1)
    (s.markClamped tag (decide (last ≠ lgn + count - 1))).enterOrdering tag fun p e =>
      { e with lgns := some (lgn, last), sequence := some p, phase := .waiting }

/-- The judgement of a DISCARD (R167, R169, R185). -/
def State.judgeDiscard (s : State) (tag lgn count : Nat) : State :=
  s.judgeRequest codeDiscard tag fun s => s.inState takenData tag fun s => s.discardOwn tag lgn count

/-- DISCARD (R54, R169). -/
def execDiscard (tag lgn count : Nat) (s : State) : Host.Outcome State Fault Refusal :=
  .next (s.arrive (.discard tag lgn count) fun s => s.judgeDiscard tag lgn count)

/-! ### The resolution of a FETCH (R47 to R51) -/

/-- Where a sector of a FETCH comes from (R47). -/
inductive Source where
  | staged (r : Record)
  | home (h : Home)
  | zero
  | lost
  deriving DecidableEq, Repr

/-- The source of sector index `j` of a granule (R47). -/
def State.sourceOf (s : State) (lgn j : Nat) : Source :=
  match (s.chain lgn).find? fun r => decide (r.state = .live) && inRange r.first r.count j with
  | some r => .staged r
  | none =>
    match (s.entryOf lgn).home with
    | some h => .home h
    | none => if (s.entryOf lgn).lost then .lost else .zero

/-- Consecutive indices with one source: (source, first index, count), ascending (R49). -/
def sourceRuns : List (Nat × Source) → List (Source × Nat × Nat)
  | [] => []
  | (j, x) :: rest =>
    match sourceRuns rest with
    | (y, k, n) :: more => if y = x ∧ k = j + 1 then (x, j, n + 1) :: more else (x, j, 1) :: (y, k, n) :: more
    | [] => [(x, j, 1)]

/-- The media reads of one run of indices with one source (R48, R49). -/
def State.fetchRuns (s : State) (tag : Nat) (held : Option Granule) (x : Source × Nat × Nat) : List MediaOp :=
  match x.1 with
  | .staged r => s.recordRuns r.pos (1 + x.2.1 - r.first) x.2.2 x.2.1 .read (.fetchRecord r.pos) (some tag)
  | .home h => if held.isSome then [] else s.homeRuns h x.2.1 x.2.2 .read .fetchBand (some tag)
  | .zero => []
  | .lost => []

/-- The request buffer once zeros and held sectors are filled (R47 to R49). -/
def fillBuffer (g : Granule) (held : Option Granule) (sources : List (Nat × Source)) : Granule :=
  sources.foldl (fun g x => match x.2, held with
    | .zero, _ => granulePut g x.1 zeroSector
    | .home _, some c => granulePut g x.1 (granuleGet c x.1)
    | .home _, none => g
    | .staged _, _ => g
    | .lost, _ => g) g

/-- A FETCH's reads go to the head arbiter, or fail at once while the port is DOWN (R49, R51, R142). -/
def State.issueFetch (s : State) (tag : Nat) (runs : List MediaOp) : State :=
  if s.mpt.up then ((s.updEntry tag fun e => { e with left := runs.length }).handOverAll runs).judgeFetch tag
  else if runs.isEmpty then s.judgeFetch tag
  else (s.spendIds runs.length).finish tag .mediaDown []

/-- A FETCH starts: every sector resolved at once, the buffer filled, the reads issued (R47 to R51). -/
def State.startFetch (s : State) (e : Entry) : State :=
  let lgn := (e.lgns.getD (0, 0)).1
  let range := e.range.getD (0, 0)
  let sources := (rangeIndices range.1 range.2).map fun j => (j, s.sourceOf lgn j)
  if sources.any fun x => decide (x.2 = .lost) then s.finish e.tag .unrecovered []
  else
    let held := (s.entryOf lgn).home.bind s.heldCopy
    let runs := ((sourceRuns sources).map (s.fetchRuns e.tag held)).flatten
    (s.updEntry e.tag fun x => { x with buffer := fillBuffer x.buffer held sources }).issueFetch e.tag runs

/-! ### Starting (R170) -/

/-- Whether two entries name a common LGN (R170). -/
def Entry.conflicts (a b : Entry) : Bool :=
  match a.lgns, b.lgns with
  | some x, some y => decide (x.1 ≤ y.2) && decide (y.1 ≤ x.2)
  | some _, none => false
  | none, _ => false

/-- The first WAITING entry, in admission order, that no earlier entry blocks (R170). -/
def startable : (earlier : List Entry) → List Entry → Option Entry
  | _, [] => none
  | earlier, e :: es =>
    if e.phase = .waiting ∧ (earlier.any fun x => x.conflicts e) = false then some e else startable (e :: earlier) es

/-- The DONE fields of a DISCARD (R169, R195). -/
def Entry.discardFields (e : Entry) : List Field :=
  let r := e.lgns.getD (0, 0)
  [.num 4 r.1, .num 4 r.2, .num 4 0, .num 8 (e.sequence.getD 0)]

/-- A DISCARD starts: applied whole, and replied (R54). -/
def State.startDiscard (s : State) (e : Entry) : State :=
  let r := e.lgns.getD (0, 0)
  (s.discardRange (e.sequence.getD 0) (r.2 + 1 - r.1) r.1).finish e.tag .done e.discardFields

/-- A started request handed to its owner (R170). -/
def State.handToOwner (s : State) (e : Entry) : State :=
  if e.code = codeStore then
    if e.range = some (0, 16) then s.takeStore e else s.takePartial e
  else if e.code = codeFetch then s.startFetch e
  else s.startDiscard e

/-- REQUEST_START: the first WAITING entry that nothing blocks becomes ACTIVE and goes to its owner (R170). -/
def execRequestStart (s : State) : Host.Outcome State Fault Refusal :=
  .next (match startable [] s.rqu.entries with
    | some e => (s.updEntry e.tag fun x => { x with phase := .active }).handToOwner { e with phase := .active }
    | none => s)

/-! ### Releases and expiry (R171 to R173) -/

/-- Hand released STOREs to their owner, in list order (R172). -/
def State.releaseEach (s : State) (take : State → Entry → State) (tags : List Nat) : State :=
  tags.foldl (fun s t => match s.entry? t with
    | some e => take s e
    | none => s) s

/-- Release every STORE held for a reason: all leave the held list, then each goes to its owner (R172). -/
def State.release (s : State) (why : HoldReason) (take : State → Entry → State) : State :=
  let tags := s.heldFor why
  (tags.foldl State.unhold s).releaseEach take tags

/-- PRESSURE_RELEASE (R172). Where PRESSURE has been set again since its clearing was reported, nothing is released
and the STOREs stay held with their timers (DESIGN CHOICE, log entry 42). -/
def execPressureRelease (s : State) : Host.Outcome State Fault Refusal :=
  .next (if s.btu.pressure = false then s.release .pressure State.takeStore else s)

/-- LOG_RELEASE (R98, R172). Where the log-held condition has been set again since its clearing, nothing is released
and the STOREs stay held with their timers (DESIGN CHOICE, log entry 42). -/
def execLogRelease (s : State) : Host.Outcome State Fault Refusal :=
  .next (if s.slu.logHeld = false then s.release .log State.takePartial else s)

/-- Whether the hold timer of a tag has run out. -/
def State.holdExpired (s : State) (tag : Nat) : Bool :=
  match s.entry? tag with
  | some e => decide (e.holdTimer = some 0)
  | none => false

/-- HOLD_EXPIRY: the first STORE of the held list whose timer has run out is replied NO_SPACE (R173). Of several whose
timers reach 0 at one tick, the first of the held list is taken first (DESIGN CHOICE, log entry 41). -/
def execHoldExpiry (s : State) : Host.Outcome State Fault Refusal :=
  .next (match s.rqu.held.find? s.holdExpired with
    | some t => s.finish t .noSpace []
    | none => s)

end Sys2Proof.Machine
end

