-- ==== Sys2Proof/Machine/Inspect.lean ====
section
/-!
DEFINITION. Machine/Inspect.lean: the twelve INSPECT kinds (R189) and their reply bodies (R197, R198).
-/

namespace Sys2Proof.Machine

/-- An INSPECT taken where its kind allows, answered with the fields of `report`, or BAD_ARGUMENT where there are none
(R185, R189). -/
def State.judgeInspect (s : State) (t : TakenIn) (tag : Nat) (report : State → Option (List Field)) : State :=
  s.judgeRequest codeInspect tag fun s => s.inState t tag fun s =>
    match report s with
    | some fields => s.finish tag .done fields
    | none => s.refuse tag .badArgument

/-! ### Zone, band, granule, pool, stream, log -/

/-- The zone kind (R1, R198). -/
def State.reportZone (s : State) (z : Nat) : Option (List Field) :=
  (s.btu.zones[z]?).map fun d =>
    [.num 1 z, .num 3 0, .raw d.bytes, .num 4 (zoneBands d), .num 4 (firstBand s.btu.zones z), .num 2 (zoneCap d),
      .num 1 (zoneTail d), .num 1 0]

/-- The band kind (R18, R197). -/
def State.reportBand (s : State) (b : Nat) : Option (List Field) :=
  (s.band? b).map fun d =>
    [.num 4 d.number, .num 1 d.zone, .num 1 d.state.code, optNum 1 (d.stream.map Fin.val),
      optNum 1 (d.closeReason.map CloseReason.code), .num 4 d.frontier, .num 2 (s.geo b).cap, .num 2 d.live,
      .num 2 d.dead, .num 2 d.torn, .num 2 d.readers, .num 1 d.retry, .num 1 d.fatigue, boolNum 1 d.holdBlocked,
      optNum 1 (d.prior.map BandState.code), .num 2 0, .num 8 (d.closeOrder.getD 0)]

/-- The granule kind (R42, R197). -/
def State.reportGranule (s : State) (lgn : Nat) : Option (List Field) :=
  if s.gmu.lgnCount ≤ lgn then none
  else
    let e := s.entryOf lgn
    some [.num 4 lgn, optNum 4 (e.home.map Home.band), optNum 2 (e.home.map Home.slot),
      .num 1 (e.marks + 8 * (e.home.bind s.heldCopy).isSome.toNat), .num 1 e.overlays, .num 8 e.base, optNum 4 e.newest,
      .num 4 0, .num 8 s.gmu.sequence]

/-- The first `n` places of a list of band numbers, unused places absent (R198). -/
def bandPlaces : (n : Nat) → List Nat → List Field
  | 0, _ => []
  | n + 1, [] => optNum 4 none :: bandPlaces n []
  | n + 1, b :: bs => .num 4 b :: bandPlaces n bs

/-- The pool kind (R24, R198). -/
def State.reportPool (s : State) : List Field :=
  [.num 4 s.freeCount, .num 1 s.btu.reserve, boolNum 1 s.btu.pressure, .num 2 0, .num 8 s.btu.closeOrder,
    .num 4 s.btu.refresh.length] ++ bandPlaces 64 s.btu.refresh

/-- The re-placement items of a stream's FIFO. -/
def Stream.replacements (x : Stream) : Nat := x.fifo.countP fun it => it.work.isReplace

/-- The free buffers of the retention pool (R63). -/
def State.freeRetention (s : State) : Nat :=
  Config.retentionBuffers - (allStreams.map fun n => (s.stream n).exposed.length + (s.stream n).replacements).sum

/-- The stream kind (R61, R198). -/
def State.reportStream (s : State) (n : Nat) : Option (List Field) :=
  if 8 < n then none
  else
    let x := s.stream (streamOf n)
    some [.num 1 n, .num 1 x.lo, .num 1 x.hi, boolNum 1 x.openPending, optNum 4 x.openBand,
      optNum 4 (x.openBand.map s.frontier), optNum 2 (x.openBand.map fun _ => x.exposed.length), .num 2 x.fifo.length,
      .num 2 x.replacements, .num 2 0, optNum 4 (x.recovery.map Recovery.band), .num 2 s.freeRetention, .num 2 0]

/-- The fold stage byte (R197). -/
def Slu.stageCode (l : Slu) : Nat :=
  match l.fold with
  | none => 0
  | some f => match f.stage with
    | .reading => 1
    | .writing => 2

/-- The records of the directory in a state. -/
def Slu.countState (l : Slu) (x : RecState) : Nat := l.dir.countP fun r => decide (r.state = x)

/-- The log kind (R87, R99, R197). -/
def State.reportLog (s : State) : List Field :=
  let l := s.slu
  [.num 4 l.area.firstTrack, .num 2 l.area.tracks, .num 2 l.area.spt, .num 4 (areaCap l.area), .num 4 (softLimit l.area),
    .num 4 (foldStart l.area), .num 4 l.head, .num 4 l.tail, .num 4 l.used, .num 2 l.dir.length,
    .num 2 (l.countState .writing), .num 2 (l.countState .live), .num 2 (l.countState .dead), boolNum 1 l.logHeld,
    .num 1 l.stageCode, optNum 1 (l.fold.map fun f => f.target.val), .num 1 l.overlayWait.length,
    .num 1 l.foldReqs.length, .num 3 0, optNum 4 (l.fold.map Fold.lgn), optNum 8 (l.fold.map Fold.generation)]

/-! ### Cleaner, qualification, port -/

/-- The batch entries in a copy state. -/
def Victim.countCopies (v : Victim) (x : CopyState) : Nat := v.batch.countP fun e => decide (e.state = x)

/-- The cleaner kind (R111, R125, R198). -/
def State.reportCleaner (s : State) : List Field :=
  let c := s.cle
  let v := c.victim
  [.num 1 c.stage.code, optNum 1 (v.map fun v => v.origin.code), optNum 1 (v.bind Victim.tag), .num 1 0,
    optNum 4 (v.map Victim.band), optNum 2 (v.map Victim.cursor), optNum 2 (v.map Victim.accepted),
    optNum 2 (v.map Victim.rejected), optNum 2 (v.map Victim.lost), optNum 2 (v.map Victim.skipped),
    optNum 1 (v.map fun v => v.countCopies .reading), optNum 1 (v.map fun v => v.countCopies .read),
    optNum 1 (v.map fun v => v.countCopies .down), optNum 1 (v.map fun v => v.countCopies .handed),
    optNum 1 (v.map fun v => v.countCopies .ended), .num 1 0] ++ c.pacer.fields
    ++ [.num 2 c.threshold, .num 1 c.hostList.length, .num 1 0] ++ bandPlaces 32 (c.hostList.map Prod.snd)

/-- A pass's byte (R198). -/
def QualPass.code : QualPass → Nat
  | .write => 0 | .read => 1

/-- The qualification kind (R133, R198). -/
def State.reportQualification (s : State) : List Field :=
  let q := s.qen.qual
  let r := s.qen.last
  [boolNum 1 q.isSome, optNum 1 (q.map fun q => q.pass.code),
    optNum 1 (q.map fun q => q.stop.toNat + 2 * q.stopTag.isSome.toNat), optNum 1 (q.bind Qual.stopTag),
    optNum 4 (q.map Qual.band), optNum 2 (q.map Qual.threshold), optNum 2 (q.map Qual.track),
    optNum 2 ((q.bind Qual.run).map Prod.fst), optNum 2 ((q.bind Qual.run).map Prod.snd), optNum 2 (q.map Qual.errors),
    optNum 2 (q.map Qual.tracksDone), optNum 2 (q.map fun q => q.faults.length), boolNum 1 r.isSome,
    optNum 1 (r.map fun r => r.outcome.code), optNum 4 (r.map LastResult.band), optNum 2 (r.map LastResult.errors),
    optNum 2 (r.map LastResult.tracksDone)]

/-- A target's number (R198). -/
def Target.code : Target → Nat
  | .band b => b
  | .staging => 0xFFFFFFFE

/-- The operation in progress (R147, R198); all fields absent for none. -/
def opFields (o : Option MediaOp) : List Field :=
  [optNum 4 (o.map MediaOp.id), optNum 1 (o.map fun o => o.cls.code), optNum 1 (o.map fun o => if o.isWrite then 1 else 2),
    optNum 1 (o.map MediaOp.defers), optNum 1 (o.map MediaOp.retries), optNum 4 (o.map fun o => o.target.code),
    optNum 4 (o.map MediaOp.track), optNum 2 (o.map MediaOp.first), optNum 2 (o.map MediaOp.count),
    optNum 2 (o.map MediaOp.sectorsDone), optNum 1 (o.map fun o => o.servoUsed.toNat), .num 1 0]

/-- The port kind (R147, R198). -/
def State.reportPort (s : State) : List Field :=
  let m := s.mpt
  [boolNum 1 (!m.up), .num 1 m.stage.code, .num 1 m.failures, .num 1 m.latched.toNat, .num 1 s.har.mask.code]
    ++ (effectiveOrder s.btu.pressure s.slu.logHeld).map (fun c => .num 1 c.code) ++ [.num 2 0] ++ opFields m.op
    ++ allClasses.map (fun c => .num 2 (s.har.queue c).length) ++ allClasses.map (fun c => .num 1 (s.har.skip c))
    ++ [.num 1 0]

/-! ### Link, event, controller -/

/-- The link kind (R166, R198). -/
def State.reportLink (s : State) : List Field :=
  [.num 2 s.flu.errors, .num 1 s.flu.assembler.code, .num 1 s.flu.outbound.length, .num 4 s.rqu.holdTimeout,
    .num 1 s.rqu.entries.length, .num 3 0]
    ++ (s.rqu.entries.map fun e =>
      [.num 1 e.tag, .num 1 e.code, .num 1 e.phase.code, optNum 1 (e.holdReason.map HoldReason.code)]).flatten

/-- A window's twelve bytes in the event kind (R198). A free window has its overrun mark clear (R182, R183); its mode
and range are absent (R194; log entry 25). -/
def windowReport (w : Option Window) : List Field :=
  match w with
  | some x => [.num 1 1, .num 1 x.mode.code, boolNum 1 x.overrun, .num 1 0, .num 4 x.lo, .num 4 x.hi]
  | none => [.num 1 0, optNum 1 none, boolNum 1 false, .num 1 0, optNum 4 none, optNum 4 none]

/-- The event kind (R176, R198). -/
def State.reportEvent (s : State) : List Field :=
  let v := s.evu
  [.num 2 v.flags.toNat, .num 2 v.enables.toNat] ++ allFlags.map (fun i => .num 4 v.details[i.val])
    ++ [.num 1 v.watchQueue.length, .num 3 0] ++ (allWindows.map fun w => windowReport v.windows[w.val]).flatten

/-- The busy blocks: SWR, SLU, CLE, QEN (R198). -/
def State.busyBlocks (s : State) : Nat :=
  (!s.swrIdle).toNat + 2 * (!s.sluIdle).toNat + 4 * (!s.cleIdle).toNat + 8 * s.qen.qual.isSome.toNat

/-- A value present in a formatted state (R189). -/
def State.formatted (s : State) (v : Nat) : Option Nat := if s.ctl.mode = .unformatted then none else some v

/-- The controller kind (R189, R198). -/
def State.reportController (s : State) : List Field :=
  [.num 1 s.ctl.mode.code, optNum 1 s.ctl.quiesceTag, .num 1 s.busyBlocks, .num 1 s.rqu.entries.length,
    optNum 4 (s.ctl.imageLoad.map ImageLoad.next), optNum 4 (s.ctl.imageLoad.map ImageLoad.count),
    optNum 4 (s.formatted s.gmu.lgnCount), optNum 4 (s.formatted s.bandCount),
    optNum 1 (s.formatted s.btu.zones.length), optNum 1 (s.formatted s.btu.reserve), .num 2 0,
    optNum 4 (s.formatted (chunksOf s.imageLength))]

/-- The controller kind's byte (R195). -/
def kindController : Nat := 12

/-! ### The commands (R189) -/

/-- The judgement of INSPECT zone. -/
def State.judgeInspectZone (s : State) (tag zone : Nat) : State :=
  s.judgeInspect takenFormatted tag fun s => s.reportZone zone

/-- INSPECT zone (R189). -/
def execInspectZone (tag zone : Nat) (s : State) : Host.Outcome State Fault Refusal :=
  .next (s.arrive (.inspectZone tag zone) fun s => s.judgeInspectZone tag zone)

/-- The judgement of INSPECT band. -/
def State.judgeInspectBand (s : State) (tag band : Nat) : State :=
  s.judgeInspect takenFormatted tag fun s => s.reportBand band

/-- INSPECT band (R189). -/
def execInspectBand (tag band : Nat) (s : State) : Host.Outcome State Fault Refusal :=
  .next (s.arrive (.inspectBand tag band) fun s => s.judgeInspectBand tag band)

/-- The judgement of INSPECT granule. -/
def State.judgeInspectGranule (s : State) (tag lgn : Nat) : State :=
  s.judgeInspect takenFormatted tag fun s => s.reportGranule lgn

/-- INSPECT granule (R189). -/
def execInspectGranule (tag lgn : Nat) (s : State) : Host.Outcome State Fault Refusal :=
  .next (s.arrive (.inspectGranule tag lgn) fun s => s.judgeInspectGranule tag lgn)

/-- The judgement of INSPECT pool. -/
def State.judgeInspectPool (s : State) (tag : Nat) : State :=
  s.judgeInspect takenFormatted tag fun s => some s.reportPool

/-- INSPECT pool (R189). -/
def execInspectPool (tag : Nat) (s : State) : Host.Outcome State Fault Refusal :=
  .next (s.arrive (.inspectPool tag) fun s => s.judgeInspectPool tag)

/-- The judgement of INSPECT stream. -/
def State.judgeInspectStream (s : State) (tag stream : Nat) : State :=
  s.judgeInspect takenFormatted tag fun s => s.reportStream stream

/-- INSPECT stream (R189). -/
def execInspectStream (tag stream : Nat) (s : State) : Host.Outcome State Fault Refusal :=
  .next (s.arrive (.inspectStream tag stream) fun s => s.judgeInspectStream tag stream)

/-- The judgement of INSPECT log. -/
def State.judgeInspectLog (s : State) (tag : Nat) : State :=
  s.judgeInspect takenFormatted tag fun s => some s.reportLog

/-- INSPECT log (R189). -/
def execInspectLog (tag : Nat) (s : State) : Host.Outcome State Fault Refusal :=
  .next (s.arrive (.inspectLog tag) fun s => s.judgeInspectLog tag)

/-- The judgement of INSPECT cleaner. -/
def State.judgeInspectCleaner (s : State) (tag : Nat) : State :=
  s.judgeInspect takenAlways tag fun s => some s.reportCleaner

/-- INSPECT cleaner (R189). -/
def execInspectCleaner (tag : Nat) (s : State) : Host.Outcome State Fault Refusal :=
  .next (s.arrive (.inspectCleaner tag) fun s => s.judgeInspectCleaner tag)

/-- The judgement of INSPECT qualification. -/
def State.judgeInspectQualification (s : State) (tag : Nat) : State :=
  s.judgeInspect takenAlways tag fun s => some s.reportQualification

/-- INSPECT qualification (R189). -/
def execInspectQualification (tag : Nat) (s : State) : Host.Outcome State Fault Refusal :=
  .next (s.arrive (.inspectQualification tag) fun s => s.judgeInspectQualification tag)

/-- The judgement of INSPECT port. -/
def State.judgeInspectPort (s : State) (tag : Nat) : State :=
  s.judgeInspect takenAlways tag fun s => some s.reportPort

/-- INSPECT port (R189). -/
def execInspectPort (tag : Nat) (s : State) : Host.Outcome State Fault Refusal :=
  .next (s.arrive (.inspectPort tag) fun s => s.judgeInspectPort tag)

/-- The judgement of INSPECT link. -/
def State.judgeInspectLink (s : State) (tag : Nat) : State :=
  s.judgeInspect takenAlways tag fun s => some s.reportLink

/-- INSPECT link (R189). -/
def execInspectLink (tag : Nat) (s : State) : Host.Outcome State Fault Refusal :=
  .next (s.arrive (.inspectLink tag) fun s => s.judgeInspectLink tag)

/-- The judgement of INSPECT event. -/
def State.judgeInspectEvent (s : State) (tag : Nat) : State :=
  s.judgeInspect takenAlways tag fun s => some s.reportEvent

/-- INSPECT event (R189). -/
def execInspectEvent (tag : Nat) (s : State) : Host.Outcome State Fault Refusal :=
  .next (s.arrive (.inspectEvent tag) fun s => s.judgeInspectEvent tag)

/-- The judgement of INSPECT controller, or of a kind byte that names no kind, which is refused (log entry 9). -/
def State.judgeInspectController (s : State) (tag kind : Nat) : State :=
  s.judgeInspect takenAlways tag fun s => if kind = kindController then some s.reportController else none

/-- INSPECT controller (R189). -/
def execInspectController (tag kind : Nat) (s : State) : Host.Outcome State Fault Refusal :=
  .next (s.arrive (.inspectController tag kind) fun s => s.judgeInspectController tag kind)

end Sys2Proof.Machine
end

