-- ==== Sys2Proof/Machine/Machinery.lean ====
section
/-!
DEFINITION. Machine/Machinery.lean: the requests that set machinery to work (FOLD, CLEAN, QUALIFY, QUALIFY_STOP,
MEDIA_RESTART) and the machinery's own steps (the tick, the pacer, fold and victim choices, batches, band resets, waiting
opens).
-/

namespace Sys2Proof.Machine

/-! ### FOLD (R101) -/

/-- The largest fold count (R101). -/
def foldCountLimit : Nat := 1024

/-- The own judgement of a FOLD (R101). -/
def State.foldOwn (s : State) (tag count : Nat) : State :=
  if count = 0 then s.refuse tag .badArgument
  else
    let q : FoldReq := { tag := tag, count := min count foldCountLimit }
    let s := s.markClamped tag (decide (foldCountLimit < count))
    if s.slu.fold.isNone = true ∧ s.anyLiveRecord = false then s.finish tag .done (q.fields true)
    else { s with slu := { s.slu with foldReqs := s.slu.foldReqs ++ [q] } }

/-- The judgement of a FOLD (R101, R185). -/
def State.judgeFoldRequest (s : State) (tag count : Nat) : State :=
  s.judgeRequest codeFold tag fun s => s.inState takenData tag fun s => s.foldOwn tag count

/-- FOLD (R101). -/
def execFold (tag count : Nat) (s : State) : Host.Outcome State Fault Refusal :=
  .next (s.arrive (.fold tag count) fun s => s.judgeFoldRequest tag count)

/-! ### CLEAN (R128) -/

/-- The own judgement of a CLEAN, in the order of R128. -/
def State.cleanOwn (s : State) (tag band : Nat) : State :=
  match s.band? band with
  | none => s.refuse tag .badArgument
  | some bd =>
    if s.cle.hostList.any fun e => decide (e.2 = band) then s.refuse tag .busy
    else if bd.state ≠ .full then s.refuse tag .wrongState
    else if s.mpt.up = false then s.finish tag .mediaDown []
    else { s with cle := { s.cle with hostList := s.cle.hostList ++ [(tag, band)] } }

/-- The judgement of a CLEAN (R128, R185). -/
def State.judgeClean (s : State) (tag band : Nat) : State :=
  s.judgeRequest codeClean tag fun s => s.inState takenData tag fun s => s.cleanOwn tag band

/-- CLEAN (R128). -/
def execClean (tag band : Nat) (s : State) : Host.Outcome State Fault Refusal :=
  .next (s.arrive (.clean tag band) fun s => s.judgeClean tag band)

/-! ### QUALIFY and QUALIFY_STOP (R134, R139) -/

/-- A QUALIFY accepted: the band QUALIFYING, the record built, the write pass started, DONE replied (R134). -/
def State.acceptQualify (s : State) (tag : Nat) (bd : Band) (threshold : Nat) : State :=
  ((s.enterQualifying bd).startTrackWrite { band := bd.number, threshold := threshold }).finish tag .done
    [.num 4 bd.number, .num 2 threshold, .num 2 0]

/-- The own judgement of a QUALIFY, in the order of R134; `marks` bit 0 says that a threshold is present (R196). -/
def State.qualifyOwn (s : State) (tag band threshold marks : Nat) : State :=
  match s.band? band with
  | none => s.refuse tag .badArgument
  | some bd =>
    if 2 ≤ marks then s.refuse tag .badArgument
    else if s.qen.qual.isSome then s.refuse tag .busy
    else if s.mpt.up = false then s.refuse tag .mediaDown
    else match s.qualifyAnswer bd with
      | .done => s.acceptQualify tag bd (if marks = 1 then threshold else 0)
      | st => s.refuse tag st

/-- The judgement of a QUALIFY (R134, R185). -/
def State.judgeQualify (s : State) (tag band threshold marks : Nat) : State :=
  s.judgeRequest codeQualify tag fun s => s.inState takenData tag fun s => s.qualifyOwn tag band threshold marks

/-- QUALIFY (R134). -/
def execQualify (tag band threshold marks : Nat) (s : State) : Host.Outcome State Fault Refusal :=
  .next (s.arrive (.qualify tag band threshold marks) fun s => s.judgeQualify tag band threshold marks)

/-- The own judgement of a QUALIFY_STOP (R139). -/
def State.qualifyStopOwn (s : State) (tag : Nat) : State :=
  match s.qen.qual with
  | none => s.refuse tag .wrongState
  | some q => if q.stopTag.isSome then s.refuse tag .busy else s.stopQual (some tag)

/-- The judgement of a QUALIFY_STOP (R139, R185). -/
def State.judgeQualifyStop (s : State) (tag : Nat) : State :=
  s.judgeRequest codeQualifyStop tag fun s => s.inState takenFormatted tag fun s => s.qualifyStopOwn tag

/-- QUALIFY_STOP (R139). -/
def execQualifyStop (tag : Nat) (s : State) : Host.Outcome State Fault Refusal :=
  .next (s.arrive (.qualifyStop tag) fun s => s.judgeQualifyStop tag)

/-! ### MEDIA_RESTART (R159) -/

/-- A PROBE sent under its own order number (R148, R159). -/
def State.sendProbe (s : State) (tag : Nat) : State :=
  let n := s.mpt.orderNo
  let s' := s.sendOrder (.probe n)
  { s' with mpt := { s'.mpt with stage := .probing, op := none, order := ⟨n, 0, 0⟩, restartTag := some tag } }

/-- The own judgement of a MEDIA_RESTART (R159). -/
def State.mediaRestartOwn (s : State) (tag : Nat) : State :=
  if s.mpt.up then s.finish tag .done []
  else if s.mpt.stage = .probing then s.refuse tag .busy
  else s.sendProbe tag

/-- The judgement of a MEDIA_RESTART (R159, R185). -/
def State.judgeMediaRestart (s : State) (tag : Nat) : State :=
  s.judgeRequest codeMediaRestart tag fun s => s.inState takenFormatted tag fun s => s.mediaRestartOwn tag

/-- MEDIA_RESTART (R159). -/
def execMediaRestart (tag : Nat) (s : State) : Host.Outcome State Fault Refusal :=
  .next (s.arrive (.mediaRestart tag) fun s => s.judgeMediaRestart tag)

/-! ### Time (R126, R171) -/

/-- A hold timer one millisecond on; one at 0 waits for its expiry (R171, R173). -/
def Entry.tick (e : Entry) : Entry := { e with holdTimer := e.holdTimer.map fun t => t - 1 }

/-- MS_TICK: the TIME-mode pacer and every hold timer count down (R126, R171). -/
def execMsTick (s : State) : Host.Outcome State Fault Refusal :=
  .next { s with
    cle := { s.cle with pacer := s.cle.pacer.decrease .time }
    rqu := { s.rqu with entries := s.rqu.entries.map Entry.tick } }

/-- PACER_UNDERFLOW: the decrease of a RUN pacer at count 1 (R126). -/
def execPacerUnderflow (s : State) : Host.Outcome State Fault Refusal :=
  .next (if s.cle.pacer.running = true ∧ s.cle.pacer.count = 1 then
      { s with cle := { s.cle with pacer := s.cle.pacer.countDown } }
    else s)

/-! ### Choices and band resets (R26, R33, R100, R113, R118) -/

/-- FOLD_CHOICE (R100). -/
def execFoldChoice (s : State) : Host.Outcome State Fault Refusal :=
  .next (match s.foldCause with
    | some lgn => s.startFold lgn
    | none => s)

/-- VICTIM_CHOICE (R113, R114, R130). -/
def execVictimChoice (s : State) : Host.Outcome State Fault Refusal :=
  .next (
    if s.cle.stage = .idle ∧ s.mpt.up = true then
      match s.ctl.mode with
      | .online => s.choose true s.cle.hostList
      | .quiescing => s.choose false s.cle.hostList
      | .quiesced => s
      | .unformatted => s
    else s)

/-- BATCH_START: a waiting or halted walk starts its next batch, if it may proceed (R118, R129, R130). -/
def execBatchStart (s : State) : Host.Outcome State Fault Refusal :=
  .next (
    if (s.cle.stage = .waitCredit ∨ s.cle.stage = .halted) ∧ s.walkMayProceed = true then s.startBatch else s)

/-- BAND_RESET (R33, R123). In QUIESCED no band work runs and the tables stand still (R190), so it changes nothing there;
a part does not come into QUIESCED with a reset due (log entry 57). -/
def execBandReset (s : State) : Host.Outcome State Fault Refusal :=
  .next (if s.ctl.mode = .quiesced then s
    else match s.pendingReset with
    | some (v, bd) => (s.resetBand bd).victimEnd v bd.resetState
    | none => s)

/-- OPEN_WAIT_GRANT: the oldest waiting open is granted a band of the free pool, and its stream goes on (R26, R27). -/
def execOpenWaitGrant (s : State) : Host.Outcome State Fault Refusal :=
  .next (match s.btu.openWait with
    | n :: rest =>
      if s.freeCount = 0 then s
      else (({ s with btu := { s.btu with openWait := rest } }).grantOpen n).pump n
    | [] => s)

end Sys2Proof.Machine
end

