-- ==== Sys2Proof/Machine/Settings.lean ====
section
/-!
DEFINITION. Machine/Settings.lean: the requests that change a setting at arrival: STREAM_SET, PACER_SET, MASK_SET,
WATCH_SET, WATCH_CLEAR, EVENT_ENABLE, EVENT_ACK.
-/

namespace Sys2Proof.Machine

/-! ### STREAM_SET (R62) -/

/-- The own judgement of a STREAM_SET (R62). -/
def State.streamSetOwn (s : State) (tag stream lo hi : Nat) : State :=
  if 8 ≤ stream ∨ 31 < lo ∨ 31 < hi ∨ hi < lo then s.refuse tag .badArgument
  else (s.updStream (streamOf stream) fun x => { x with lo := lo, hi := hi }).finish tag .done
    [.num 1 stream, .num 1 lo, .num 1 hi, .num 1 0]

/-- The judgement of a STREAM_SET (R62, R185). -/
def State.judgeStreamSet (s : State) (tag stream lo hi : Nat) : State :=
  s.judgeRequest codeStreamSet tag fun s => s.inState takenStreamSet tag fun s => s.streamSetOwn tag stream lo hi

/-- STREAM_SET (R62). -/
def execStreamSet (tag stream lo hi : Nat) (s : State) : Host.Outcome State Fault Refusal :=
  .next (s.arrive (.streamSet tag stream lo hi) fun s => s.judgeStreamSet tag stream lo hi)

/-! ### PACER_SET (R125) -/

/-- The pacer after a PACER_SET (R125). -/
def Pacer.after (p : Pacer) (mode : PacerMode) (running withReset : Bool) (reload : Nat) : Pacer :=
  let reload := max reload 1
  { p with mode := mode, running := running, reload := reload, count := if withReset then reload else p.count }

/-- Set the pacer. -/
def State.setPacer (s : State) (p : Pacer) : State := { s with cle := { s.cle with pacer := p } }

/-- The own judgement of a PACER_SET (R125, R196). -/
def State.pacerSetOwn (s : State) (tag mode running resetOption reload : Nat) : State :=
  match PacerMode.ofCode mode, boolByte running, boolByte resetOption with
  | some m, some r, some o =>
    let p := s.cle.pacer.after m r o reload
    ((s.markClamped tag (decide (reload = 0))).setPacer p).finish tag .done p.fields
  | _, _, _ => s.refuse tag .badArgument

/-- The judgement of a PACER_SET (R125, R185). -/
def State.judgePacerSet (s : State) (tag mode running resetOption reload : Nat) : State :=
  s.judgeRequest codePacerSet tag fun s => s.inState takenFormatted tag fun s =>
    s.pacerSetOwn tag mode running resetOption reload

/-- PACER_SET (R125). -/
def execPacerSet (tag mode running resetOption reload : Nat) (s : State) : Host.Outcome State Fault Refusal :=
  .next (s.arrive (.pacerSet tag mode running resetOption reload) fun s =>
    s.judgePacerSet tag mode running resetOption reload)

/-! ### MASK_SET (R127, R146, R174) -/

/-- The HAR under a new service mask: a masked class's skip counter is 0, and a class that was masked and is no longer
resumes with 0 (R146). A class masked neither before nor after keeps its counter: a DESIGN CHOICE of the model, log
entry 49. -/
def Har.setMask (h : Har) (m : Mask) : Har :=
  { h with
    mask := m
    skips := allClasses.foldl (fun v c => if h.mask.has c || m.has c then v.set c.index.val 0 else v) h.skips }

/-- The settings of a MASK_SET taken (R127, R146, R174). -/
def State.applyMask (s : State) (m : Mask) (threshold timeout : Nat) : State :=
  { s with
    har := s.har.setMask m
    cle := { s.cle with threshold := min threshold 1024 }
    rqu := { s.rqu with holdTimeout := clampTo 100 60000 timeout } }

/-- The own judgement of a MASK_SET (R146, R196). -/
def State.maskSetOwn (s : State) (tag mask threshold timeout : Nat) : State :=
  match Mask.ofCode mask with
  | some m =>
    let t := clampTo 100 60000 timeout
    ((s.markClamped tag (decide (1024 < threshold) || decide (t ≠ timeout))).applyMask m threshold timeout).finish tag
      .done [.num 1 m.code, .num 1 0, .num 2 (min threshold 1024), .num 4 t]
  | none => s.refuse tag .badArgument

/-- The judgement of a MASK_SET (R146, R185). -/
def State.judgeMaskSet (s : State) (tag mask threshold timeout : Nat) : State :=
  s.judgeRequest codeMaskSet tag fun s => s.inState takenFormatted tag fun s => s.maskSetOwn tag mask threshold timeout

/-- MASK_SET (R146). -/
def execMaskSet (tag mask threshold timeout : Nat) (s : State) : Host.Outcome State Fault Refusal :=
  .next (s.arrive (.maskSet tag mask threshold timeout) fun s => s.judgeMaskSet tag mask threshold timeout)

/-! ### Watch windows (R34, R180) -/

/-- A window replaced, and the watch change reported to the BTU (R34, R180). -/
def State.setWindow (s : State) (w : Nat) (x : Option Window) : State :=
  ({ s with evu := { s.evu with windows := s.evu.windows.setIfInBounds w x } }).clearMarks

/-- The own judgement of a WATCH_SET (R180). -/
def State.watchSetOwn (s : State) (tag window mode lo hi : Nat) : State :=
  match WatchMode.ofCode mode with
  | some m =>
    if 8 ≤ window ∨ hi < lo ∨ s.gmu.lgnCount ≤ lo then s.refuse tag .badArgument
    else
      let x : Window := { lo := lo, hi := min hi (s.gmu.lgnCount - 1), mode := m }
      ((s.markClamped tag (decide (s.gmu.lgnCount ≤ hi))).setWindow window (some x)).finish tag .done
        (.num 1 window :: windowFields (some x))
  | none => s.refuse tag .badArgument

/-- The judgement of a WATCH_SET (R180, R185). -/
def State.judgeWatchSet (s : State) (tag window mode lo hi : Nat) : State :=
  s.judgeRequest codeWatchSet tag fun s => s.inState takenFormatted tag fun s => s.watchSetOwn tag window mode lo hi

/-- WATCH_SET (R180). -/
def execWatchSet (tag window mode lo hi : Nat) (s : State) : Host.Outcome State Fault Refusal :=
  .next (s.arrive (.watchSet tag window mode lo hi) fun s => s.judgeWatchSet tag window mode lo hi)

/-- The own judgement of a WATCH_CLEAR (R180). -/
def State.watchClearOwn (s : State) (tag window : Nat) : State :=
  if 8 ≤ window then s.refuse tag .badArgument
  else (s.setWindow window none).finish tag .done (.num 1 window :: windowFields none)

/-- The judgement of a WATCH_CLEAR (R180, R185). -/
def State.judgeWatchClear (s : State) (tag window : Nat) : State :=
  s.judgeRequest codeWatchClear tag fun s => s.inState takenFormatted tag fun s => s.watchClearOwn tag window

/-- WATCH_CLEAR (R180). -/
def execWatchClear (tag window : Nat) (s : State) : Host.Outcome State Fault Refusal :=
  .next (s.arrive (.watchClear tag window) fun s => s.judgeWatchClear tag window)

/-! ### Event enables and acknowledgement (R178, R179) -/

/-- The EVU with a new enable set (R178). -/
def State.setEnables (s : State) (e : BitVec 13) : State := { s with evu := { s.evu with enables := e } }

/-- Whether an enable set turns a set flag on (R178). -/
def Evu.turnsOn (v : Evu) (e : BitVec 13) : Bool := decide (v.flags &&& (e &&& ~~~v.enables) ≠ 0)

/-- The own judgement of an EVENT_ENABLE: the reply first, the notice after it (R178). -/
def State.eventEnableOwn (s : State) (tag set : Nat) : State :=
  match flagSet set with
  | some e =>
    let s' := (s.setEnables e).finish tag .done [.num 2 e.toNat, .num 2 0]
    if s.evu.turnsOn e then s'.push s'.evu.notice else s'
  | none => s.refuse tag .badArgument

/-- The judgement of an EVENT_ENABLE (R178, R185). -/
def State.judgeEventEnable (s : State) (tag set : Nat) : State :=
  s.judgeRequest codeEventEnable tag fun s => s.inState takenAlways tag fun s => s.eventEnableOwn tag set

/-- EVENT_ENABLE (R178). -/
def execEventEnable (tag set : Nat) (s : State) : Host.Outcome State Fault Refusal :=
  .next (s.arrive (.eventEnable tag set) fun s => s.judgeEventEnable tag set)

/-- The EVU with the flags of a set cleared; naming WATCH_OVERRUN clears every overrun mark (R179, R182). -/
def Evu.acknowledge (v : Evu) (e : BitVec 13) : Evu :=
  let v := { v with flags := v.flags &&& ~~~e }
  if e.getLsbD EventFlag.watchOverrun.index.val then v.clearOverruns else v

/-- An acknowledgement: the EVU's part, and the MPT's where MEDIA_DOWN is named (R157, R179). -/
def State.acknowledge (s : State) (e : BitVec 13) : State :=
  let s := { s with evu := s.evu.acknowledge e }
  if e.getLsbD EventFlag.mediaDown.index.val then { s with mpt := { s.mpt with latched := 0 } } else s

/-- The own judgement of an EVENT_ACK (R179). -/
def State.eventAckOwn (s : State) (tag set : Nat) : State :=
  match flagSet set with
  | some e => (s.acknowledge e).finish tag .done [.num 2 (s.acknowledge e).evu.flags.toNat, .num 2 0]
  | none => s.refuse tag .badArgument

/-- The judgement of an EVENT_ACK (R179, R185). -/
def State.judgeEventAck (s : State) (tag set : Nat) : State :=
  s.judgeRequest codeEventAck tag fun s => s.inState takenAlways tag fun s => s.eventAckOwn tag set

/-- EVENT_ACK (R179). -/
def execEventAck (tag set : Nat) (s : State) : Host.Outcome State Fault Refusal :=
  .next (s.arrive (.eventAck tag set) fun s => s.judgeEventAck tag set)

end Sys2Proof.Machine
end

