-- ==== Sys2Proof/Machine/Link.lean ====
section
/-!
DEFINITION. Machine/Link.lean: the frame link's own steps: link errors and markers (R163), malformed frames (R164), frames
sent and taken late, and WATCH notices drawn (R165).
-/

namespace Sys2Proof.Machine

/-! ### Malformed frames (R164) -/

/-- The judgement of a good frame that is not well formed: BAD_REQUEST, without an entry (R164). -/
def State.judgeBadRequest (s : State) (code tag : Nat) : State := s.reply code tag false .badRequest []

/-- BAD_REQUEST (R164). -/
def execBadRequest (code tag : Nat) (s : State) : Host.Outcome State Fault Refusal :=
  .next (s.arrive (.badRequest code tag) fun s => s.judgeBadRequest code tag)

/-! ### Good frames (R164, R165) -/

/-- The judgement of a good frame, as the command it is (R164, R165). -/
def State.judgeGood (s : State) : Instr → State
  | .store tag lgn first count stream payload => s.judgeStore tag lgn first count stream payload
  | .fetch tag lgn first count => s.judgeFetchRequest tag lgn first count
  | .discard tag lgn count => s.judgeDiscard tag lgn count
  | .fold tag count => s.judgeFoldRequest tag count
  | .clean tag band => s.judgeClean tag band
  | .qualify tag band threshold marks => s.judgeQualify tag band threshold marks
  | .qualifyStop tag => s.judgeQualifyStop tag
  | .streamSet tag stream lo hi => s.judgeStreamSet tag stream lo hi
  | .pacerSet tag mode running resetOption reload => s.judgePacerSet tag mode running resetOption reload
  | .maskSet tag mask threshold timeout => s.judgeMaskSet tag mask threshold timeout
  | .watchSet tag window mode lo hi => s.judgeWatchSet tag window mode lo hi
  | .watchClear tag window => s.judgeWatchClear tag window
  | .eventEnable tag set => s.judgeEventEnable tag set
  | .eventAck tag set => s.judgeEventAck tag set
  | .inspectZone tag zone => s.judgeInspectZone tag zone
  | .inspectBand tag band => s.judgeInspectBand tag band
  | .inspectGranule tag lgn => s.judgeInspectGranule tag lgn
  | .inspectPool tag => s.judgeInspectPool tag
  | .inspectStream tag stream => s.judgeInspectStream tag stream
  | .inspectLog tag => s.judgeInspectLog tag
  | .inspectCleaner tag => s.judgeInspectCleaner tag
  | .inspectQualification tag => s.judgeInspectQualification tag
  | .inspectPort tag => s.judgeInspectPort tag
  | .inspectLink tag => s.judgeInspectLink tag
  | .inspectEvent tag => s.judgeInspectEvent tag
  | .inspectController tag kind => s.judgeInspectController tag kind
  | .format tag lgnCount reserve area zones retired => s.judgeFormat tag lgnCount reserve area zones retired
  | .quiesce tag => s.judgeQuiesce tag
  | .resume tag => s.judgeResume tag
  | .imageRead tag index => s.judgeImageRead tag index
  | .imageWrite tag index chunk => s.judgeImageWrite tag index chunk
  | .imageCommit tag => s.judgeImageCommit tag
  | .mediaRestart tag => s.judgeMediaRestart tag
  | .reset tag => s.judgeReset tag
  | .badRequest code tag => s.judgeBadRequest code tag
  | .powerOnReset | .msTick | .badMarker | .overlength | .badCheck | .frameLimitExpiry | .frameSent
  | .deferredFrameTaken | .watchNoticeTaken | .holdExpiry | .pacerUnderflow | .claimLimitExpiry
  | .reissueDelayExpiry | .completionLimitExpiry | .abortLimitExpiry | .probeLimitExpiry | .accepted _ | .defer _
  | .finished _ _ _ _ | .data _ _ _ | .headGrant | .requestStart | .pressureRelease | .logRelease | .openWaitGrant
  | .bandReset | .quiesceComplete | .foldChoice | .victimChoice | .batchStart | .markerFound => s

/-! ### The receive frame assembler (R163) -/

/-- Whether the assembler takes bytes: not while a good frame waits in it (R165). -/
def State.takesBytes (s : State) : Bool := s.flu.waiting.isEmpty

/-- Set the assembler's state and the bytes it holds. -/
def State.setAssembler (s : State) (a : Assembler) (held : List Byte) : State :=
  { s with flu := { s.flu with assembler := a, held := held } }

/-- A frame error: counted, raised, and the assembler in SEEK (R163). -/
def State.frameError (s : State) : State :=
  let n := min (s.flu.errors + 1) 65535
  (({ s with flu := { s.flu with errors := n } }).setAssembler .seek []).raise .frameError n

/-- The first byte of a marker at the end of bytes that hold no marker pair. -/
def openMarker (bs : List Byte) : List Byte := if bs.getLast? = some 0xA5#8 then [0xA5#8] else []

/-- The assembler takes a run of bytes, from the state it is in (R163): in SEEK it discards up to a marker; in FRAME it
comes to an error and SEEK, which resumes at the byte behind the discarded frame's marker, or to a good frame, passed on
as if it arrived, or holds what it has of the frame; in READY two bytes that are no marker are an error and both
discarded. While a good frame waits, the bytes behind it wait too (R165). Each two rounds take two bytes or more, so
`fuel` of two more than the bytes is never used up. -/
def assembleFor : (fuel : Nat) → State → List Byte → State
  | 0, s, _ => s
  | fuel + 1, s, bs =>
    match s.flu.assembler with
    | .seek =>
      match findMarker bs with
      | some rest => assembleFor fuel (s.setAssembler .frame []) rest
      | none => s.setAssembler .seek (openMarker bs)
    | .frame =>
      if s.takesBytes then
        match takeFrame bs with
        | .short => s.setAssembler .frame bs
        | .overlength => assembleFor fuel s.frameError bs
        | .badCheck => assembleFor fuel s.frameError bs
        | .good i rest => assembleFor fuel (s.arrive i fun s => s.judgeGood i) rest
      else s.setAssembler .frame bs
    | .ready =>
      match bs with
      | a :: b :: rest =>
        if a = 0xA5#8 ∧ b = 0x3C#8 then assembleFor fuel (s.setAssembler .frame []) rest
        else assembleFor fuel s.frameError rest
      | [a] => s.setAssembler .ready [a]
      | [] => s.setAssembler .ready []

/-- The assembler takes a run of bytes (R163). -/
def State.assemble (s : State) (bs : List Byte) : State := assembleFor (bs.length + 2) s bs

/-- Bytes come on the link: they follow those the assembler holds, and it takes them (R163). The rows of the table carry
no bytes; this is how bytes themselves enter the part, and a frame command is what they come to (log entry 5). -/
def State.receive (s : State) (bs : List Byte) : State := s.assemble (s.flu.held ++ bs)

/-- A frame is discarded for an error: the error is counted, and SEEK takes again the bytes of the frame that the
assembler holds, those behind its marker (R163). In READY and SEEK the command stands for a whole frame, its marker
included (log entry 5). -/
def State.discardFrame (s : State) : State :=
  s.frameError.assemble (if s.flu.assembler = .frame then s.flu.held else [])

/-- MARKER_FOUND (R163). -/
def execMarkerFound (s : State) : Host.Outcome State Fault Refusal :=
  .next (if s.takesBytes = true ∧ s.flu.assembler ≠ .frame then s.setAssembler .frame [] else s)

/-- BAD_MARKER: only READY expects a marker (R163). -/
def execBadMarker (s : State) : Host.Outcome State Fault Refusal :=
  .next (if s.takesBytes = true ∧ s.flu.assembler = .ready then s.frameError else s)

/-- OVERLENGTH (R163). -/
def execOverlength (s : State) : Host.Outcome State Fault Refusal :=
  .next (if s.takesBytes then s.discardFrame else s)

/-- BAD_CHECK (R162, R163). -/
def execBadCheck (s : State) : Host.Outcome State Fault Refusal :=
  .next (if s.takesBytes then s.discardFrame else s)

/-- FRAME_LIMIT_EXPIRY: a TRUNCATED error. The frame limit does not apply while a good frame waits (R163, R165). -/
def execFrameLimitExpiry (s : State) : Host.Outcome State Fault Refusal :=
  .next (if s.takesBytes then s.discardFrame else s)

/-! ### Outbound frames (R165) -/

/-- FRAME_SENT: the frame at the head of the outbound queue leaves it for the link (R165). -/
def execFrameSent (s : State) : Host.Outcome State Fault Refusal :=
  .next (match s.flu.outbound with
    | f :: rest => { s with flu := { s.flu with outbound := rest, wire := s.flu.wire ++ [f.bytes] } }
    | [] => s)

/-- Whether the outbound queue has room for a waiting frame's judgement or a WATCH notice (R165). -/
def State.hasRoom (s : State) : Bool := decide (s.flu.outbound.length < Config.outboundLimit)

/-- Frames that stand behind the one the assembler has just passed on; the next of them waits in it (log entry 5). -/
def State.queueFrames (s : State) (later : List Instr) : State :=
  if later.isEmpty then s
  else
    { s with flu := { s.flu with
        assembler := .frame, held := if s.flu.waiting.isEmpty then [] else s.flu.held
        waiting := s.flu.waiting ++ later } }

/-- DEFERRED_FRAME_TAKEN: the frame waiting in the assembler is taken for judgement, and the assembler goes on with the
bytes behind it (R163, R165, R175). -/
def execDeferredFrameTaken (s : State) : Host.Outcome State Fault Refusal :=
  .next (match s.flu.waiting with
    | i :: rest =>
      if s.hasRoom && s.ctl.resetWait.isNone then
        (((({ s with flu := { s.flu with waiting := [] } }).setAssembler .ready []).judgeGood i).assemble
          s.flu.held).queueFrames rest
      else s
    | [] => s)

/-- WATCH_NOTICE_TAKEN: WATCH notices are drawn, oldest first, while the outbound queue has room; a waiting frame that
could be taken goes first (R165). -/
def execWatchNoticeTaken (s : State) : Host.Outcome State Fault Refusal :=
  .next (
    if s.flu.waiting.isEmpty || s.ctl.resetWait.isSome then
      let n := Config.outboundLimit - s.flu.outbound.length
      { s with
        evu := { s.evu with watchQueue := s.evu.watchQueue.drop n }
        flu := { s.flu with outbound := s.flu.outbound ++ (s.evu.watchQueue.take n).map WatchNotice.frame } }
    else s)

end Sys2Proof.Machine
end

