-- ==== Sys2Proof/Machine/Dispatch.lean ====
section
/-!
DEFINITION. Machine/Dispatch.lean: the meaning of each command, one arm per row of spec/opcode_table.json.
-/

namespace Sys2Proof.Machine

def exec (i : Instr) (s : State) : Host.Outcome State Fault Refusal :=
  match i with
  | .powerOnReset => Sys2Proof.Machine.execPowerOnReset s
  | .msTick => Sys2Proof.Machine.execMsTick s
  | .store tag lgn first count stream payload => Sys2Proof.Machine.execStore tag lgn first count stream payload s
  | .fetch tag lgn first count => Sys2Proof.Machine.execFetch tag lgn first count s
  | .discard tag lgn count => Sys2Proof.Machine.execDiscard tag lgn count s
  | .fold tag count => Sys2Proof.Machine.execFold tag count s
  | .clean tag band => Sys2Proof.Machine.execClean tag band s
  | .qualify tag band threshold marks => Sys2Proof.Machine.execQualify tag band threshold marks s
  | .qualifyStop tag => Sys2Proof.Machine.execQualifyStop tag s
  | .streamSet tag stream lo hi => Sys2Proof.Machine.execStreamSet tag stream lo hi s
  | .pacerSet tag mode running resetOption reload => Sys2Proof.Machine.execPacerSet tag mode running resetOption reload s
  | .maskSet tag mask threshold timeout => Sys2Proof.Machine.execMaskSet tag mask threshold timeout s
  | .watchSet tag window mode lo hi => Sys2Proof.Machine.execWatchSet tag window mode lo hi s
  | .watchClear tag window => Sys2Proof.Machine.execWatchClear tag window s
  | .eventEnable tag set => Sys2Proof.Machine.execEventEnable tag set s
  | .eventAck tag set => Sys2Proof.Machine.execEventAck tag set s
  | .inspectZone tag zone => Sys2Proof.Machine.execInspectZone tag zone s
  | .inspectBand tag band => Sys2Proof.Machine.execInspectBand tag band s
  | .inspectGranule tag lgn => Sys2Proof.Machine.execInspectGranule tag lgn s
  | .inspectPool tag => Sys2Proof.Machine.execInspectPool tag s
  | .inspectStream tag stream => Sys2Proof.Machine.execInspectStream tag stream s
  | .inspectLog tag => Sys2Proof.Machine.execInspectLog tag s
  | .inspectCleaner tag => Sys2Proof.Machine.execInspectCleaner tag s
  | .inspectQualification tag => Sys2Proof.Machine.execInspectQualification tag s
  | .inspectPort tag => Sys2Proof.Machine.execInspectPort tag s
  | .inspectLink tag => Sys2Proof.Machine.execInspectLink tag s
  | .inspectEvent tag => Sys2Proof.Machine.execInspectEvent tag s
  | .inspectController tag kind => Sys2Proof.Machine.execInspectController tag kind s
  | .format tag lgnCount reserve area zones retired => Sys2Proof.Machine.execFormat tag lgnCount reserve area zones retired s
  | .quiesce tag => Sys2Proof.Machine.execQuiesce tag s
  | .resume tag => Sys2Proof.Machine.execResume tag s
  | .imageRead tag index => Sys2Proof.Machine.execImageRead tag index s
  | .imageWrite tag index chunk => Sys2Proof.Machine.execImageWrite tag index chunk s
  | .imageCommit tag => Sys2Proof.Machine.execImageCommit tag s
  | .mediaRestart tag => Sys2Proof.Machine.execMediaRestart tag s
  | .reset tag => Sys2Proof.Machine.execReset tag s
  | .badRequest code tag => Sys2Proof.Machine.execBadRequest code tag s
  | .badMarker => Sys2Proof.Machine.execBadMarker s
  | .overlength => Sys2Proof.Machine.execOverlength s
  | .badCheck => Sys2Proof.Machine.execBadCheck s
  | .frameLimitExpiry => Sys2Proof.Machine.execFrameLimitExpiry s
  | .frameSent => Sys2Proof.Machine.execFrameSent s
  | .deferredFrameTaken => Sys2Proof.Machine.execDeferredFrameTaken s
  | .watchNoticeTaken => Sys2Proof.Machine.execWatchNoticeTaken s
  | .holdExpiry => Sys2Proof.Machine.execHoldExpiry s
  | .pacerUnderflow => Sys2Proof.Machine.execPacerUnderflow s
  | .claimLimitExpiry => Sys2Proof.Machine.execClaimLimitExpiry s
  | .reissueDelayExpiry => Sys2Proof.Machine.execReissueDelayExpiry s
  | .completionLimitExpiry => Sys2Proof.Machine.execCompletionLimitExpiry s
  | .abortLimitExpiry => Sys2Proof.Machine.execAbortLimitExpiry s
  | .probeLimitExpiry => Sys2Proof.Machine.execProbeLimitExpiry s
  | .accepted order => Sys2Proof.Machine.execAccepted order s
  | .defer order => Sys2Proof.Machine.execDefer order s
  | .finished order status sectorsDone failing => Sys2Proof.Machine.execFinished order status sectorsDone failing s
  | .data order sector content => Sys2Proof.Machine.execData order sector content s
  | .headGrant => Sys2Proof.Machine.execHeadGrant s
  | .requestStart => Sys2Proof.Machine.execRequestStart s
  | .pressureRelease => Sys2Proof.Machine.execPressureRelease s
  | .logRelease => Sys2Proof.Machine.execLogRelease s
  | .openWaitGrant => Sys2Proof.Machine.execOpenWaitGrant s
  | .bandReset => Sys2Proof.Machine.execBandReset s
  | .quiesceComplete => Sys2Proof.Machine.execQuiesceComplete s
  | .foldChoice => Sys2Proof.Machine.execFoldChoice s
  | .victimChoice => Sys2Proof.Machine.execVictimChoice s
  | .batchStart => Sys2Proof.Machine.execBatchStart s
  | .markerFound => Sys2Proof.Machine.execMarkerFound s

end Sys2Proof.Machine
end

