-- ==== Sys2Proof/Safety.lean ====
section
/-!
DEFINITION. Safety.lean: the words claims are made in: when a request is admitted, what a request answered at its arrival
or left holding its entry does to the state, and the invariants that every step keeps.
-/

namespace Sys2Proof.Machine

/-! ### Requests -/

/-- A request with a tag arriving now is taken for judgement and admitted (R165, R167). -/
abbrev State.admitsTag (s : State) (tag : Nat) : Prop :=
  s.takesFrames = true ∧ s.rqu.entries.length < Config.entryLimit ∧ ∀ e ∈ s.rqu.entries, e.tag ≠ tag

/-- `s` after a request was taken, judged and replied at one event: one buffer allocation, one admission number, one
reply; the entry it held is free again (R165 to R168). -/
def State.answered (s : State) (code tag : Nat) (clamped : Bool) (st : Status) (fields : List Field) : State :=
  { s with
    residue := s.residue + 1
    rqu := { s.rqu with
      admission := (s.rqu.admission + 1) % 2 ^ 64, held := s.rqu.held.filter fun t => decide (t ≠ tag) }
    flu := { s.flu with
      assembler := .ready, held := [], outbound := s.flu.outbound ++ [replyFrame code tag clamped st fields] } }

/-- `s` after a request was taken and admitted, and holds the entry `e` (R166, R167). -/
def State.entered (s : State) (e : Entry) : State :=
  { s with
    residue := s.residue + 1
    rqu := { s.rqu with entries := s.rqu.entries ++ [e], admission := (s.rqu.admission + 1) % 2 ^ 64 }
    flu := { s.flu with assembler := .ready, held := [] } }

/-- The entry an INSPECT or a request without arguments in its entry holds. -/
def State.plainEntry (s : State) (code tag : Nat) : Entry := s.newRequest code tag

/-- What an operation runs (R141): whether it writes, on what, its track, first sector and count, the place of its first
sector in the owner's buffer, and the request it serves. -/
structure Run where
  isWrite : Bool
  target : Target
  track : Nat
  first : Nat
  count : Nat
  place : Nat
  tag : Option Nat
  deriving DecidableEq, Repr

/-- The run of an operation. -/
def MediaOp.run (o : MediaOp) : Run := ⟨o.isWrite, o.target, o.track, o.first, o.count, o.place, o.tag⟩

/-- The one entry in use is a WAITING FETCH of sectors `f` to `f + n - 1` of an LGN, as its judgement leaves it
(R169). -/
abbrev State.startsFetch (s : State) (e : Entry) (lgn f n : Nat) : Prop :=
  s.rqu.entries = [e] ∧ e.phase = .waiting ∧ e.code = codeFetch ∧ e.range = some (f, n) ∧ 1 ≤ n ∧ f + n ≤ 16
    ∧ e.lgns = some (lgn, lgn) ∧ e.left = 0 ∧ e.failed = false ∧ e.down = false

/-- A whole-granule STORE of `lgn` is the one entry in use and WAITING, with the port UP (R65, R170). -/
abbrev State.startsGranule (s : State) (e : Entry) (lgn : Nat) : Prop :=
  s.rqu.entries = [e] ∧ e.phase = .waiting ∧ e.code = codeStore ∧ e.range = some (0, 16) ∧ e.lgns = some (lgn, lgn)
    ∧ s.mpt.up = true

/-- The item a whole-granule STORE of `lgn` is in its stream's FIFO (R64, R65). -/
abbrev Entry.placedItem (e : Entry) (lgn : Nat) : Item :=
  { work := .store e.tag (e.sequence.getD 0), lgn := lgn, content := e.buffer }

/-- Stream `n` stands with nothing to place and no open band: a STORE that comes to it asks a host open (R66). -/
abbrev State.Bare (s : State) (n : Fin 9) : Prop :=
  (s.stream n).fifo = [] ∧ (s.stream n).openPending = false ∧ (s.stream n).writing = none
    ∧ (s.stream n).openBand = none ∧ (s.stream n).recovery = none

/-- No band of stream `n`'s zone range is EMPTY (R25). -/
abbrev State.OpenSpills (s : State) (n : Fin 9) : Prop :=
  ∀ k bk, firstBand s.btu.zones (s.stream n).lo ≤ k → k < firstBand s.btu.zones ((s.stream n).hi + 1) →
    s.band? k = some bk → bk.state ≠ .empty

/-- The band `b` an open for stream `n` takes, with its record: the lowest EMPTY band of the stream's zone range, or,
where the range has none, the lowest EMPTY band of all (R25). -/
abbrev State.OpenTakes (s : State) (n : Fin 9) (b : Nat) (bd : Band) : Prop :=
  s.band? b = some bd ∧ bd.state = .empty
    ∧ (firstBand s.btu.zones (s.stream n).lo ≤ b ∧ b < firstBand s.btu.zones ((s.stream n).hi + 1)
        ∧ (∀ k bk, firstBand s.btu.zones (s.stream n).lo ≤ k → k < b → s.band? k = some bk → bk.state ≠ .empty)
      ∨ s.OpenSpills n ∧ ∀ k bk, k < b → s.band? k = some bk → bk.state ≠ .empty)

/-- What an open of band `b` (its record `bd` before) for stream `n` has made of `s` in `t`: the band OPEN for the
stream, no other band changed, the stream answered, PRESSURE judged with its event, and STREAM_SPILL raised where the
stream's range had no EMPTY band (R25, R27, R28, R66). -/
abbrev State.Opened (s t : State) (n : Fin 9) (b : Nat) (bd : Band) : Prop :=
  t.band? b = some { bd with state := .opened, stream := some n } ∧ (∀ k, k ≠ b → t.band? k = s.band? k)
    ∧ (t.stream n).openBand = some b ∧ (t.stream n).openPending = false
    ∧ (t.btu.pressure = true ↔ s.btu.pressure = true ∨ t.freeCount ≤ s.btu.reserve)
    ∧ (s.btu.pressure = false → t.freeCount ≤ s.btu.reserve →
      t.evu.flags.getLsbD EventFlag.pressureOn.index.val = true
      ∧ t.evu.details[EventFlag.pressureOn.index.val] = t.freeCount)
    ∧ (s.OpenSpills n → t.evu.flags.getLsbD EventFlag.streamSpill.index.val = true
      ∧ t.evu.details[EventFlag.streamSpill.index.val] = n.val)

/-- The slots a batch gathers (R118): from the cursor on, those LIVE for a granule in no HOLD window, at most 32 of
them. -/
def State.gathers (s : State) (v : Victim) (bd : Band) : List Nat :=
  ((List.range bd.slots.length).filter fun j => decide (v.cursor ≤ j) && match bd.slots[j]? with
    | some (.live lgn) => !s.inHoldWindow lgn
    | some .dead => false
    | some .torn => false
    | none => false).take 32

/-- The slots that gathering passes over for a HOLD window, before slot `stop` (R118). -/
def State.skipsTo (s : State) (v : Victim) (bd : Band) (stop : Nat) : Nat :=
  (List.range stop).countP fun j => decide (v.cursor ≤ j) && match bd.slots[j]? with
    | some (.live lgn) => s.inHoldWindow lgn
    | some .dead => false
    | some .torn => false
    | none => false

/-- The run in progress writes the rest of slot `w` of stream `n`'s open band `b`, for the item at the head of its FIFO
(R68). -/
abbrev State.completesItem (s : State) (n : Fin 9) (o : MediaOp) (it : Item) (rest : List Item) (b w : Nat) (bd : Band) :
    Prop :=
  s.mpt.stage = .running ∧ s.mpt.op = some o ∧ o.origin = .stream n ∧ o.isWrite = true
    ∧ (s.stream n).openBand = some b ∧ (s.stream n).writing = some w ∧ (s.stream n).fifo = it :: rest
    ∧ s.band? b = some bd ∧ bd.state = .opened ∧ bd.frontier + o.count = 16 * (w + 1)

/-- What ends the write in progress in a write fault, by the command that brings it, the sectors of the operation done
before it and the port it leaves: while the write runs, or is claimed by the answer itself, an answer WRITE_FAULT (or
UNRECOVERED, which a write takes as one) or a second SERVO_LOST that leaves the port UP; after a completion limit, an
answer other than OK to the ABORT, or no answer to it at the abort limit, which leaves the port UP and takes the whole
count as done (R148, R151, R154, R155, R157). -/
def State.writeFaults (s : State) (o : MediaOp) (i : Instr) (done : Nat) (m : Mpt) : Prop :=
  ((s.mpt.stage = .running ∨ s.mpt.stage = .claiming) ∧ ∃ st d x, i = .finished s.mpt.order.number st d x
    ∧ ((st = 2 ∨ st = 3) ∧ o.first ≤ x ∧ x < o.first + o.count ∧ done = x - o.first
        ∧ m = { s.mpt with stage := .idle, op := none }
      ∨ st = 4 ∧ o.servoUsed = true ∧ s.mpt.failures < 2 ∧ done = o.sectorsDone + min d s.mpt.order.count
        ∧ m = { s.mpt with
          stage := .idle, op := none, failures := s.mpt.failures + 1, causes := s.mpt.causes ||| 8#4 }))
  ∨ (s.mpt.stage = .aborting ∧ s.ctl.resetWait = none
    ∧ ((∃ st d x, (st = 1 ∧ d < s.mpt.order.count ∨ st = 2 ∨ st = 3 ∨ st = 4)
        ∧ i = .finished s.mpt.order.number st d x ∧ done = o.sectorsDone + min d s.mpt.order.count
        ∧ m = { s.mpt with stage := .idle, op := none })
      ∨ i = .abortLimitExpiry ∧ s.mpt.failures < 2 ∧ done = o.count
        ∧ m = { s.mpt with
          stage := .idle, op := none, failures := s.mpt.failures + 1, causes := s.mpt.causes ||| 4#4 }))

/-- The run in progress reads for the fold, which has met no failure: the home copy's last run, or a record's. -/
abbrev State.foldReads (s : State) (o : MediaOp) (f : Fold) : Prop :=
  s.mpt.stage = .running ∧ s.mpt.op = some o ∧ o.isWrite = false ∧ o.cls = .fold ∧ s.slu.fold = some f ∧ f.failures = []

/-- Whether the record a fold read holds a sector index. -/
abbrev FoldSource.covers (x : FoldSource) (j : Nat) : Prop := x.first ≤ j ∧ j < x.first + x.count

/-- `g` is what a fold merges, index by index: the sector of the record of highest sequence among those that hold the
index, and where none does the sector of the home copy, as given (R104). A record's header is the first sector read of
it. -/
def Fold.MergesTo (f : Fold) (home : Nat → Sector) (g : Granule) : Prop :=
  ∀ j, j < 16 →
    (∀ x ∈ f.sources, x.covers j → (∀ y ∈ f.sources, y.covers j → y = x ∨ y.sequence < x.sequence) →
      granuleGet g j = granuleGet x.buffer (1 + (j - x.first)))
    ∧ ((∀ x ∈ f.sources, ¬ x.covers j) → granuleGet g j = home j)

/-- The first cause of a fold that stands, if one does, names the granule `lgn`: the oldest STORE that waits for an
overlay; else, with a FOLD request or, in ONLINE, at a fold-start threshold, the LIVE record nearest the head (R100). -/
abbrev State.foldsFor (s : State) (lgn : Nat) : Prop :=
  (s.ctl.mode = .online ∨ s.ctl.mode = .quiescing)
    ∧ ((∃ tag rest e, s.slu.overlayWait = tag :: rest ∧ s.entry? tag = some e ∧ (e.lgns.getD (0, 0)).1 = lgn)
      ∨ s.slu.overlayWait = [] ∧ (∃ r, (s.slu.dir.find? fun x => decide (x.state = .live)) = some r ∧ r.lgn = lgn)
        ∧ (s.slu.foldReqs ≠ [] ∨ s.ctl.mode = .online
          ∧ (areaCap s.slu.area / 2 ≤ s.slu.used ∨ 8192 ≤ s.slu.dir.length)))

/-- A qualification of `s`, its record `q` as counted at its end, has ended STOPPED in `t` (R36, R138, R139): the last
result written and the engine IDLE, the QUALIFYING band in its prior state with its counters kept and no other band
changed, PRESSURE judged where it joined the pool, with its event, QUALIFY_DONE raised, and the QUALIFY_STOP of the
stop answered with the last result. -/
abbrev State.QualStopped (s t : State) (q : Qual) : Prop :=
  t.qen = ⟨none, [], some ⟨q.band, q.errors, q.tracksDone, .stopped⟩⟩
    ∧ (∀ bd prior, s.band? q.band = some bd → bd.state = .qualifying → bd.prior = some prior →
      t.band? q.band = some { bd with state := prior, prior := none }
      ∧ (t.btu.pressure = true ↔
        s.btu.pressure = true ∧ ¬ (prior = .empty ∧ s.btu.reserve + 2 ≤ t.freeCount)))
    ∧ (∀ k, k ≠ q.band → t.band? k = s.band? k)
    ∧ (s.btu.pressure = true → t.btu.pressure = false →
      t.evu.flags.getLsbD EventFlag.pressureOff.index.val = true
      ∧ t.evu.details[EventFlag.pressureOff.index.val] = t.freeCount)
    ∧ t.evu.flags.getLsbD EventFlag.qualifyDone.index.val = true
    ∧ t.evu.details[EventFlag.qualifyDone.index.val] = q.band
    ∧ (∀ tag e, q.stopTag = some tag → s.entry? tag = some e →
      t.flu.outbound.getLast? = some (replyFrame e.code tag e.clamped .done
        [.num 4 q.band, .num 2 q.errors, .num 2 q.tracksDone, .num 1 2, .num 3 0])
      ∧ t.rqu.entries = s.rqu.entries.filter fun x => decide (x.tag ≠ tag))
    ∧ t.gmu = s.gmu ∧ t.slu = s.slu ∧ t.swr = s.swr

/-- The errors of a qualification once `n` sectors from `first` of the track buffer are compared with the track's
pattern, at most 65,535 (R135, R137). -/
def State.errorsAfter (s : State) (q : Qual) (first n : Nat) : Nat :=
  min (q.errors + (((s.qen.buffer.drop first).take n).zip
    (((trackPattern q.band q.track (s.geo q.band).spt).drop first).take n)).countP fun e => decide (e.1 ≠ e.2)) 65535

/-- The run in progress is the qualification's, and its record is `q`. -/
abbrev State.qualRuns (s : State) (o : MediaOp) (q : Qual) : Prop :=
  s.mpt.op = some o ∧ o.origin = .qual ∧ o.cls = .qualify ∧ s.qen.qual = some q

/-- The read pass reads `u` sectors, at least one, of a track of `spt`: the whole track where it is on no fault list,
else those before its first unwritten sector (R137). -/
abbrev Qual.Spans (q : Qual) (track spt u : Nat) : Prop :=
  0 < u ∧ (u = spt ∧ (∀ e ∈ q.faults, e.1 ≠ track)
    ∨ (q.faults.find? fun e => decide (e.1 = track)) = some (track, u))

/-- `t` is `s` with the QEN's next run queued: sectors 0 to `u - 1` of the current track of its record, now `q`, its
track buffer `buffer`, and nothing but the port besides (R136, R137). -/
abbrev State.QualGoesOn (s t : State) (q : Qual) (u : Nat) (buffer : List Sector) : Prop :=
  t.qen = ⟨some { q with run := some (0, u) }, buffer, s.qen.last⟩
    ∧ (t.har.queue .qualify).map (fun o => (o.origin, o.run)) = (s.har.queue .qualify).map (fun o => (o.origin, o.run)) ++
      [(.qual, ⟨decide (q.pass = .write), .band q.band, (s.geo q.band).track0 + q.track, 0, u, 0, none⟩)]
    ∧ (∀ c, c ≠ .qualify → t.har.queue c = s.har.queue c)
    ∧ t.btu = s.btu ∧ t.evu = s.evu ∧ t.flu = s.flu ∧ t.rqu = s.rqu

/-- `runs`, each as (first, length), are the maximal runs of consecutive numbers among the ascending numbers `js`, in
ascending order (R102). -/
abbrev MaximalRuns (js : List Nat) (runs : List (Nat × Nat)) : Prop :=
  (runs.map fun x => List.range' x.1 x.2).flatten = js ∧ (∀ x ∈ runs, 1 ≤ x.2)
    ∧ runs.Pairwise fun x y => x.1 + x.2 < y.1

/-- The runs a fold reads a record in, header and data, in log order (R86, R102). -/
def State.recordReads (s : State) (x : Record) : List (Origin × Run) :=
  (cutLog s.slu.area x.pos x.len).map fun c =>
    (.foldRecord x.pos, ⟨false, .staging, s.slu.area.firstTrack + c.track, c.sector, c.count, c.offset, none⟩)

/-- The runs a fold reads sectors of a home copy in, given as runs of sector indices, each sector going to its own index
of the home buffer (R8, R102). -/
def State.homeReads (s : State) (h : Home) (runs : List (Nat × Nat)) : List (Origin × Run) :=
  (runs.map fun r => (cutSpan (s.geo h.band).spt (16 * h.slot + r.1) r.2).map fun c =>
    (.foldHome, ⟨false, .band h.band, (s.geo h.band).track0 + c.track, c.sector, c.count, r.1 + c.offset, none⟩)).flatten

/-- A band the scored source may take: FULL, its mark clear, its reclaim ratio at the threshold or above, or above 0
under PRESSURE (R116). -/
abbrev State.Scored (s : State) (bd : Band) : Prop :=
  bd.state = .full ∧ bd.holdBlocked = false
    ∧ if s.btu.pressure then 0 < reclaimRatio (s.geo bd.number).cap bd.live
      else s.cle.threshold ≤ reclaimRatio (s.geo bd.number).cap bd.live

/-- The band `b` the CLE's own sources choose, with the origin: the FULL band nearest the head of the refresh list;
with no FULL band on that list, the scored band of highest ratio, then of lower close order, then of lower number (R114
to R116). -/
def State.OwnCandidate (s : State) (b : Nat) (bd : Band) : VictimOrigin → Prop
  | .host => False
  | .refresh => bd.state = .full ∧ ∃ before after, s.btu.refresh = before ++ b :: after
      ∧ ∀ k ∈ before, ∀ bk, s.band? k = some bk → bk.state ≠ .full
  | .scored => s.Scored bd ∧ (∀ k ∈ s.btu.refresh, ∀ bk, s.band? k = some bk → bk.state ≠ .full)
      ∧ ∀ k bk, s.band? k = some bk → s.Scored bk → k ≠ b →
        reclaimRatio (s.geo k).cap bk.live < reclaimRatio (s.geo b).cap bd.live
        ∨ reclaimRatio (s.geo k).cap bk.live = reclaimRatio (s.geo b).cap bd.live
          ∧ (bd.closeOrder.getD 0 < bk.closeOrder.getD 0
            ∨ bd.closeOrder.getD 0 = bk.closeOrder.getD 0 ∧ b < k)

/-- The fields of a body: offset, size and the number that stands there (Conventions 4.4). -/
def BodyHolds (body : List Field) (fields : List (Nat × Nat × Nat)) : Prop :=
  ∀ p ∈ fields, fieldAt (bodyBytes body) p.1 p.2.1 = p.2.2 % 256 ^ p.2.1

/-- The chunks of the tables' image, one after the other, as IMAGE_READ gives them (R190, R203). -/
def State.imageChunks (s : State) : List Chunk := (List.range (chunksOf s.imageLength)).map (chunkAt s.image)

/-- The geometry checks that FORMAT and IMAGE_COMMIT share: R16 from Zone count through Band count, and R85. -/
abbrev GeometryPasses (zones : List ZoneDesc) (area : AreaDesc) : Prop :=
  (1 ≤ zones.length ∧ zones.length ≤ 32)
    ∧ (∀ z ∈ zones, z.firstTrack ≤ 16777215 ∧ 1 ≤ z.zoneTracks ∧ z.zoneTracks ≤ 16777215 ∧ 256 ≤ z.spt ∧ z.spt ≤ 1024
      ∧ 16 ≤ z.tpb ∧ z.tpb ≤ 256 ∧ 1 ≤ z.guard ∧ z.guard ≤ 4 ∧ 1 ≤ z.exposure ∧ z.exposure ≤ 2
      ∧ z.firstTrack + z.zoneTracks ≤ 16777216 ∧ z.tpb + z.guard ≤ z.zoneTracks)
    ∧ (∀ (i : Nat) (z y : ZoneDesc), zones[i]? = some z → zones[i + 1]? = some y →
      z.firstTrack + z.zoneTracks ≤ y.firstTrack)
    ∧ (∀ z ∈ zones, ∀ k, area.firstTrack ≤ k → k < area.firstTrack + area.tracks →
      k < z.firstTrack ∨ z.firstTrack + z.zoneTracks ≤ k)
    ∧ bandTotal zones ≤ 131072
    ∧ (256 ≤ area.spt ∧ area.spt ≤ 1024) ∧ (65536 ≤ area.tracks * area.spt ∧ area.tracks * area.spt ≤ 4194304)
    ∧ area.firstTrack + area.tracks ≤ 16777216

/-- The slots of the bands that a retired list does not name: CAP of R14, summed band by band. -/
def slotsInService (zones : List ZoneDesc) (retired : List Nat) : Nat :=
  ((List.range (bandTotal zones)).map fun b => if b ∈ retired then 0 else (bandGeo zones b).cap).sum

/-- The checks of a FORMAT with reserve `r` (R14, R15, R16, R85, R186). -/
abbrev FormatPasses (lgns r : Nat) (area : AreaDesc) (zones : List ZoneDesc) (retired : List Nat) : Prop :=
  (1 ≤ lgns ∧ lgns ≤ 536870912) ∧ (2 ≤ r ∧ r ≤ 64) ∧ GeometryPasses zones area ∧ retired.length ≤ 1024
    ∧ (∀ b ∈ retired, b < bandTotal zones) ∧ lgns * 17 ≤ slotsInService zones retired * 16
    ∧ r + 10 ≤ ((List.range (bandTotal zones)).filter fun b => decide (b ∉ retired)).length

/-- A band record of an image, in place `i`, that check 5 of R192 passes (R3, R18, R20). -/
abbrev BandImage.Passes (b : BandImage) (zones : List ZoneDesc) (lgns i : Nat) : Prop :=
  b.number = i ∧ (firstBand zones b.zone ≤ i ∧ i < firstBand zones (b.zone + 1)) ∧ b.state ≤ 5
    ∧ (b.state = 1 → ∃ n, b.stream = some n ∧ n ≤ 8) ∧ (b.state ≠ 1 → b.stream = none)
    ∧ (b.state = 2 ∨ b.state = 3 →
      b.closeOrder ≠ 0 ∧ (b.closeReason = some 1 ∨ b.closeReason = some 2 ∨ b.closeReason = some 3))
    ∧ (b.state ≠ 2 → b.state ≠ 3 → b.closeOrder = 0 ∧ b.closeReason = none)
    ∧ (b.state = 4 → b.prior = some 0 ∨ b.prior = some 5) ∧ (b.state ≠ 4 → b.prior = none)
    ∧ (b.state = 0 ∨ b.state = 4 ∨ b.state = 5 → b.frontier = 0) ∧ b.frontier ≤ 16 * (bandGeo zones i).cap
    ∧ b.fatigue ≤ 3 ∧ b.slots.length = slotsBehind b.frontier
    ∧ b.live = b.slots.countP (fun x => decide (x ≠ .dead ∧ x ≠ .torn)) ∧ b.dead = b.slots.count .dead
    ∧ b.torn = b.slots.count .torn ∧ b.live + b.dead + b.torn ≤ (bandGeo zones i).cap
    ∧ ∀ lgn, .live lgn ∈ b.slots → lgn < lgns

/-- The stream records of an image that check 6 of R192 passes. -/
abbrev Image.StreamsPass (m : Image) : Prop :=
  (∀ x ∈ m.streams, x.1 ≤ x.2.1 ∧ x.2.1 ≤ 31) ∧ (m.streams[8]?.map fun x => (x.1, x.2.1)) = some (0, 31)
    ∧ (∀ b ∈ m.bands, b.state = 1 → ∀ n, b.stream = some n → (m.streams[n]?.bind fun x => x.2.2) = some b.number)
    ∧ ∀ (n : Nat) (x : Nat × Nat × Option Nat) (b : Nat), m.streams[n]? = some x → x.2.2 = some b →
      ∃ bi : BandImage, m.bands[b]? = some bi ∧ bi.state = 1 ∧ bi.stream = some n

/-- A map entry of an image, that of `lgn`, that R60 passes. -/
abbrev Image.EntryPasses (m : Image) (lgn : Nat) (e : MapEntry) : Prop :=
  (e.home ≠ none → e.lost = false) ∧ (e.base = 0 → e.home = none ∧ e.lost = false)
    ∧ (∀ h, e.home = some h → ∃ bi : BandImage, m.bands[h.band]? = some bi ∧ bi.slots[h.slot]? = some (.live lgn))
    ∧ e.overlays = (m.chainOf lgn).length ∧ (m.chainOf lgn).length ≤ 8
    ∧ (∀ p, e.newest = some p → ∃ r ∈ m.chainOf lgn, r.pos = p ∧ ∀ x ∈ m.chainOf lgn, x.sequence ≤ r.sequence)
    ∧ (e.newest = none → m.chainOf lgn = []) ∧ (∀ r ∈ m.chainOf lgn, e.base < r.sequence) ∧ e.base < m.sequence

/-- A staged record of an image whose fields lie in their ranges (R88, R109). -/
abbrev Record.Passes (r : Record) (cap lgns : Nat) : Prop :=
  r.pos < cap ∧ r.len = r.count + 1 ∧ r.lgn < lgns ∧ r.first ≤ 15 ∧ (1 ≤ r.count ∧ r.count ≤ 15)
    ∧ r.first + r.count ≤ 16 ∧ (1 ≤ r.sequence ∧ r.sequence < 2 ^ 64 - 1) ∧ r.stream ≤ 7 ∧ ∀ p ∈ r.prev, p < cap

/-- The log of an image, its records being `rs`, that R109 passes. -/
abbrev Image.LogPasses (m : Image) (rs : List Record) : Prop :=
  (m.head < areaCap m.area ∧ m.tail < areaCap m.area) ∧ rs.length ≤ 16384
    ∧ (∀ r ∈ m.dir, r.state = 1 ∨ r.state = 2) ∧ (∀ r ∈ rs, r.Passes (areaCap m.area) m.lgnCount)
    ∧ (∀ (i : Nat) (r : Record), rs[i]? = some r → r.pos = (m.head + ((rs.take i).map Record.len).sum) % areaCap m.area)
    ∧ m.tail = (m.head + (rs.map Record.len).sum) % areaCap m.area
    ∧ m.used = (rs.map Record.len).sum ∧ m.used ≤ areaCap m.area
    ∧ (∀ (i j : Nat) (r x : Record), i < j → rs[i]? = some r → rs[j]? = some x → r.lgn = x.lgn → r.sequence ≠ x.sequence)
    ∧ ∀ (i : Nat) (r : Record) (p : Nat), rs[i]? = some r → r.prev = some p →
      ∃ (j : Nat) (x : Record), j < i ∧ rs[j]? = some x ∧ x.pos = p ∧ x.state = .live ∧ x.lgn = r.lgn
        ∧ x.sequence < r.sequence

/-- The checks of R192 on a load whose chunks read as the image `m`: the load whole, the image's length and check, its
ranges, its geometry, its bands, its streams, its map (R60) and its log (R109). -/
abbrev LoadPasses (l : ImageLoad) (m : Image) : Prop :=
  l.next = l.count
    ∧ m.length = 64 + 16 * m.zones.length + (m.bands.map fun b => 32 + 4 * b.slots.length).sum + 72 + 24 * m.lgnCount
      + 28 * m.dir.length
    ∧ (crc32 (l.chunks.flatten.take 16 ++ List.replicate 4 0#8 ++ (l.chunks.flatten.take m.length).drop 20)).toNat =
      fieldAt l.chunks.flatten 16 4
    ∧ (1 ≤ m.lgnCount ∧ m.lgnCount ≤ 536870912) ∧ (2 ≤ m.reserve ∧ m.reserve ≤ 64)
    ∧ GeometryPasses m.zones m.area ∧ m.lgnCount * 17 ≤ slotsInService m.zones [] * 16
    ∧ m.bandCount = bandTotal m.zones
    ∧ (∀ (i : Nat) (b : BandImage), m.bands[i]? = some b → b.Passes m.zones m.lgnCount i) ∧ m.StreamsPass
    ∧ (∀ (lgn : Nat) (e : MapEntry), m.entries[lgn]? = some e → m.EntryPasses lgn e)
    ∧ (∀ b ∈ m.bands, ∀ w lgn : Nat, b.slots[w]? = some (.live lgn) →
      ∃ e : MapEntry, m.entries[lgn]? = some e ∧ e.home = some ⟨b.number, w⟩)
    ∧ (∀ r ∈ m.dir, r.record.sequence < m.sequence) ∧ m.LogPasses (m.dir.map RecordImage.record)

/-- Whether a command is a good frame: a request, or a frame refused BAD_REQUEST. -/
def isGoodFrame (i : Instr) : Bool :=
  i.requestParts.isSome || match i with
    | .badRequest _ _ => true
    | _ => false

/-- Whether a command is work of the part's own or of the media channel: no request, no frame, no reset, and not the end
of QUIESCING. -/
def isWork : Instr → Bool
  | .msTick | .holdExpiry | .pacerUnderflow | .claimLimitExpiry | .reissueDelayExpiry | .completionLimitExpiry
  | .abortLimitExpiry | .probeLimitExpiry | .accepted _ | .defer _ | .finished _ _ _ _ | .data _ _ _ | .headGrant
  | .requestStart | .pressureRelease | .logRelease | .openWaitGrant | .bandReset | .foldChoice | .victimChoice
  | .batchStart => true
  | _ => false

/-! ### Invariants -/

/-- The granule map is in canonical form: LGNs strictly rising, no entry that a never-written granule has (log entry
3). -/
abbrev State.MapCanonical (s : State) : Prop := tableWf {} s.gmu.map = true

/-- A band record in keeping with its number and with R19 and R38: its slot list ends at the frontier, its retry counter
and fatigue count in range. -/
abbrev Band.Sound (bd : Band) (i : Nat) : Prop :=
  bd.number = i ∧ bd.slots.length = slotsBehind bd.frontier ∧ bd.retry ≤ 255 ∧ bd.fatigue ≤ 3

/-- Every band record is sound (R18, R19, R38). -/
def State.BandsSound (s : State) : Prop := ∀ (i : Nat) (bd : Band), s.btu.bands[i]? = some bd → bd.Sound i

/-- A port stage that belongs to an operation in progress (R147). -/
def PortStage.working : PortStage → Bool
  | .idle => false
  | .claiming => true
  | .deferred => true
  | .running => true
  | .aborting => true
  | .probing => false

/-- The media port's own state is consistent (R147, R157 to R159): an operation is in progress exactly in the stages
that belong to one, and while the port is DOWN there is none and the failure counter stands at 3; PROBING is a stage
of a port that is DOWN. -/
abbrev State.PortSound (s : State) : Prop :=
  s.mpt.op.isSome = s.mpt.stage.working ∧ (s.mpt.up = false → s.mpt.op = none ∧ s.mpt.failures = 3)
    ∧ (s.mpt.stage = .probing → s.mpt.up = false)

/-- An operation's defers used and retries used lie in their ranges (R141, R150, R153). -/
abbrev MediaOp.CountsInRange (o : MediaOp) : Prop := o.defers ≤ deferLimit ∧ o.retries ≤ retryLimit

/-- The counters of the part lie in their ranges: the failure counter, the order number and operation id counters, the
skip counters, credits, reload, count and threshold, the hold timeout, the entries in use and the admission counter,
the frame errors, the placement sequence, the close-order counter, the errors of a qualification, the defers and
retries used of every operation, and the length of the watch notice queue (R30, R44, R125 to R127, R133, R141, R145,
R147, R157, R163, R166, R174, R182). -/
abbrev State.CountersInRange (s : State) : Prop :=
  s.mpt.failures ≤ 3 ∧ (1 ≤ s.mpt.orderNo ∧ s.mpt.orderNo ≤ Config.orderNumberMax)
    ∧ (1 ≤ s.har.nextId ∧ s.har.nextId ≤ Config.opIdMax) ∧ (∀ c ∈ allClasses, s.har.skip c ≤ Config.skipLimit)
    ∧ s.cle.pacer.credits ≤ creditLimit ∧ 1 ≤ s.cle.pacer.reload ∧ 1 ≤ s.cle.pacer.count ∧ s.cle.threshold ≤ 1024
    ∧ (100 ≤ s.rqu.holdTimeout ∧ s.rqu.holdTimeout ≤ 60000) ∧ s.rqu.entries.length ≤ Config.entryLimit
    ∧ s.rqu.admission < 2 ^ 64 ∧ s.flu.errors ≤ 65535 ∧ s.gmu.sequence ≤ Config.counterMax
    ∧ s.btu.closeOrder ≤ Config.counterMax ∧ (∀ q ∈ s.qen.qual, q.errors ≤ 65535)
    ∧ (∀ o ∈ s.mpt.op, o.CountsInRange) ∧ (∀ c ∈ allClasses, ∀ o ∈ s.har.queue c, o.CountsInRange)
    ∧ s.evu.watchQueue.length ≤ Config.watchQueueLimit

/-- The pacer's reload and count lie in their range, and every frame that waits to be judged is well formed (R125,
R126; log entry 36). -/
abbrev State.PacerInRange (s : State) : Prop :=
  (1 ≤ s.cle.pacer.reload ∧ s.cle.pacer.reload ≤ 65535) ∧ (1 ≤ s.cle.pacer.count ∧ s.cle.pacer.count ≤ 65535)
    ∧ ∀ i ∈ s.flu.waiting, i.wf = true

/-! ### Tables whose numbers fit the fields of an image (R202) -/

/-- A band record that fits its image record: each number in its field, a LIVE slot's LGN none of the two numbers of
DEAD and TORN, the slot list ending at the frontier, a close order that is present not 0. -/
abbrev Band.Fits (bd : Band) : Prop :=
  bd.number < 2 ^ 32 ∧ bd.zone < 256 ∧ bd.frontier < 2 ^ 32 ∧ bd.slots.length = slotsBehind bd.frontier
    ∧ (∀ e ∈ bd.slots, e.imageCode < 0xFFFFFFFE ∨ e = .dead ∨ e = .torn) ∧ bd.retry < 256 ∧ bd.fatigue < 256
    ∧ bd.closeOrder ≠ some 0 ∧ bd.closeOrder.getD 0 < 2 ^ 64

/-- A stream record that fits its image record. -/
abbrev Stream.Fits (x : Stream) : Prop := x.lo < 256 ∧ x.hi < 256 ∧ ∀ b ∈ x.openBand, b < 2 ^ 32 - 1

/-- A map entry that fits its image record. -/
abbrev MapEntry.Fits (e : MapEntry) : Prop :=
  (∀ h ∈ e.home, h.band < 2 ^ 32 - 1 ∧ h.slot < 2 ^ 16) ∧ e.overlays < 256 ∧ e.base < 2 ^ 64
    ∧ ∀ p ∈ e.newest, p < 2 ^ 32 - 1

/-- A staged record that fits its image record. -/
abbrev Record.Fits (r : Record) : Prop :=
  r.pos < 2 ^ 32 ∧ r.len < 256 ∧ r.first < 256 ∧ r.count < 256 ∧ r.stream < 256 ∧ r.lgn < 2 ^ 32
    ∧ r.sequence < 2 ^ 64 ∧ ∀ p ∈ r.prev, p < 2 ^ 32 - 1

/-- Tables whose every number fits its field of an image. -/
abbrev State.ImageFits (s : State) : Prop :=
  (s.btu.zones.length < 256 ∧ (∀ z ∈ s.btu.zones, z.fits = true) ∧ s.btu.bands.length = bandTotal s.btu.zones
      ∧ s.btu.bands.length < 2 ^ 32 ∧ (∀ bd ∈ s.btu.bands, bd.Fits) ∧ s.btu.reserve < 256)
    ∧ (s.gmu.lgnCount < 2 ^ 32 ∧ s.gmu.sequence < 2 ^ 64 ∧ ∀ e ∈ s.gmu.map, e.2.Fits)
    ∧ (s.slu.area.fits = true ∧ s.slu.head < 2 ^ 32 ∧ s.slu.tail < 2 ^ 32 ∧ s.slu.used < 2 ^ 32
      ∧ s.slu.dir.length < 2 ^ 16 ∧ ∀ r ∈ s.slu.dir, r.Fits)
    ∧ ∀ n ∈ allStreams, (s.stream n).Fits

end Sys2Proof.Machine
end

