-- ==== Sys2Proof/Certificates/Slice0/Obligations.lean ====
section
/-!
DEFINITION. Certificates/Slice0/Obligations.lean: what is claimed of the model, for the provers. Where a statement's
conclusion is an equation `exec c s = .next t` with `t` written as an update of `s`, the fields not named are unchanged:
the equation is the command's result, its frame and its completion at once.
-/

open Sys2Proof Sys2Proof.Machine

/-! ### The queue, reset and invariants -/

/-- A step carries out the front command with the rest of the queue, and an empty queue idles (the model's choice, log
entry 2). -/
def Obligations.Step_runs_front_command : Prop :=
  (∀ (s : State) (i : Instr) (rest : List Instr),
    s.pending = i :: rest → step s = exec i { s with pending := rest })
  ∧ ∀ s : State, s.pending = [] → step s = .next s

/-- What every block holds at initial reset (R184 and the "At initial reset" lines), and that POWER_ON_RESET brings
every block back to it; the model's own records (the queue, what was sent, the free value's counter) stay. The model's
choices in it: the queue (log entry 2), the wire records (4), the zeros of records the spec gives no value, the order
record among them (6), the free value's counter (7), what power-on keeps (31). -/
def Obligations.Reset_state_values : Prop :=
  State.reset.ctl = ⟨.unformatted, none, none, none⟩
  ∧ State.reset.btu.zones = [] ∧ State.reset.btu.bands = [] ∧ State.reset.btu.pressure = false
  ∧ State.reset.btu.refresh = [] ∧ State.reset.btu.openWait = [] ∧ State.reset.gmu.map = []
  ∧ (∀ n ∈ allStreams, State.reset.stream n = ⟨0, 31, none, [], [], false, none, none⟩)
  ∧ State.reset.slu.dir = [] ∧ State.reset.slu.logHeld = false ∧ State.reset.slu.fold = none
  ∧ State.reset.slu.overlayWait = [] ∧ State.reset.slu.foldReqs = []
  ∧ State.reset.cle = ⟨.idle, none, [], ⟨.time, 1000, 1000, false, 0⟩, 512⟩
  ∧ State.reset.qen = ⟨none, [], none⟩
  ∧ (∀ c ∈ allClasses, State.reset.har.queue c = [] ∧ State.reset.har.skip c = 0)
  ∧ State.reset.har.mask = ⟨false, false, false⟩ ∧ State.reset.har.nextId = 1
  ∧ State.reset.mpt = ⟨true, .idle, none, ⟨0, 0, 0⟩, 1, 0, 0, 0, none, []⟩
  ∧ State.reset.flu = ⟨.ready, [], 0, [], [], []⟩ ∧ State.reset.rqu = ⟨[], [], 2000, 0⟩
  ∧ State.reset.evu.flags = 0 ∧ State.reset.evu.enables = 0 ∧ State.reset.evu.watchQueue = []
  ∧ (∀ i ∈ allFlags, State.reset.evu.details[i.val] = 0)
  ∧ (∀ w ∈ allWindows, State.reset.evu.windows[w.val] = none)
  ∧ ∀ s : State, exec .powerOnReset s = .next
    { pending := s.pending, residue := s.residue, flu := { wire := s.flu.wire }, mpt := { wire := s.mpt.wire } }

/-- The reset state meets every invariant below. -/
def Obligations.Reset_meets_invariants : Prop :=
  State.reset.MapCanonical ∧ State.reset.BandsSound ∧ State.reset.PortSound ∧ State.reset.CountersInRange
    ∧ State.reset.PacerInRange

/-- Every step keeps the granule map in canonical form (the model's own form, log entry 3). -/
def Obligations.Step_keeps_map_canonical : Prop :=
  ∀ s t : State, s.MapCanonical → step s = .next t → t.MapCanonical

/-- Every step keeps every band record sound: its number, its slot list ending at the frontier, its retry counter within
0..255 and its fatigue count within 0..3 (R18, R19, R38). -/
def Obligations.Step_keeps_bands_sound : Prop :=
  ∀ s t : State, s.BandsSound → step s = .next t → t.BandsSound

/-- Every step keeps the media port sound: an operation is in progress exactly in CLAIMING to ABORTING, a DOWN port has
none and its failure counter at 3, and only a DOWN port is PROBING (R147, R157, R158, R159). -/
def Obligations.Step_keeps_port_sound : Prop :=
  ∀ s t : State, s.PortSound → step s = .next t → t.PortSound

/-- Every step keeps the part's counters in their ranges: the failure counter, the order number and operation id
counters, the skip counters, the pacer's credits, reload and count, the clean threshold, the hold timeout, the entries
in use and the admission counter, the frame errors, the placement sequence, the close-order counter, a qualification's
errors, every operation's defers and retries used, and the WATCH queue's length (R30, R44, R125 to R127, R133, R141,
R145, R147, R157, R163, R166, R174, R182). That the pacer's reload and count stay at most 65,535 is said of a front
command that is well formed, since the model judges operands that no frame spells too (log entry 36). -/
def Obligations.Step_keeps_counters_in_range : Prop :=
  (∀ s t : State, s.CountersInRange → step s = .next t → t.CountersInRange)
  ∧ ∀ s t : State, (∀ i ∈ s.pending.head?, i.wf = true) → s.PacerInRange → step s = .next t → t.PacerInRange

/-- What no internal step, tick, limit or channel answer changes: the controller state and its image load, the geometry,
R and the number of bands, the LGN count and the placement sequence, the link's assembler with the bytes it holds, its
errors and waiting frames, the frames sent, the settings of STREAM_SET (each stream's zone range), MASK_SET,
EVENT_ENABLE and PACER_SET (mode, running state and reload), the admission counter and the queue of commands; frames are
only added to the outbound queue, unless a RESET reply was awaited (R62, R125, R127, R146, R174, R178, R184). -/
def Obligations.Work_changes_no_setting : Prop :=
  ∀ (s t : State) (i : Instr), isWork i = true → exec i s = .next t →
    t.pending = s.pending ∧ t.ctl.mode = s.ctl.mode ∧ t.ctl.imageLoad = s.ctl.imageLoad
    ∧ t.ctl.quiesceTag = s.ctl.quiesceTag ∧ t.btu.zones = s.btu.zones ∧ t.btu.reserve = s.btu.reserve
    ∧ t.btu.bands.length = s.btu.bands.length ∧ t.gmu.lgnCount = s.gmu.lgnCount ∧ t.gmu.sequence = s.gmu.sequence
    ∧ t.flu.assembler = s.flu.assembler ∧ t.flu.held = s.flu.held ∧ t.flu.errors = s.flu.errors
    ∧ t.flu.waiting = s.flu.waiting ∧ t.flu.wire = s.flu.wire
    ∧ t.rqu.holdTimeout = s.rqu.holdTimeout ∧ t.rqu.admission = s.rqu.admission
    ∧ t.evu.enables = s.evu.enables ∧ t.har.mask = s.har.mask ∧ t.cle.threshold = s.cle.threshold
    ∧ t.cle.pacer.reload = s.cle.pacer.reload ∧ t.cle.pacer.mode = s.cle.pacer.mode
    ∧ t.cle.pacer.running = s.cle.pacer.running
    ∧ (∀ n ∈ allStreams, (t.stream n).lo = (s.stream n).lo ∧ (t.stream n).hi = (s.stream n).hi)
    ∧ (s.ctl.resetWait = none → t.ctl = s.ctl ∧ ∃ more, t.flu.outbound = s.flu.outbound ++ more)

/-! ### Frames and placement arithmetic -/

/-- Decode and encode agree: a well-formed request's frame reads back as that request, every operand kept (R162, R164,
R194 to R196, R199, R202). -/
def Obligations.Decode_encode_request : Prop :=
  ∀ i : Instr, i.wf = true → i.requestParts.isSome = true → ∃ bs, encodeFrame i = some bs ∧ decodeFrame bs = i

/-- Decode and encode agree for the channel's answers (R204). -/
def Obligations.Decode_encode_answer : Prop :=
  (∀ n, n < 65536 → (encodeAnswer (.accepted n)).bind decodeAnswer = some (.accepted n)
    ∧ (encodeAnswer (.defer n)).bind decodeAnswer = some (.defer n))
  ∧ (∀ n st d x, n < 65536 → st ≤ 4 → d < 65536 → x < 65536 →
    (encodeAnswer (.finished n st d x)).bind decodeAnswer = some (.finished n st d x))
  ∧ ∀ n x content, n < 65536 → x < 65536 → content.length = 4096 →
    (encodeAnswer (.data n x content)).bind decodeAnswer = some (.data n x content)

/-- Consecutive runs of a span: each lies on one track, is not empty, starts where the one before ended, is maximal (it
ends at its track's end or at the span's), and together they are the whole span (R8). -/
def Obligations.Span_runs_cover : Prop :=
  ∀ spt a n : Nat, 0 < spt →
    (∀ p ∈ cutSpan spt a n, 0 < p.count ∧ p.sector + p.count ≤ spt ∧ spt * p.track + p.sector = a + p.offset
      ∧ (p.sector + p.count = spt ∨ p.offset + p.count = n))
    ∧ ((cutSpan spt a n).map Piece.count).sum = n
    ∧ ∀ i p, (cutSpan spt a n)[i]? = some p → p.offset = (((cutSpan spt a n).take i).map Piece.count).sum

/-- The reclaim ratio lies between 0 and 1,024, and is 0 with every slot live and 1,024 with none (R17). -/
def Obligations.Reclaim_ratio_range : Prop :=
  ∀ cap live : Nat, 0 < cap → live ≤ cap →
    reclaimRatio cap live ≤ 1024 ∧ reclaimRatio cap live = 1024 * (cap - live) / cap
    ∧ (live = cap → reclaimRatio cap live = 0) ∧ (live = 0 → reclaimRatio cap live = 1024)

/-- No seed of the test pattern is 0, two tracks of one band take different seeds, and so do the same track of bands
whose numbers differ by less than 65,536 (R135). -/
def Obligations.Pattern_seeds_differ : Prop :=
  (∀ b t : Nat, t < 256 → patternSeed b t ≠ 0)
  ∧ (∀ b t u : Nat, t < 256 → u < 256 → t ≠ u → patternSeed b t ≠ patternSeed b u)
  ∧ ∀ b c t : Nat, t < 256 → b < c → c - b < 65536 → patternSeed b t ≠ patternSeed c t

/-! ### STORE, FETCH, DISCARD -/

/-- A STORE in ONLINE that passes its judgement takes the placement sequence and enters ordering WAITING, its range
clamped to the granule's end and its payload in its buffer; one with an LGN, stream, first sector or count out of
range, a payload shorter than the clamped count, or a sequence counter at its maximum is refused and changes nothing
else (R44, R166, R169, R170). The model's choices in it: that it always waits for a REQUEST_START (log entry 2), and
which refusals carry the CLAMPED bit, those after the range is judged (log entry 20). -/
def Obligations.Store_arrival_result : Prop :=
  (∀ (s : State) (tag lgn first count stream : Nat) (payload : List Sector),
     s.admitsTag tag → s.ctl.mode = .online → lgn < s.gmu.lgnCount → stream < 8 → first ≤ 15 → 1 ≤ count →
     min count (16 - first) ≤ payload.length → s.gmu.sequence < Config.counterMax →
     exec (.store tag lgn first count stream payload) s =
       .next (({ s with gmu := { s.gmu with sequence := s.gmu.sequence + 1 } }).entered
         { s.plainEntry codeStore tag with
           lgns := some (lgn, lgn), range := some (first, min count (16 - first)), clamped := decide (16 < first + count)
           sequence := some s.gmu.sequence, stream := stream, phase := .waiting
           buffer := placeSectors (freshBuffer s.residue) first (payload.take (min count (16 - first))) }))
  ∧ (∀ (s : State) (tag lgn first count stream : Nat) (payload : List Sector),
       s.admitsTag tag → s.ctl.mode = .online →
       (s.gmu.lgnCount ≤ lgn ∨ 8 ≤ stream ∨ 15 < first ∨ count = 0 →
         exec (.store tag lgn first count stream payload) s = .next (s.answered codeStore tag false .badArgument []))
       ∧ (lgn < s.gmu.lgnCount → stream < 8 → first ≤ 15 → 1 ≤ count → payload.length < min count (16 - first) →
         exec (.store tag lgn first count stream payload) s =
           .next (s.answered codeStore tag (decide (16 < first + count)) .badArgument []))
       ∧ (lgn < s.gmu.lgnCount → stream < 8 → first ≤ 15 → 1 ≤ count → min count (16 - first) ≤ payload.length →
         Config.counterMax ≤ s.gmu.sequence →
         exec (.store tag lgn first count stream payload) s =
           .next (s.answered codeStore tag (decide (16 < first + count)) .wrongState [])))

/-- A FETCH and a DISCARD that pass their judgement in ONLINE enter ordering WAITING, clamped; the DISCARD takes one
placement sequence for its whole range, the FETCH none (R44, R169, R170; log entry 2). A FETCH with its LGN or first
sector out of range or a count of 0, and a DISCARD with its first LGN out of range or a count of 0 or above 65,536, is
refused BAD_ARGUMENT, and a DISCARD that finds the sequence counter at its maximum WRONG_STATE; a request refused
changes nothing else (R44, R169). Which refusal carries the CLAMPED bit is the model's choice (log entry 20). -/
def Obligations.Fetch_discard_enter_ordering : Prop :=
  ∀ (s : State) (tag lgn : Nat), s.admitsTag tag → s.ctl.mode = .online →
    (∀ first count : Nat,
      (lgn < s.gmu.lgnCount → first ≤ 15 → 1 ≤ count →
        exec (.fetch tag lgn first count) s =
          .next (s.entered { s.plainEntry codeFetch tag with
            lgns := some (lgn, lgn), range := some (first, min count (16 - first)), phase := .waiting
            clamped := decide (16 < first + count) }))
      ∧ (s.gmu.lgnCount ≤ lgn ∨ 15 < first ∨ count = 0 →
        exec (.fetch tag lgn first count) s = .next (s.answered codeFetch tag false .badArgument [])))
    ∧ ∀ count : Nat,
      (lgn < s.gmu.lgnCount → 1 ≤ count → count ≤ 65536 →
        (s.gmu.sequence < Config.counterMax →
          exec (.discard tag lgn count) s =
            .next (({ s with gmu := { s.gmu with sequence := s.gmu.sequence + 1 } }).entered
              { s.plainEntry codeDiscard tag with
                lgns := some (lgn, min (lgn + count - 1) (s.gmu.lgnCount - 1)), sequence := some s.gmu.sequence
                clamped := decide (s.gmu.lgnCount < lgn + count), phase := .waiting }))
        ∧ (Config.counterMax ≤ s.gmu.sequence →
          exec (.discard tag lgn count) s =
            .next (s.answered codeDiscard tag (decide (s.gmu.lgnCount < lgn + count)) .wrongState [])))
      ∧ (s.gmu.lgnCount ≤ lgn ∨ count = 0 ∨ 65536 < count →
        exec (.discard tag lgn count) s = .next (s.answered codeDiscard tag false .badArgument []))

/-- A request other than RESET is refused QUEUE_FULL with 32 entries in use, and TAG_IN_USE when its tag is that of an
entry; neither takes an entry or an admission number (R167). One that is admitted in a controller state that does not
take its code is refused WRONG_STATE before its arguments are judged (R185; QUIESCE, RESUME and the INSPECT kinds have
statements of their own). -/
def Obligations.Admission_and_state_refusals : Prop :=
  (∀ (s : State) (i : Instr) (code tag : Nat) (body : List Byte),
    i.requestParts = some (code, tag, body) → code ≠ codeReset → s.takesFrames = true →
    (Config.entryLimit ≤ s.rqu.entries.length →
      exec i s = .next { s with flu := { s.flu with
        assembler := .ready, held := [], outbound := s.flu.outbound ++ [replyFrame code tag false .queueFull []] } })
    ∧ (s.rqu.entries.length < Config.entryLimit → (∃ e ∈ s.rqu.entries, e.tag = tag) →
      exec i s = .next { s with flu := { s.flu with
        assembler := .ready, held := [], outbound := s.flu.outbound ++ [replyFrame code tag false .tagInUse []] } }))
  ∧ ∀ (s : State) (i : Instr) (code tag : Nat) (body : List Byte),
    i.requestParts = some (code, tag, body) → s.admitsTag tag →
    ((code = codeStore ∨ code = codeFetch ∨ code = codeDiscard ∨ code = codeFold ∨ code = codeClean ∨ code = codeQualify)
        ∧ s.ctl.mode ≠ .online
      ∨ (code = codeQualifyStop ∨ code = codePacerSet ∨ code = codeMaskSet ∨ code = codeWatchSet ∨ code = codeWatchClear
          ∨ code = codeMediaRestart) ∧ s.ctl.mode = .unformatted
      ∨ code = codeStreamSet ∧ (s.ctl.mode = .unformatted ∨ s.ctl.mode = .quiesced)
      ∨ code = codeFormat ∧ (s.ctl.mode = .online ∨ s.ctl.mode = .quiescing)
      ∨ code = codeImageRead ∧ s.ctl.mode ≠ .quiesced
      ∨ (code = codeImageWrite ∨ code = codeImageCommit) ∧ s.ctl.mode ≠ .unformatted) →
    exec i s = .next (s.answered code tag false .wrongState [])

/-- REQUEST_START starts the first WAITING request that shares no granule with an entry admitted before it: what
answers is the state of starting that request, and every entry before it names an LGN range apart from its own, so an
earlier request of a granule is never overtaken. Where every WAITING request shares a granule with an earlier entry,
nothing starts (R170). -/
def Obligations.Start_never_overtakes : Prop :=
  ∀ s : State,
    (exec .requestStart s = .next s
      ∧ ∀ before e after, s.rqu.entries = before ++ e :: after → e.phase = .waiting →
        ∃ x ∈ before, ∃ p q, x.lgns = some p ∧ e.lgns = some q ∧ p.1 ≤ q.2 ∧ q.1 ≤ p.2)
    ∨ ∃ before e after, s.rqu.entries = before ++ e :: after ∧ e.phase = .waiting
      ∧ (∀ x ∈ before, ∀ p q, x.lgns = some p → e.lgns = some q → p.2 < q.1 ∨ q.2 < p.1)
      ∧ (∀ b' y a', before = b' ++ y :: a' → y.phase = .waiting →
        ∃ x ∈ b', ∃ p q, x.lgns = some p ∧ y.lgns = some q ∧ p.1 ≤ q.2 ∧ q.1 ≤ p.2)
      ∧ exec .requestStart s =
        .next ((s.updEntry e.tag fun x => { x with phase := .active }).handToOwner { e with phase := .active })

/-- A whole-granule STORE that starts with the port UP and its stream's open band at a slot boundary, nothing before it:
it joins the stream's FIFO, takes the frontier slot, and its first run is queued in WRITE from the frontier to the
slot's or the track's end (R8, R65, R68, R141, R170). Where the stream has no open band it asks a host open: while
PRESSURE is set the STORE is HELD for PRESSURE at the held list's tail, its timer at the timeout in force, and nothing
else changes; while it is clear the open is granted, the STORE placed in the new band's first slot, and PRESSURE judged
by the free count that is left (R25 to R28, R66, R171; said where no open waits, log entry 2). A DISCARD that starts is
applied whole: each LGN of its range, and no other, has no home, no staged record, a clear lost flag and the DISCARD's
sequence as base; the old homes' slots are DEAD, the records of the chain are DEAD (said of a DISCARD of one LGN), and
DONE is replied with the range and the sequence (R22, R46, R54). -/
def Obligations.Store_and_discard_start : Prop :=
  (∀ (s : State) (e : Entry) (lgn b w : Nat), s.startsGranule e lgn → (s.stream (streamOf e.stream)).fifo = [] →
    (s.stream (streamOf e.stream)).openPending = false → (s.stream (streamOf e.stream)).writing = none →
    (s.stream (streamOf e.stream)).openBand = some b → s.frontier b = 16 * w →
    ∃ t, exec .requestStart s = .next t
      ∧ (t.stream (streamOf e.stream)).fifo = [e.placedItem lgn]
      ∧ (t.stream (streamOf e.stream)).writing = some w
      ∧ t.har.queue .write = s.har.queue .write ++
        [{ id := s.har.nextId, cls := .write, isWrite := true, target := .band b
           track := (s.geo b).track0 + 16 * w / (s.geo b).spt, first := 16 * w % (s.geo b).spt
           count := min 16 ((s.geo b).spt - 16 * w % (s.geo b).spt), place := 0
           origin := .stream (streamOf e.stream), tag := some e.tag }]
      ∧ t.rqu.entries = [{ e with phase := .active }] ∧ t.gmu = s.gmu ∧ t.btu = s.btu ∧ t.slu = s.slu ∧ t.mpt = s.mpt
      ∧ t.flu = s.flu ∧ t.evu = s.evu)
  ∧ (∀ (s : State) (e : Entry) (lgn : Nat), s.startsGranule e lgn → s.Bare (streamOf e.stream) →
    (s.btu.pressure = true → exec .requestStart s = .next { s with rqu := { s.rqu with
      entries := [{ e with
        phase := .held, holdReason := some .pressure, holdTimer := some s.rqu.holdTimeout }]
      held := s.rqu.held ++ [e.tag] } })
    ∧ ∀ b bd, s.btu.pressure = false → s.BandsSound → s.btu.openWait = [] → s.OpenTakes (streamOf e.stream) b bd →
      bd.frontier = 0 →
      ∃ t, exec .requestStart s = .next t ∧ s.Opened t (streamOf e.stream) b bd
        ∧ (t.stream (streamOf e.stream)).fifo = [e.placedItem lgn] ∧ (t.stream (streamOf e.stream)).writing = some 0
        ∧ t.har.queue .write = s.har.queue .write ++
          [{ id := s.har.nextId, cls := .write, isWrite := true, target := .band b, track := (s.geo b).track0, first := 0
             count := min 16 (s.geo b).spt, place := 0, origin := .stream (streamOf e.stream), tag := some e.tag }]
        ∧ t.rqu.entries = [{ e with phase := .active }] ∧ t.rqu.held = s.rqu.held ∧ t.gmu = s.gmu ∧ t.slu = s.slu
        ∧ t.mpt = s.mpt)
  ∧ ∀ (s : State) (e : Entry) (lo hi p : Nat),
    s.rqu.entries = [e] → e.phase = .waiting → e.code = codeDiscard → e.lgns = some (lo, hi) → lo ≤ hi →
    e.sequence = some p → s.MapCanonical → (∀ q ∈ s.slu.foldReqs, q.tag ≠ e.tag) →
    ∃ t, exec .requestStart s = .next t ∧ t.rqu.entries = []
      ∧ (∀ k, lo ≤ k → k ≤ hi → t.entryOf k = { base := p })
      ∧ (∀ k, k < lo ∨ hi < k → t.entryOf k = s.entryOf k)
      ∧ (∀ k h bd, lo ≤ k → k ≤ hi → (s.entryOf k).home = some h → s.band? h.band = some bd →
        (bd.state = .opened ∨ bd.state = .full ∨ bd.state = .cleaning) → (∃ l, bd.slots[h.slot]? = some (.live l)) →
        ∃ bd', t.band? h.band = some bd' ∧ bd'.slots[h.slot]? = some .dead ∧ bd'.state = bd.state)
      ∧ (lo = hi → ∀ r ∈ s.chain lo, ∀ x ∈ t.slu.dir, x.pos = r.pos → x.state = .dead)
      ∧ t.flu.outbound.getLast? = some (replyFrame codeDiscard e.tag e.clamped .done
        [.num 4 lo, .num 4 hi, .num 4 0, .num 8 p])
      ∧ t.gmu.sequence = s.gmu.sequence ∧ t.har = s.har ∧ t.swr = s.swr ∧ t.mpt = s.mpt

/-- A partial STORE that starts where the log has room: a WRITING record at the tail, its previous the granule's newest
record, the map's overlay count and newest record follow, and the first write run of the record joins WRITE (R45, R89,
R91, R92). The last run of a WRITING record completes: the record is LIVE and the STORE is replied DONE with the count
used (R93). A staged write fault (an answer WRITE_FAULT or UNRECOVERED to the write, a second SERVO_LOST, or the end of
a completion limit, its ABORT answered or not) makes the record DEAD, its own previous field kept (the model's choice,
log entry 62), links the next newer record past it and lowers the map's overlay count; the port is IDLE; a first record
is appended again at the tail where there is room, with the same sequence and the dead record's previous, its first run
queued; a re-append, or one without room, ends the STORE WRITE_FAILED (R45, R89, R94, R151, R154, R155). That is said
where an earlier record stays in the log, so that the head does not advance (where it does, the order is log entry 38).
-/
def Obligations.Partial_store_append_and_completion : Prop :=
  (∀ (s : State) (e : Entry) (lgn f n p : Nat),
    s.rqu.entries = [e] → e.phase = .waiting → e.code = codeStore → e.range = some (f, n) → (f, n) ≠ (0, 16) →
    e.lgns = some (lgn, lgn) → e.sequence = some p → s.mpt.up = true → s.MapCanonical →
    (s.entryOf lgn).overlays < 8 → s.slu.logHeld = false → s.slu.used + (n + 1) ≤ softLimit s.slu.area →
    s.slu.dir.length < 14336 →
    ∃ t, exec .requestStart s = .next t
      ∧ t.slu.dir = s.slu.dir ++ [⟨s.slu.tail, n + 1, lgn, f, n, p, e.stream, (s.entryOf lgn).newest, .writing, 0⟩]
      ∧ t.slu.tail = (s.slu.tail + (n + 1)) % areaCap s.slu.area ∧ t.slu.used = s.slu.used + (n + 1)
      ∧ t.entryOf lgn = { s.entryOf lgn with overlays := (s.entryOf lgn).overlays + 1, newest := some s.slu.tail }
      ∧ (∀ k, k ≠ lgn → t.entryOf k = s.entryOf k)
      ∧ (s.record? s.slu.tail = none → (t.har.queue .write).map MediaOp.run = (s.har.queue .write).map MediaOp.run ++
        ((cutLog s.slu.area s.slu.tail (n + 1)).take 1).map (fun c =>
          ⟨true, .staging, s.slu.area.firstTrack + c.track, c.sector, c.count, 0, some e.tag⟩))
      ∧ (∀ c, c ≠ .write → t.har.queue c = s.har.queue c)
      ∧ t.btu = s.btu ∧ t.swr = s.swr ∧ t.flu = s.flu ∧ t.mpt = s.mpt ∧ t.evu = s.evu)
  ∧ (∀ (s : State) (o : MediaOp) (r : Record) (w : StagedWrite) (e : Entry) (p f n : Nat),
    s.mpt.stage = .running → s.mpt.op = some o → o.origin = .staged p → o.isWrite = true → s.record? p = some r →
    s.stagedWrite? p = some w → r.len ≤ o.place + o.count → s.entry? w.tag = some e → e.range = some (f, n) →
    ∃ t, exec (.finished s.mpt.order.number 0 0 0) s = .next t
      ∧ t.record? p = some { r with state := .live }
      ∧ t.slu = { s.slu with
        dir := s.slu.dir.map fun x => if x.pos = p then { x with state := .live } else x
        writes := s.slu.writes.filter fun x => decide (x.pos ≠ p) }
      ∧ t.flu = { s.flu with outbound := s.flu.outbound ++ [replyFrame e.code w.tag e.clamped .done
        [.num 1 f, .num 1 n, .num 2 0, .num 8 (e.sequence.getD 0)]] }
      ∧ t.rqu.entries = s.rqu.entries.filter (fun x => decide (x.tag ≠ w.tag))
      ∧ t.mpt = { s.mpt with stage := .idle, op := none, failures := 0, causes := 0 }
      ∧ t.gmu = s.gmu ∧ t.btu = s.btu ∧ t.swr = s.swr ∧ t.har = s.har ∧ t.evu = s.evu)
  ∧ ∀ (s : State) (o : MediaOp) (r r0 : Record) (later : List Record) (w : StagedWrite) (e : Entry) (p : Nat)
      (i : Instr) (m : Mpt),
    s.mpt.op = some o → o.origin = .staged p → o.isWrite = true →
    ((s.mpt.stage = .running ∨ s.mpt.stage = .claiming) ∧ (∃ st d x, (st = 2 ∨ st = 3)
        ∧ i = .finished s.mpt.order.number st d x) ∧ m = { s.mpt with stage := .idle, op := none }
      ∨ ∃ done, s.writeFaults o i done m) →
    s.MapCanonical → s.record? p = some r → r.state = .writing → s.stagedWrite? p = some w →
    s.entry? w.tag = some e → s.slu.foldReqs = [] → s.slu.dir = r0 :: later → r0.pos ≠ p →
    (r0.state ≠ .dead ∨ r0.readers ≠ 0) → s.record? s.slu.tail = none →
    ∃ t dir, exec i s = .next t
      ∧ dir = (s.slu.dir.map fun y =>
        if y.pos = p then { y with state := .dead }
        else if y.lgn = r.lgn ∧ y.state ≠ .dead ∧ y.prev = some p then { y with prev := r.prev } else y)
      ∧ (∀ k, k ≠ r.lgn → t.entryOf k = s.entryOf k)
      ∧ (w.again = false → s.slu.used + r.len ≤ areaCap s.slu.area → s.slu.dir.length < 16384 →
        t.slu.dir = dir ++ [⟨s.slu.tail, r.count + 1, r.lgn, r.first, r.count, r.sequence, r.stream, r.prev, .writing, 0⟩]
        ∧ t.slu.tail = (s.slu.tail + (r.count + 1)) % areaCap s.slu.area ∧ t.slu.used = s.slu.used + (r.count + 1)
        ∧ t.slu.writes = (s.slu.writes.filter fun y => decide (y.pos ≠ p)) ++ [⟨s.slu.tail, w.tag, true⟩]
        ∧ t.entryOf r.lgn = { s.entryOf r.lgn with
          overlays := (s.entryOf r.lgn).overlays - 1 + 1, newest := some s.slu.tail }
        ∧ (t.har.queue .write).map MediaOp.run = (s.har.queue .write).map MediaOp.run ++
          ((cutLog s.slu.area s.slu.tail (r.count + 1)).take 1).map (fun c =>
            ⟨true, .staging, s.slu.area.firstTrack + c.track, c.sector, c.count, 0, some w.tag⟩)
        ∧ (∀ c, c ≠ .write → t.har.queue c = s.har.queue c) ∧ t.rqu = s.rqu ∧ t.flu = s.flu)
      ∧ (w.again = true ∨ areaCap s.slu.area < s.slu.used + r.len ∨ 16384 ≤ s.slu.dir.length →
        t.slu.dir = dir ∧ t.slu.tail = s.slu.tail ∧ t.slu.used = s.slu.used
        ∧ t.slu.writes = (s.slu.writes.filter fun y => decide (y.pos ≠ p))
        ∧ t.entryOf r.lgn = { s.entryOf r.lgn with
          overlays := (s.entryOf r.lgn).overlays - 1
          newest := if (s.entryOf r.lgn).newest = some p then r.prev else (s.entryOf r.lgn).newest }
        ∧ t.flu = { s.flu with outbound := s.flu.outbound ++ [replyFrame e.code w.tag e.clamped .writeFailed []] }
        ∧ t.rqu.entries = s.rqu.entries.filter (fun y => decide (y.tag ≠ w.tag)) ∧ t.har = s.har)
      ∧ t.mpt = m ∧ t.btu = s.btu ∧ t.swr = s.swr ∧ t.evu = s.evu

/-- A FETCH that starts on a granule with no home and no staged record: zeros and DONE where the lost flag is clear,
UNRECOVERED where it is set (R50, R51). With a home and no record: replied at once from a copy the SWR retains; else the
runs of its sectors on the band join READ, each placing its sectors at their indices, counted outstanding and as readers
of the band. Where one LIVE record supplies every sector, the newest of the chain that covers it, the runs are those of
its log positions, counted as readers of the record (R8, R37, R47, R48, R49, R86, R96). What a re-placement item answers
for a slot that was rewritten since is the model's choice (log entry 61). -/
def Obligations.Fetch_start_result : Prop :=
  (∀ (s : State) (e : Entry) (lgn f n : Nat), s.startsFetch e lgn f n →
    (s.entryOf lgn).home = none → (s.entryOf lgn).newest = none →
    ∃ t, exec .requestStart s = .next t ∧ t.rqu.entries = []
      ∧ t.flu.outbound = s.flu.outbound ++ [if (s.entryOf lgn).lost then
          replyFrame codeFetch e.tag e.clamped .unrecovered []
        else replyFrame codeFetch e.tag e.clamped .done
          ([.num 1 f, .num 1 n, .num 2 0] ++ List.replicate n (.sector zeroSector))]
      ∧ t.gmu = s.gmu ∧ t.btu = s.btu ∧ t.swr = s.swr ∧ t.slu = s.slu ∧ t.mpt = s.mpt ∧ t.evu = s.evu)
  ∧ (∀ (s : State) (e : Entry) (lgn f n : Nat) (h : Home), s.startsFetch e lgn f n →
    (s.entryOf lgn).home = some h → (s.entryOf lgn).newest = none →
    (∀ g, s.heldCopy h = some g →
      ∃ t, exec .requestStart s = .next t ∧ t.rqu.entries = []
        ∧ t.flu.outbound = s.flu.outbound ++ [replyFrame codeFetch e.tag e.clamped .done
          ([.num 1 f, .num 1 n, .num 2 0] ++ (List.range n).map fun k => .sector (granuleGet g (f + k)))]
        ∧ t.har = s.har ∧ t.gmu = s.gmu ∧ t.btu = s.btu ∧ t.swr = s.swr ∧ t.slu = s.slu ∧ t.mpt = s.mpt)
    ∧ ∀ bd, s.heldCopy h = none → s.mpt.up = true → s.band? h.band = some bd →
      (bd.state = .opened ∨ bd.state = .full ∨ bd.state = .cleaning) →
      ∃ t, exec .requestStart s = .next t
        ∧ (t.har.queue .read).map MediaOp.run = (s.har.queue .read).map MediaOp.run ++
          (cutSpan (s.geo h.band).spt (16 * h.slot + f) n).map (fun c =>
            ⟨false, .band h.band, (s.geo h.band).track0 + c.track, c.sector, c.count, f + c.offset, some e.tag⟩)
        ∧ t.rqu.entries = [{ e with
          phase := .active, left := (cutSpan (s.geo h.band).spt (16 * h.slot + f) n).length }]
        ∧ t.band? h.band = some { bd with
          readers := bd.readers + (cutSpan (s.geo h.band).spt (16 * h.slot + f) n).length }
        ∧ (∀ c, c ≠ .read → t.har.queue c = s.har.queue c)
        ∧ t.flu = s.flu ∧ t.gmu = s.gmu ∧ t.swr = s.swr ∧ t.slu = s.slu ∧ t.mpt = s.mpt)
  ∧ ∀ (s : State) (e : Entry) (lgn f n : Nat) (r : Record), s.startsFetch e lgn f n → s.mpt.up = true →
    (∀ j, f ≤ j → j < f + n → ((s.chain lgn).find? fun x =>
      decide (x.state = .live) && (decide (x.first ≤ j) && decide (j < x.first + x.count))) = some r) →
    ∃ t, exec .requestStart s = .next t
      ∧ (t.har.queue .read).map MediaOp.run = (s.har.queue .read).map MediaOp.run ++
        (cutLog s.slu.area (r.pos + (1 + f - r.first)) n).map (fun c =>
          ⟨false, .staging, s.slu.area.firstTrack + c.track, c.sector, c.count, f + c.offset, some e.tag⟩)
      ∧ t.rqu.entries = [{ e with
        phase := .active, left := (cutLog s.slu.area (r.pos + (1 + f - r.first)) n).length }]
      ∧ t.slu = { s.slu with dir := s.slu.dir.map fun x => if x.pos = r.pos then
        { x with readers := x.readers + (cutLog s.slu.area (r.pos + (1 + f - r.first)) n).length } else x }
      ∧ (∀ c, c ≠ .read → t.har.queue c = s.har.queue c)
      ∧ t.flu = s.flu ∧ t.gmu = s.gmu ∧ t.swr = s.swr ∧ t.btu = s.btu ∧ t.mpt = s.mpt

/-- An item's sixteenth sector completes. The slot joins the exposed set, after the releases judged on the new track
count, and a full band's set is released whole (R71, R77). A STORE: the granule's home is its slot with the STORE's
sequence as base, the slot LIVE for it, and DONE is replied (R21, R53, R69, R70). A FOLD is accepted where the base is
below its generation, and the records it merged are then DEAD and counted off; else its slot is DEAD and map and log
stand (R46, R55). A CLEAN or REPLACE is accepted where the home is its source slot, which becomes DEAD, and moves the
home alone; else its slot is DEAD (R56). Each accepted change is offered to the watch windows with its cause and its
old and new home (R58). A granule placed in a band of a stream 0 to 7 is one decrease of a pacer that is RUN in EVENT
mode: at 1 it underflows, a credit up to 8 and the count reloaded; one placed by stream 8 leaves the pacer (R70, R126).
-/
def Obligations.Item_completion_result : Prop :=
  ∀ (s : State) (n : Fin 9) (o : MediaOp) (it : Item) (rest : List Item) (b w : Nat) (bd : Band),
    s.BandsSound → s.MapCanonical → s.completesItem n o it rest b w bd →
    ∃ t bd', exec (.finished s.mpt.order.number 0 0 0) s = .next t ∧ t.band? b = some bd' ∧ bd'.frontier = 16 * (w + 1)
      ∧ (t.stream n).exposed = (if (s.geo b).cap ≤ w + 1 then [] else
        ((s.stream n).exposed.filter fun x => staysExposed (s.geo b) (16 * (w + 1) / (s.geo b).spt) x.slot) ++
          [⟨w, it.lgn, it.content⟩])
      ∧ ((∀ q merged, it.work ≠ .fold q merged) ∨ s.slu.overlayWait = [] →
        ∀ k, k ≠ it.lgn → t.entryOf k = s.entryOf k)
      ∧ ((∀ src, it.work ≠ .clean src) →
        (n = relocation ∨ s.cle.pacer.running = false ∨ s.cle.pacer.mode = .time → t.cle.pacer = s.cle.pacer)
        ∧ (n ≠ relocation → s.cle.pacer.running = true → s.cle.pacer.mode = .event →
          (1 < s.cle.pacer.count → t.cle.pacer = { s.cle.pacer with count := s.cle.pacer.count - 1 })
          ∧ (s.cle.pacer.count = 1 → t.cle.pacer =
            { s.cle.pacer with count := s.cle.pacer.reload, credits := min (s.cle.pacer.credits + 1) 8 })))
      ∧ (∀ cause, (∃ tag p, it.work = .store tag p ∧ cause = .store)
          ∨ (∃ q merged, it.work = .fold q merged ∧ (s.entryOf it.lgn).base < q ∧ cause = .fold)
          ∨ (∃ src, (s.entryOf it.lgn).home = some src
            ∧ (it.work = .clean src ∧ cause = .clean ∨ it.work = .replace src ∧ cause = .replace)) →
        t.evu.watchQueue = (s.homeChange it.lgn cause (s.entryOf it.lgn).home (some ⟨b, w⟩)).evu.watchQueue
        ∧ t.evu.windows = (s.homeChange it.lgn cause (s.entryOf it.lgn).home (some ⟨b, w⟩)).evu.windows)
      ∧ (∀ tag p e, it.work = .store tag p → s.entry? tag = some e → (∀ q ∈ s.slu.foldReqs, q.tag ≠ tag) →
        t.entryOf it.lgn = { home := some ⟨b, w⟩, base := p } ∧ bd'.slots[w]? = some (.live it.lgn)
        ∧ replyFrame e.code tag e.clamped .done e.storeFields ∈ t.flu.outbound)
      ∧ (∀ q merged left, it.work = .fold q merged → s.slu.overlayWait = [] →
        left = (s.entryOf it.lgn).overlays -
          s.slu.dir.countP (fun r => merged.contains r.pos && decide (r.state ≠ .dead)) →
        t.slu.fold = none
        ∧ ((s.entryOf it.lgn).base < q →
          t.entryOf it.lgn = { home := some ⟨b, w⟩, base := q, overlays := left
                               newest := if left = 0 then none else (s.entryOf it.lgn).newest }
          ∧ bd'.slots[w]? = some (.live it.lgn) ∧ ∀ x ∈ t.slu.dir, x.pos ∈ merged → x.state = .dead)
        ∧ (q ≤ (s.entryOf it.lgn).base →
          t.entryOf it.lgn = s.entryOf it.lgn ∧ bd'.slots[w]? = some .dead ∧ t.slu.dir = s.slu.dir))
      ∧ ∀ src, it.work = .clean src ∨ it.work = .replace src →
        ((s.entryOf it.lgn).home = some src →
          t.entryOf it.lgn = { s.entryOf it.lgn with home := some ⟨b, w⟩ } ∧ bd'.slots[w]? = some (.live it.lgn)
          ∧ ∀ bs l, s.band? src.band = some bs → bs.state = .opened ∨ bs.state = .full ∨ bs.state = .cleaning →
            bs.slots[src.slot]? = some (.live l) → src ≠ ⟨b, w⟩ →
            ∃ bs', t.band? src.band = some bs' ∧ bs'.slots[src.slot]? = some .dead)
        ∧ ((s.entryOf it.lgn).home ≠ some src →
          t.entryOf it.lgn = s.entryOf it.lgn ∧ bd'.slots[w]? = some .dead)

/-- A write fault closes the band: its frontier moves by the sectors done but not past the slot's last sector, and the
band is FULL for FAULT with the close-order counter's value (R30, R79). The fault is an answer to the write, a second
SERVO_LOST, or the end of a completion limit: an answer to its ABORT, or none at the abort limit, which takes the run's
whole count as done (R151, R154, R155). The port is IDLE, and a second SERVO_LOST and an unanswered ABORT are counted
failures, below the third (R157). The stream's recovery has begun: one re-placement for each exposed slot in order, then
the faulted item, then the rest of the FIFO; the exposed set empty, no item being written, and a machinery open asked
(R66, R80), which waits where the pool is empty and is else granted at once (R26). The model's choices in it: an open
asked while others wait joins them though the free count is 1 or more (log entry 2); the open is asked before R67 is
judged, so re-placements whose slot is no longer LIVE for their granule stay in the FIFO while the open waits, and leave
its head once it is granted (log entry 10): the item then at the head, if it is a re-placement of this fault, has its
slot LIVE for its granule, and its item is being written. -/
def Obligations.Write_fault_closes_band : Prop :=
  ∀ (s : State) (n : Fin 9) (o : MediaOp) (i : Instr) (it : Item) (rest : List Item) (b w done : Nat) (m : Mpt)
    (bd : Band) (r : Recovery) (copies : List Item),
    s.BandsSound → s.mpt.op = some o → o.origin = .stream n → o.isWrite = true → s.writeFaults o i done m →
    (s.stream n).openBand = some b → (s.stream n).writing = some w → (s.stream n).fifo = it :: rest →
    (s.stream n).openPending = false → s.band? b = some bd → bd.state = .opened → bd.frontier ≤ 16 * w + 15 →
    r = ⟨s.swr.faultSerial, b⟩ →
    copies = (s.stream n).exposed.map (fun y =>
      { work := .replace ⟨b, y.slot⟩, lgn := y.lgn, content := y.content, recoveries := [r] }) →
    ∃ t, exec i s = .next t
      ∧ (∃ bd', t.band? b = some bd' ∧ bd'.state = .full ∧ bd'.closeReason = some .fault ∧ bd'.stream = none
        ∧ bd'.closeOrder = some s.btu.closeOrder ∧ bd'.frontier = min (bd.frontier + done) (16 * w + 15))
      ∧ t.mpt = m ∧ (t.stream n).recovery = some r ∧ (t.stream n).exposed = []
      ∧ (s.freeCount = 0 ∨ s.btu.openWait ≠ [] →
        (t.stream n).fifo = copies ++ { it with faulted := true, recoveries := it.recoveries ++ [r] } :: rest
        ∧ (t.stream n).openBand = none ∧ (t.stream n).openPending = true ∧ (t.stream n).writing = none
        ∧ t.btu.openWait = s.btu.openWait ++ [n] ∧ t.har = s.har)
      ∧ (s.freeCount ≠ 0 → s.btu.openWait = [] →
        (∃ gone kept, copies = gone ++ kept
          ∧ (∀ y ∈ gone, ∃ slot, y.work = .replace ⟨b, slot⟩ ∧ bd.slots[slot]? ≠ some (.live y.lgn))
          ∧ (s.mpt.up = true → ∀ y, kept.head? = some y →
            ∃ slot, y.work = .replace ⟨b, slot⟩ ∧ bd.slots[slot]? = some (.live y.lgn))
          ∧ (t.stream n).fifo = kept ++ { it with faulted := true, recoveries := it.recoveries ++ [r] } :: rest)
        ∧ (∃ b' bd', (t.stream n).openBand = some b' ∧ t.band? b' = some bd' ∧ bd'.state = .opened
          ∧ bd'.stream = some n ∧ (s.mpt.up = true → (t.stream n).writing = some (slotsBehind bd'.frontier)))
        ∧ (t.stream n).openPending = false)

/-! ### Held STOREs -/

/-- A held STORE whose timer has run out is replied NO_SPACE and off the held list. A tick counts down every hold
timer and, RUN in TIME mode, the pacer, which at 1 underflows: a credit up to 8 and the count reloaded;
PACER_UNDERFLOW is that underflow (R126, R168, R171, R173; that a tick carries its underflow with it is log entry 2).
Of several timers run out, that of the first of the held list ends first (the model's choice, log entry 41). -/
def Obligations.Hold_expiry_tick_and_underflow : Prop :=
  (∀ (s : State) (tag : Nat) (e : Entry), s.rqu.held.find? s.holdExpired = some tag → s.entry? tag = some e →
     exec .holdExpiry s = .next { s with
       rqu := { s.rqu with
         entries := s.rqu.entries.filter fun e => decide (e.tag ≠ tag)
         held := s.rqu.held.filter fun t => decide (t ≠ tag) }
       flu := { s.flu with outbound := s.flu.outbound ++ [replyFrame e.code tag e.clamped .noSpace []] } })
  ∧ ((∀ s : State, ∃ t, exec .msTick s = .next t
       ∧ t.rqu = { s.rqu with entries := s.rqu.entries.map fun e =>
           { e with holdTimer := e.holdTimer.map fun x => x - 1 } }
       ∧ (s.cle.pacer.running = true ∧ s.cle.pacer.mode = .time →
         (1 < s.cle.pacer.count → t.cle.pacer = { s.cle.pacer with count := s.cle.pacer.count - 1 })
         ∧ (s.cle.pacer.count = 1 →
           t.cle.pacer = { s.cle.pacer with count := s.cle.pacer.reload, credits := min (s.cle.pacer.credits + 1) 8 }))
       ∧ (s.cle.pacer.running = false ∨ s.cle.pacer.mode = .event → t.cle = s.cle)
       ∧ t.gmu = s.gmu ∧ t.btu = s.btu ∧ t.flu = s.flu ∧ t.mpt = s.mpt)
     ∧ ∀ s : State, s.cle.pacer.running = true → s.cle.pacer.count = 1 →
       exec .pacerUnderflow s = .next { s with cle := { s.cle with pacer :=
         { s.cle.pacer with count := s.cle.pacer.reload, credits := min (s.cle.pacer.credits + 1) 8 } } })

/-- A PRESSURE release hands a held STORE to the tail of its stream's FIFO; a LOG release hands a held partial STORE
to the SLU, which admits it where its record fits, and holds it again with the log-held condition set where it does
not. The released STORE is ACTIVE, off the held list, its timer stopped, its sequence kept (R65, R66, R91, R98, R172).
A released STORE whose stream has no open band takes a host open while PRESSURE is clear, and where that open brings
the free count to R a STORE released behind it, for another stream with no open band, is HELD for PRESSURE again, at
the tail with a new timer (R25 to R28, R66, R171). That nothing is released while PRESSURE is set is the model's choice
(log entry 42).
-/
def Obligations.Pressure_and_log_release : Prop :=
  (∀ (s : State) (tag lgn : Nat) (e : Entry), s.btu.pressure = false → s.heldFor .pressure = [tag] →
     s.rqu.entries = [e] → e.tag = tag → e.lgns = some (lgn, lgn) → s.mpt.up = true →
     (s.stream (streamOf e.stream)).writing.isSome = true →
     ∃ t, exec .pressureRelease s = .next t
       ∧ (t.stream (streamOf e.stream)).fifo = (s.stream (streamOf e.stream)).fifo ++
         [{ work := .store tag (e.sequence.getD 0), lgn := lgn, content := e.buffer }]
       ∧ t.rqu.entries = [{ e with phase := .active, holdReason := none, holdTimer := none }]
       ∧ t.rqu.held = s.rqu.held.filter (fun u => decide (u ≠ tag))
       ∧ t.gmu = s.gmu ∧ t.btu = s.btu ∧ t.slu = s.slu ∧ t.mpt = s.mpt ∧ t.har = s.har ∧ t.flu = s.flu)
  ∧ (∀ s : State, s.btu.pressure = true → exec .pressureRelease s = .next s)
  ∧ (∀ (s : State) (lgn b : Nat) (e : Entry) (bd : Band), s.BandsSound → s.btu.pressure = false → s.btu.openWait = [] →
       s.mpt.up = true → e.lgns = some (lgn, lgn) → s.Bare (streamOf e.stream) → s.OpenTakes (streamOf e.stream) b bd →
       bd.frontier = 0 →
       (s.heldFor .pressure = [e.tag] → s.rqu.entries = [e] →
         ∃ t, exec .pressureRelease s = .next t ∧ s.Opened t (streamOf e.stream) b bd
           ∧ (t.stream (streamOf e.stream)).fifo = [e.placedItem lgn] ∧ (t.stream (streamOf e.stream)).writing = some 0
           ∧ t.rqu.entries = [{ e with phase := .active, holdReason := none, holdTimer := none }]
           ∧ t.rqu.held = s.rqu.held.filter (fun u => decide (u ≠ e.tag)) ∧ t.gmu = s.gmu ∧ t.slu = s.slu ∧ t.mpt = s.mpt)
       ∧ ∀ (e' : Entry) (lgn' : Nat), s.heldFor .pressure = [e.tag, e'.tag] → s.rqu.entries = [e, e'] →
         e'.tag ≠ e.tag → e'.lgns = some (lgn', lgn') → streamOf e'.stream ≠ streamOf e.stream →
         s.Bare (streamOf e'.stream) → s.freeCount = s.btu.reserve + 1 →
         ∃ t, exec .pressureRelease s = .next t ∧ s.Opened t (streamOf e.stream) b bd ∧ t.btu.pressure = true
           ∧ (t.stream (streamOf e.stream)).fifo = [e.placedItem lgn]
           ∧ t.stream (streamOf e'.stream) = s.stream (streamOf e'.stream)
           ∧ t.rqu.entries = [{ e with phase := .active, holdReason := none, holdTimer := none },
             { e' with phase := .held, holdReason := some .pressure, holdTimer := some s.rqu.holdTimeout }]
           ∧ t.rqu.held = s.rqu.held.filter (fun u => decide (u ≠ e.tag ∧ u ≠ e'.tag)) ++ [e'.tag]
           ∧ t.gmu = s.gmu ∧ t.slu = s.slu ∧ t.mpt = s.mpt)
  ∧ (∀ (s : State) (tag lgn f n : Nat) (e : Entry), s.slu.logHeld = false → s.heldFor .log = [tag] →
       s.rqu.entries = [e] → e.tag = tag → e.lgns = some (lgn, lgn) → e.range = some (f, n) → s.mpt.up = true →
       (s.entryOf lgn).overlays < 8 →
       (s.slu.used + (n + 1) ≤ softLimit s.slu.area ∧ s.slu.dir.length < 14336 →
         ∃ t, exec .logRelease s = .next t
           ∧ t.slu.dir = s.slu.dir ++
             [⟨s.slu.tail, n + 1, lgn, f, n, e.sequence.getD 0, e.stream, (s.entryOf lgn).newest, .writing, 0⟩]
           ∧ t.rqu.entries = [{ e with phase := .active, holdReason := none, holdTimer := none }]
           ∧ t.rqu.held = s.rqu.held.filter (fun u => decide (u ≠ tag)) ∧ t.btu = s.btu ∧ t.swr = s.swr ∧ t.mpt = s.mpt)
       ∧ (softLimit s.slu.area < s.slu.used + (n + 1) ∨ 14336 ≤ s.slu.dir.length →
         ∃ t, exec .logRelease s = .next t ∧ t.slu = { s.slu with logHeld := true }
           ∧ t.rqu.entries = [{ e with
               phase := .held, holdReason := some .log, holdTimer := some s.rqu.holdTimeout }]
           ∧ t.rqu.held = s.rqu.held.filter (fun u => decide (u ≠ tag)) ++ [tag]
           ∧ t.evu.flags = s.evu.flags ||| EventFlag.bit .logFull
           ∧ t.evu.details[2] = s.slu.used ∧ t.btu = s.btu ∧ t.swr = s.swr ∧ t.mpt = s.mpt ∧ t.gmu = s.gmu))

/-! ### Settings -/

/-- STREAM_SET replaces a host stream's zone range as given (R62). -/
def Obligations.Stream_set_result : Prop :=
  ∀ (s : State) (tag n lo hi : Nat), s.admitsTag tag → (s.ctl.mode = .online ∨ s.ctl.mode = .quiescing) →
    (∀ h : n < 8, lo ≤ hi → hi ≤ 31 →
      exec (.streamSet tag n lo hi) s =
        .next ((s.setStream ⟨n, by omega⟩ { s.stream ⟨n, by omega⟩ with lo := lo, hi := hi }).answered codeStreamSet tag
          false .done [.num 1 n, .num 1 lo, .num 1 hi, .num 1 0]))
    ∧ (8 ≤ n ∨ 31 < lo ∨ 31 < hi ∨ hi < lo →
      exec (.streamSet tag n lo hi) s = .next (s.answered codeStreamSet tag false .badArgument []))

/-- PACER_SET replaces mode, running state and reload (0 taken as 1), sets the count to the reload with the reset option
alone, and keeps the credits (R125). A mode, running state or reset option byte that is not listed is refused
BAD_ARGUMENT and changes no setting (R196). -/
def Obligations.Pacer_set_result : Prop :=
  ∀ (s : State) (tag reload : Nat), s.admitsTag tag → s.ctl.mode ≠ .unformatted →
    (∀ event running withReset : Bool,
      exec (.pacerSet tag event.toNat running.toNat withReset.toNat reload) s =
        .next (({ s with cle := { s.cle with pacer :=
            { mode := if event then .event else .time, reload := max reload 1
              count := if withReset then max reload 1 else s.cle.pacer.count
              running := running, credits := s.cle.pacer.credits } } }).answered codePacerSet tag (decide (reload = 0))
          .done [.num 1 event.toNat, .num 1 running.toNat, .num 1 s.cle.pacer.credits, .num 1 0, .num 2 (max reload 1),
            .num 2 (if withReset then max reload 1 else s.cle.pacer.count)]))
    ∧ ∀ mode running option : Nat, 2 ≤ mode ∨ 2 ≤ running ∨ 2 ≤ option →
      exec (.pacerSet tag mode running option reload) s = .next (s.answered codePacerSet tag false .badArgument [])

/-- MASK_SET replaces the mask, the clean threshold (at most 1,024) and the hold timeout (100 to 60,000) together; a
mask that names READ, WRITE or no class, bits 5 to 7 among them, is refused and changes none of them (R127, R146, R174,
R196). A class masked before and not after resumes with skip counter 0 (R146); that a class newly masked has its counter
set to 0 at once, and that one masked neither before nor after keeps it, is the model's choice (log entry 49). -/
def Obligations.Mask_set_result : Prop :=
  ∀ (s : State) (tag mask threshold timeout : Nat), s.admitsTag tag → s.ctl.mode ≠ .unformatted →
    (mask % 4 = 0 → mask < 32 →
      ∃ t, exec (.maskSet tag mask threshold timeout) s = .next t
        ∧ t.har.mask = ⟨mask.testBit 2, mask.testBit 3, mask.testBit 4⟩
        ∧ (∀ c ∈ allClasses, t.har.queue c = s.har.queue c
          ∧ t.har.skip c = if s.har.mask.has c || t.har.mask.has c then 0 else s.har.skip c)
        ∧ t.cle = { s.cle with threshold := min threshold 1024 }
        ∧ t.rqu.holdTimeout = max 100 (min timeout 60000) ∧ t.rqu.entries = s.rqu.entries
        ∧ t.flu.outbound = s.flu.outbound ++ [replyFrame codeMaskSet tag
            (decide (1024 < threshold ∨ timeout < 100 ∨ 60000 < timeout)) .done
            [.num 1 mask, .num 1 0, .num 2 (min threshold 1024), .num 4 (max 100 (min timeout 60000))]]
        ∧ t.btu = s.btu ∧ t.gmu = s.gmu ∧ t.swr = s.swr ∧ t.slu = s.slu ∧ t.mpt = s.mpt ∧ t.evu = s.evu)
    ∧ (mask % 4 ≠ 0 ∨ 32 ≤ mask →
      exec (.maskSet tag mask threshold timeout) s = .next (s.answered codeMaskSet tag false .badArgument []))

/-- WATCH_SET puts a window in use with its mark clear, its range ended at the last LGN, and WATCH_CLEAR frees one; each
clears every band's hold-blocked mark (R34, R180). The WATCH_CLEAR reply shows a free window: in use 0, overrun mark
clear, mode and range all ones (R196; that mode and range are absent is log entry 25). A WATCH_SET that names window 8
or more, a mode byte of none of the three, a range reversed or one that starts past the last LGN, and a WATCH_CLEAR of
window 8 or more, are refused BAD_ARGUMENT and change no window (R180, R196). -/
def Obligations.Watch_set_clear_result : Prop :=
  (∀ (s : State) (tag w mode lo hi : Nat), s.admitsTag tag → s.ctl.mode ≠ .unformatted →
    (8 ≤ w ∨ (∀ m : WatchMode, m.code ≠ mode) ∨ hi < lo ∨ s.gmu.lgnCount ≤ lo →
      exec (.watchSet tag w mode lo hi) s = .next (s.answered codeWatchSet tag false .badArgument []))
    ∧ (8 ≤ w → exec (.watchClear tag w) s = .next (s.answered codeWatchClear tag false .badArgument [])))
  ∧ ∀ (s : State) (tag w : Nat) (m : WatchMode) (lo hi : Nat), s.admitsTag tag → s.ctl.mode ≠ .unformatted → w < 8 →
    (lo ≤ hi → lo < s.gmu.lgnCount →
      exec (.watchSet tag w m.code lo hi) s =
        .next (({ s with
            evu := { s.evu with
              windows := s.evu.windows.setIfInBounds w (some ⟨lo, min hi (s.gmu.lgnCount - 1), m, false⟩) }
            btu := { s.btu with
              bands := s.btu.bands.map (fun bd => { bd with holdBlocked := false }) } } : State).answered
          codeWatchSet tag (decide (s.gmu.lgnCount ≤ hi)) .done
          [.num 1 w, .num 1 1, .num 1 m.code, .num 1 0, .num 4 lo, .num 4 (min hi (s.gmu.lgnCount - 1))]))
    ∧ ∃ t, exec (.watchClear tag w) s = .next t ∧ t.evu.windows = s.evu.windows.setIfInBounds w none
      ∧ t.evu.watchQueue = s.evu.watchQueue ∧ (∀ bd ∈ t.btu.bands, bd.holdBlocked = false)
      ∧ t.flu.outbound = s.flu.outbound ++ [replyFrame codeWatchClear tag false .done
        [.num 1 w, .num 1 0, .num 1 0xFF, .num 1 0, .num 4 0xFFFFFFFF, .num 4 0xFFFFFFFF]]
      ∧ t.gmu = s.gmu ∧ t.slu = s.slu ∧ t.swr = s.swr

/-! ### Events -/

/-- Raising an event sets its flag and replaces its detail, whatever its enable; one EVENT notice is generated exactly
where the flag was clear and its enable is on (R177). -/
def Obligations.Raise_sets_flag_and_notifies : Prop :=
  ∀ (s : State) (f : EventFlag) (detail : Nat),
    (s.raise f detail).evu = { s.evu with
      flags := s.evu.flags ||| f.bit, details := s.evu.details.set f.index.val detail }
    ∧ (s.raise f detail).flu.outbound =
      (if s.evu.flags.getLsbD f.index.val = false ∧ s.evu.enables.getLsbD f.index.val = true then
        s.flu.outbound ++ [(s.raise f detail).evu.notice] else s.flu.outbound)
    ∧ (s.raise f detail).gmu = s.gmu ∧ (s.raise f detail).btu = s.btu ∧ (s.raise f detail).mpt = s.mpt

/-- EVENT_ENABLE replaces the enables, and after its reply gives one notice exactly where a set flag goes from off to
on. EVENT_ACK clears the flags it names and keeps enables and details; naming MEDIA_DOWN empties the latched cause
set. A set that names no flag is refused (R157, R178, R179). -/
def Obligations.Event_enable_and_ack_result : Prop :=
  (∀ (s : State) (tag set : Nat), s.admitsTag tag →
     (set < 8192 → ∃ t, exec (.eventEnable tag set) s = .next t
       ∧ t.evu = { s.evu with enables := BitVec.ofNat 13 set }
       ∧ t.flu.outbound = s.flu.outbound ++ [replyFrame codeEventEnable tag false .done [.num 2 set, .num 2 0]] ++
         (if ∃ i ∈ allFlags, s.evu.flags.getLsbD i.val = true ∧ s.evu.enables.getLsbD i.val = false
             ∧ set.testBit i.val = true then [t.evu.notice] else [])
       ∧ t.rqu.entries = s.rqu.entries ∧ t.gmu = s.gmu ∧ t.btu = s.btu ∧ t.mpt = s.mpt)
     ∧ (8192 ≤ set → exec (.eventEnable tag set) s = .next (s.answered codeEventEnable tag false .badArgument [])))
  ∧ (∀ (s : State) (tag set : Nat), s.admitsTag tag →
       (set < 8192 → ∃ t, exec (.eventAck tag set) s = .next t
         ∧ (∀ i ∈ allFlags, t.evu.flags.getLsbD i.val = (s.evu.flags.getLsbD i.val && !set.testBit i.val))
         ∧ t.evu.enables = s.evu.enables ∧ t.evu.details = s.evu.details ∧ t.evu.watchQueue = s.evu.watchQueue
         ∧ (∀ w ∈ allWindows, t.evu.windows[w.val] = if set.testBit 12 then
             s.evu.windows[w.val].map (fun x => { x with overrun := false }) else s.evu.windows[w.val])
         ∧ t.mpt = { s.mpt with latched := if set.testBit 8 then 0 else s.mpt.latched }
         ∧ t.flu.outbound = s.flu.outbound ++
           [replyFrame codeEventAck tag false .done [.num 2 t.evu.flags.toNat, .num 2 0]]
         ∧ t.gmu = s.gmu ∧ t.btu = s.btu)
       ∧ (8192 ≤ set → exec (.eventAck tag set) s = .next (s.answered codeEventAck tag false .badArgument [])))

/-- A WATCH notice offered to a queue of 64 is dropped, its windows get their overrun mark and WATCH_OVERRUN is raised,
its detail the set of all windows that hold a mark then; offered to a shorter queue it joins the tail. WATCH notices are
drawn oldest first until the outbound queue holds 32 frames or none is left (R165, R182). A home change makes a notice
of the windows in use whose range holds the LGN and whose mode accepts its cause, those with an overrun mark left out;
it carries cause and homes, and with no such window there is none (R181). -/
def Obligations.Watch_match_and_queue_result : Prop :=
  (∀ (s : State) (lgn : Nat) (cause : HomeCause) (old new : Option Home) (set : BitVec 8),
     (∀ w ∈ allWindows, set.getLsbD w.val = true ↔ ∃ x, s.evu.windows[w.val] = some x ∧ x.lo ≤ lgn ∧ lgn ≤ x.hi
       ∧ (x.mode = .all ∨ cause = .fold ∨ cause = .clean ∨ cause = .replace) ∧ x.overrun = false) →
     (set = 0#8 → s.homeChange lgn cause old new = s)
     ∧ (set ≠ 0#8 → s.homeChange lgn cause old new = s.offerWatch ⟨lgn, set, cause, old, new⟩))
  ∧ (∀ (s : State) (n : WatchNotice),
     (s.evu.watchQueue.length < 64 →
       s.offerWatch n = { s with evu := { s.evu with watchQueue := s.evu.watchQueue ++ [n] } })
     ∧ (64 ≤ s.evu.watchQueue.length →
       (s.offerWatch n).evu.watchQueue = s.evu.watchQueue
       ∧ (s.offerWatch n).evu.flags = s.evu.flags ||| EventFlag.bit .watchOverrun
       ∧ (∀ w ∈ allWindows, (s.offerWatch n).evu.windows[w.val] =
         if n.windows.getLsbD w.val then s.evu.windows[w.val].map (fun x => { x with overrun := true })
         else s.evu.windows[w.val])
       ∧ ∀ set : BitVec 8, (∀ w ∈ allWindows,
           set.getLsbD w.val = true ↔ ∃ x, (s.offerWatch n).evu.windows[w.val] = some x ∧ x.overrun = true) →
         (s.offerWatch n).evu.details[EventFlag.watchOverrun.index.val] = set.toNat))
  ∧ (∀ s : State, s.flu.waiting = [] →
       exec .watchNoticeTaken s = .next { s with
         evu := { s.evu with watchQueue := s.evu.watchQueue.drop (32 - s.flu.outbound.length) }
         flu := { s.flu with outbound := s.flu.outbound ++
           (s.evu.watchQueue.take (32 - s.flu.outbound.length)).map WatchNotice.frame } })

/-! ### Inspection -/

/-- Each INSPECT kind answers with its report and changes nothing else; the kinds that need tables refuse a subject
past the range BAD_ARGUMENT and are refused WRONG_STATE in UNFORMATTED, the others are taken in every controller
state, the link and controller kinds counting the INSPECT's own entry, and an unknown kind is refused BAD_ARGUMENT
(R166, R185, R189). That the command of the controller kind carries the kind's byte, and is refused BAD_ARGUMENT for
every other byte, those of kinds with commands of their own among them, is the model's choice (log entry 9). -/
def Obligations.Inspect_result : Prop :=
  (∀ (s : State) (tag x : Nat), s.admitsTag tag → s.ctl.mode ≠ .unformatted →
     (∀ fs, s.reportZone x = some fs → exec (.inspectZone tag x) s = .next (s.answered codeInspect tag false .done fs))
     ∧ (∀ fs, s.reportBand x = some fs → exec (.inspectBand tag x) s = .next (s.answered codeInspect tag false .done fs))
     ∧ (∀ fs, s.reportGranule x = some fs →
       exec (.inspectGranule tag x) s = .next (s.answered codeInspect tag false .done fs))
     ∧ (∀ fs, s.reportStream x = some fs →
       exec (.inspectStream tag x) s = .next (s.answered codeInspect tag false .done fs))
     ∧ exec (.inspectPool tag) s = .next (s.answered codeInspect tag false .done s.reportPool)
     ∧ exec (.inspectLog tag) s = .next (s.answered codeInspect tag false .done s.reportLog)
     ∧ (s.btu.zones.length ≤ x →
       exec (.inspectZone tag x) s = .next (s.answered codeInspect tag false .badArgument []))
     ∧ (s.btu.bands.length ≤ x →
       exec (.inspectBand tag x) s = .next (s.answered codeInspect tag false .badArgument []))
     ∧ (s.gmu.lgnCount ≤ x →
       exec (.inspectGranule tag x) s = .next (s.answered codeInspect tag false .badArgument []))
     ∧ (8 < x → exec (.inspectStream tag x) s = .next (s.answered codeInspect tag false .badArgument [])))
  ∧ (∀ (s : State) (tag x : Nat) (i : Instr), s.admitsTag tag → s.ctl.mode = .unformatted →
       i ∈ [.inspectZone tag x, .inspectBand tag x, .inspectGranule tag x, .inspectStream tag x, .inspectPool tag,
         .inspectLog tag] → exec i s = .next (s.answered codeInspect tag false .wrongState []))
  ∧ (∀ (s : State) (tag kind : Nat), s.admitsTag tag →
       exec (.inspectCleaner tag) s = .next (s.answered codeInspect tag false .done s.reportCleaner)
       ∧ exec (.inspectQualification tag) s = .next (s.answered codeInspect tag false .done s.reportQualification)
       ∧ exec (.inspectPort tag) s = .next (s.answered codeInspect tag false .done s.reportPort)
       ∧ exec (.inspectLink tag) s = .next (s.answered codeInspect tag false .done
           (s.entered (s.plainEntry codeInspect tag)).reportLink)
       ∧ exec (.inspectEvent tag) s = .next (s.answered codeInspect tag false .done s.reportEvent)
       ∧ exec (.inspectController tag 12) s = .next (s.answered codeInspect tag false .done
           (s.entered (s.plainEntry codeInspect tag)).reportController)
       ∧ (kind ≠ 12 → exec (.inspectController tag kind) s = .next (s.answered codeInspect tag false .badArgument [])))

/-- The INSPECT replies, status word first: the length of every kind and every field of it at its offset, absent values
all ones (R197, R198). That a free window's mode and range are absent is the model's reading (log entry 25), and so is
that the log kind's fold fields are (log entry 26). Whether a copy is held of a slot rewritten since its re-placement
item was made is the model's choice (log entry 61). -/
def Obligations.Inspect_reply_layout : Prop :=
  ∀ s : State,
    (∀ x fs z, s.reportZone x = some fs → s.btu.zones[x]? = some z → BodyHolds (replyBody .done fs)
      [(0, 4, 0), (4, 1, x), (5, 3, 0), (8, 4, z.firstTrack), (12, 4, z.zoneTracks), (16, 2, z.spt), (18, 2, z.tpb),
        (20, 1, z.guard), (21, 1, z.exposure), (22, 2, 0), (24, 4, zoneBands z), (28, 4, firstBand s.btu.zones x),
        (32, 2, zoneCap z), (34, 1, zoneTail z), (35, 1, 0)])
    ∧ (∀ x fs bd, s.reportBand x = some fs → s.band? x = some bd → BodyHolds (replyBody .done fs)
      [(0, 4, 0), (4, 4, bd.number), (8, 1, bd.zone), (9, 1, bd.state.code), (10, 1, (bd.stream.map Fin.val).getD 0xFF),
        (11, 1, (bd.closeReason.map CloseReason.code).getD 0xFF), (12, 4, bd.frontier), (16, 2, (s.geo x).cap),
        (18, 2, bd.live), (20, 2, bd.dead), (22, 2, bd.torn), (24, 2, bd.readers), (26, 1, bd.retry), (27, 1, bd.fatigue),
        (28, 1, bd.holdBlocked.toNat), (29, 1, (bd.prior.map BandState.code).getD 0xFF), (30, 2, 0),
        (32, 8, bd.closeOrder.getD 0)])
    ∧ (∀ x fs e, s.reportGranule x = some fs → e = s.entryOf x → BodyHolds (replyBody .done fs)
      [(0, 4, 0), (4, 4, x), (8, 4, (e.home.map Home.band).getD 0xFFFFFFFF), (12, 2, (e.home.map Home.slot).getD 0xFFFF),
        (14, 1, e.home.isSome.toNat + 2 * e.lost.toNat + 4 * e.newest.isSome.toNat +
          8 * (e.home.bind s.heldCopy).isSome.toNat),
        (15, 1, e.overlays), (16, 8, e.base), (24, 4, e.newest.getD 0xFFFFFFFF), (28, 4, 0), (32, 8, s.gmu.sequence)])
    ∧ (∀ (n : Fin 9) fs x, s.reportStream n = some fs → x = s.stream n → BodyHolds (replyBody .done fs)
      [(0, 4, 0), (4, 1, n), (5, 1, x.lo), (6, 1, x.hi), (7, 1, x.openPending.toNat), (8, 4, x.openBand.getD 0xFFFFFFFF),
        (12, 4, (x.openBand.map s.frontier).getD 0xFFFFFFFF),
        (16, 2, if x.openBand = none then 0xFFFF else x.exposed.length), (18, 2, x.fifo.length),
        (20, 2, x.fifo.countP fun it => it.work.isReplace), (22, 2, 0),
        (24, 4, (x.recovery.map Recovery.band).getD 0xFFFFFFFF),
        (28, 2, 2048 - (allStreams.map fun m =>
          (s.stream m).exposed.length + (s.stream m).fifo.countP fun it => it.work.isReplace).sum), (30, 2, 0)])
    ∧ BodyHolds (replyBody .done s.reportPool) [(0, 4, 0), (4, 4, s.freeCount), (8, 1, s.btu.reserve),
        (9, 1, s.btu.pressure.toNat), (10, 2, 0), (12, 8, s.btu.closeOrder), (20, 4, s.btu.refresh.length)]
    ∧ BodyHolds (replyBody .done s.reportPool)
      ((List.range 64).map fun i => (24 + 4 * i, 4, (s.btu.refresh[i]?).getD 0xFFFFFFFF))
    ∧ BodyHolds (replyBody .done s.reportLog)
      [(0, 4, 0), (4, 4, s.slu.area.firstTrack), (8, 2, s.slu.area.tracks), (10, 2, s.slu.area.spt),
        (12, 4, areaCap s.slu.area), (16, 4, softLimit s.slu.area), (20, 4, foldStart s.slu.area), (24, 4, s.slu.head),
        (28, 4, s.slu.tail), (32, 4, s.slu.used), (36, 2, s.slu.dir.length), (38, 2, s.slu.countState .writing),
        (40, 2, s.slu.countState .live), (42, 2, s.slu.countState .dead), (44, 1, s.slu.logHeld.toNat),
        (45, 1, match s.slu.fold with
          | none => 0
          | some f => if f.stage = .reading then 1 else 2),
        (46, 1, (s.slu.fold.map fun f => f.target.val).getD 0xFF), (47, 1, s.slu.overlayWait.length),
        (48, 1, s.slu.foldReqs.length), (49, 3, 0), (52, 4, (s.slu.fold.map Fold.lgn).getD 0xFFFFFFFF),
        (56, 8, (s.slu.fold.map Fold.generation).getD 0xFFFFFFFFFFFFFFFF)]
    ∧ BodyHolds (replyBody .done s.reportEvent) ([(0, 4, 0), (4, 2, s.evu.flags.toNat), (6, 2, s.evu.enables.toNat),
        (60, 1, s.evu.watchQueue.length), (61, 3, 0)] ++ allFlags.map fun i => (8 + 4 * i.val, 4, s.evu.details[i.val]))
    ∧ (∀ w ∈ allWindows, ∀ x, s.evu.windows[w.val] = some x → BodyHolds (replyBody .done s.reportEvent)
        [(64 + 12 * w.val, 1, 1), (65 + 12 * w.val, 1, x.mode.code), (66 + 12 * w.val, 1, x.overrun.toNat),
          (67 + 12 * w.val, 1, 0), (68 + 12 * w.val, 4, x.lo), (72 + 12 * w.val, 4, x.hi)])
    ∧ (∀ w ∈ allWindows, s.evu.windows[w.val] = none → BodyHolds (replyBody .done s.reportEvent)
        [(64 + 12 * w.val, 1, 0), (65 + 12 * w.val, 1, 0xFF), (66 + 12 * w.val, 1, 0), (67 + 12 * w.val, 1, 0),
          (68 + 12 * w.val, 4, 0xFFFFFFFF), (72 + 12 * w.val, 4, 0xFFFFFFFF)])
    ∧ BodyHolds (replyBody .done s.reportCleaner)
      [(0, 4, 0), (4, 1, s.cle.stage.code), (5, 1, (s.cle.victim.map fun v => v.origin.code).getD 0xFF),
        (6, 1, (s.cle.victim.bind Victim.tag).getD 0xFF), (7, 1, 0),
        (8, 4, (s.cle.victim.map Victim.band).getD 0xFFFFFFFF), (12, 2, (s.cle.victim.map Victim.cursor).getD 0xFFFF),
        (14, 2, (s.cle.victim.map Victim.accepted).getD 0xFFFF), (16, 2, (s.cle.victim.map Victim.rejected).getD 0xFFFF),
        (18, 2, (s.cle.victim.map Victim.lost).getD 0xFFFF), (20, 2, (s.cle.victim.map Victim.skipped).getD 0xFFFF),
        (27, 1, 0), (28, 1, s.cle.pacer.mode.code), (29, 1, s.cle.pacer.running.toNat), (30, 1, s.cle.pacer.credits),
        (31, 1, 0), (32, 2, s.cle.pacer.reload), (34, 2, s.cle.pacer.count), (36, 2, s.cle.threshold),
        (38, 1, s.cle.hostList.length), (39, 1, 0)]
    ∧ BodyHolds (replyBody .done s.reportCleaner)
      ([CopyState.reading, .read, .down, .handed, .ended].zipIdx.map fun (x, i) => (22 + i, 1,
        (s.cle.victim.map fun v => v.batch.countP fun e => decide (e.state = x)).getD 0xFF))
    ∧ BodyHolds (replyBody .done s.reportCleaner)
      ((List.range 32).map fun i => (40 + 4 * i, 4, ((s.cle.hostList[i]?).map Prod.snd).getD 0xFFFFFFFF))
    ∧ BodyHolds (replyBody .done s.reportQualification)
      [(0, 4, 0), (4, 1, s.qen.qual.isSome.toNat), (5, 1, (s.qen.qual.map fun q => q.pass.code).getD 0xFF),
        (6, 1, (s.qen.qual.map fun q => q.stop.toNat + 2 * q.stopTag.isSome.toNat).getD 0xFF),
        (7, 1, (s.qen.qual.bind Qual.stopTag).getD 0xFF), (8, 4, (s.qen.qual.map Qual.band).getD 0xFFFFFFFF),
        (12, 2, (s.qen.qual.map Qual.threshold).getD 0xFFFF), (14, 2, (s.qen.qual.map Qual.track).getD 0xFFFF),
        (16, 2, ((s.qen.qual.bind Qual.run).map Prod.fst).getD 0xFFFF),
        (18, 2, ((s.qen.qual.bind Qual.run).map Prod.snd).getD 0xFFFF),
        (20, 2, (s.qen.qual.map Qual.errors).getD 0xFFFF), (22, 2, (s.qen.qual.map Qual.tracksDone).getD 0xFFFF),
        (24, 2, (s.qen.qual.map fun q => q.faults.length).getD 0xFFFF), (26, 1, s.qen.last.isSome.toNat),
        (27, 1, (s.qen.last.map fun r => r.outcome.code).getD 0xFF),
        (28, 4, (s.qen.last.map LastResult.band).getD 0xFFFFFFFF), (32, 2, (s.qen.last.map LastResult.errors).getD 0xFFFF),
        (34, 2, (s.qen.last.map LastResult.tracksDone).getD 0xFFFF)]
    ∧ BodyHolds (replyBody .done s.reportPort)
      [(0, 4, 0), (4, 1, (!s.mpt.up).toNat), (5, 1, s.mpt.stage.code), (6, 1, s.mpt.failures),
        (7, 1, s.mpt.latched.toNat),
        (8, 1, 4 * s.har.mask.fold.toNat + 8 * s.har.mask.clean.toNat + 16 * s.har.mask.qualify.toNat), (14, 2, 0),
        (16, 4, (s.mpt.op.map MediaOp.id).getD 0xFFFFFFFF), (20, 1, (s.mpt.op.map fun o => o.cls.code).getD 0xFF),
        (21, 1, (s.mpt.op.map fun o => if o.isWrite then 1 else 2).getD 0xFF),
        (22, 1, (s.mpt.op.map MediaOp.defers).getD 0xFF), (23, 1, (s.mpt.op.map MediaOp.retries).getD 0xFF),
        (24, 4, (s.mpt.op.map fun o => match o.target with
          | .band b => b
          | .staging => 0xFFFFFFFE).getD 0xFFFFFFFF),
        (28, 4, (s.mpt.op.map MediaOp.track).getD 0xFFFFFFFF), (32, 2, (s.mpt.op.map MediaOp.first).getD 0xFFFF),
        (34, 2, (s.mpt.op.map MediaOp.count).getD 0xFFFF), (36, 2, (s.mpt.op.map MediaOp.sectorsDone).getD 0xFFFF),
        (38, 1, (s.mpt.op.map fun o => o.servoUsed.toNat).getD 0xFF), (39, 1, 0), (55, 1, 0)]
    ∧ BodyHolds (replyBody .done s.reportPort)
      ((effectiveOrder s.btu.pressure s.slu.logHeld).zipIdx.map fun (c, i) => (9 + i, 1, c.code))
    ∧ BodyHolds (replyBody .done s.reportPort)
      (allClasses.map fun c => (40 + 2 * c.code, 2, (s.har.queue c).length))
    ∧ BodyHolds (replyBody .done s.reportPort) (allClasses.map fun c => (50 + c.code, 1, s.har.skip c))
    ∧ BodyHolds (replyBody .done s.reportLink)
      [(0, 4, 0), (4, 2, s.flu.errors), (6, 1, s.flu.assembler.code), (7, 1, s.flu.outbound.length),
        (8, 4, s.rqu.holdTimeout), (12, 1, s.rqu.entries.length), (13, 3, 0)]
    ∧ (∀ i e, s.rqu.entries[i]? = some e → BodyHolds (replyBody .done s.reportLink)
      [(16 + 4 * i, 1, e.tag), (17 + 4 * i, 1, e.code), (18 + 4 * i, 1, e.phase.code),
        (19 + 4 * i, 1, (e.holdReason.map HoldReason.code).getD 0xFF)])
    ∧ BodyHolds (replyBody .done s.reportController)
      [(0, 4, 0), (4, 1, s.ctl.mode.code), (5, 1, s.ctl.quiesceTag.getD 0xFF),
        (6, 1, (!s.swrIdle).toNat + 2 * (!s.sluIdle).toNat + 4 * (!s.cleIdle).toNat + 8 * s.qen.qual.isSome.toNat),
        (7, 1, s.rqu.entries.length), (8, 4, (s.ctl.imageLoad.map ImageLoad.next).getD 0xFFFFFFFF),
        (12, 4, (s.ctl.imageLoad.map ImageLoad.count).getD 0xFFFFFFFF),
        (16, 4, if s.ctl.mode = .unformatted then 0xFFFFFFFF else s.gmu.lgnCount),
        (20, 4, if s.ctl.mode = .unformatted then 0xFFFFFFFF else bandTotal s.btu.zones),
        (24, 1, if s.ctl.mode = .unformatted then 0xFF else s.btu.zones.length),
        (25, 1, if s.ctl.mode = .unformatted then 0xFF else s.btu.reserve), (26, 2, 0),
        (28, 4, if s.ctl.mode = .unformatted then 0xFFFFFFFF else chunksOf s.imageLength)]
    ∧ (∀ x fs, s.reportZone x = some fs → (bodyBytes (replyBody .done fs)).length = 36)
    ∧ (∀ x fs, s.reportBand x = some fs → (bodyBytes (replyBody .done fs)).length = 40)
    ∧ (∀ x fs, s.reportGranule x = some fs → (bodyBytes (replyBody .done fs)).length = 40)
    ∧ (∀ x fs, s.reportStream x = some fs → (bodyBytes (replyBody .done fs)).length = 32)
    ∧ (bodyBytes (replyBody .done s.reportPool)).length = 280
    ∧ (bodyBytes (replyBody .done s.reportLog)).length = 64
    ∧ (bodyBytes (replyBody .done s.reportCleaner)).length = 168
    ∧ (bodyBytes (replyBody .done s.reportQualification)).length = 36
    ∧ (bodyBytes (replyBody .done s.reportPort)).length = 56
    ∧ (bodyBytes (replyBody .done s.reportLink)).length = 16 + 4 * s.rqu.entries.length
    ∧ (bodyBytes (replyBody .done s.reportEvent)).length = 160
    ∧ (bodyBytes (replyBody .done s.reportController)).length = 32

/-! ### Machinery -/

/-- A FOLD joins the FOLD request list with its count, at most 1,024, or is replied DONE at once with all three
numbers 0 where no fold runs and no record is LIVE; a count of 0 is refused BAD_ARGUMENT (R101). CLEAN is judged in the
order of R128: a band past the table, a band already listed, a band not FULL, the port DOWN; else it joins the host
CLEAN list and holds its entry. -/
def Obligations.Fold_and_clean_request_result : Prop :=
  (∀ (s : State) (tag : Nat), s.admitsTag tag → s.ctl.mode = .online →
    exec (.fold tag 0) s = .next (s.answered codeFold tag false .badArgument []))
  ∧ (∀ (s : State) (tag count : Nat), s.admitsTag tag → s.ctl.mode = .online → 1 ≤ count →
     (s.slu.fold.isSome = true ∨ s.anyLiveRecord = true →
       exec (.fold tag count) s =
         .next (({ s with slu := { s.slu with
             foldReqs := s.slu.foldReqs ++ [(⟨tag, min count 1024, 0, 0, 0⟩ : FoldReq)] } }).entered
           { s.plainEntry codeFold tag with clamped := decide (1024 < count) }))
     ∧ (s.slu.fold = none → s.anyLiveRecord = false →
       exec (.fold tag count) s = .next (s.answered codeFold tag (decide (1024 < count)) .done
         [.num 2 0, .num 2 0, .num 2 0, .num 1 1, .num 1 0])))
  ∧ (∀ (s : State) (tag b : Nat), s.admitsTag tag → s.ctl.mode = .online →
       (s.band? b = none → exec (.clean tag b) s = .next (s.answered codeClean tag false .badArgument []))
       ∧ ∀ bd, s.band? b = some bd →
         ((∃ e ∈ s.cle.hostList, e.2 = b) → exec (.clean tag b) s = .next (s.answered codeClean tag false .busy []))
         ∧ ((∀ e ∈ s.cle.hostList, e.2 ≠ b) →
           (bd.state ≠ .full → exec (.clean tag b) s = .next (s.answered codeClean tag false .wrongState []))
           ∧ (bd.state = .full → s.mpt.up = false →
             exec (.clean tag b) s = .next (s.answered codeClean tag false .mediaDown []))
           ∧ (bd.state = .full → s.mpt.up = true →
             exec (.clean tag b) s = .next (({ s with cle := { s.cle with
               hostList := s.cle.hostList ++ [(tag, b)] } }).entered (s.plainEntry codeClean tag)))))

/-- A QUALIFY of a RETIRED band, or of an EMPTY one while the free count is R + 2 or more, is accepted: the band is
QUALIFYING with its prior state, the write pass has started at track 0 with its pattern in the buffer and its
whole-track run queued, and the reply carries the threshold in force (R35, R134, R135, R136). A QUALIFY is refused, and
changes nothing else, in the order of R134: WRONG_STATE outside ONLINE, BAD_ARGUMENT for a band past the table or a
marks byte of 2 or more (R196), BUSY while a qualification runs, MEDIA_DOWN, and the status R35 refuses with: NO_SPACE
for an EMPTY band with R + 1 bands or fewer in the free pool, WRONG_STATE for a band neither EMPTY nor RETIRED (R35,
R134). That a marks byte is judged after the band and before the engine is the model's reading (log entry 34). -/
def Obligations.Qualify_accepted : Prop :=
  (∀ (s : State) (tag b threshold marks : Nat), s.admitsTag tag →
    (s.ctl.mode ≠ .online →
      exec (.qualify tag b threshold marks) s = .next (s.answered codeQualify tag false .wrongState []))
    ∧ (s.ctl.mode = .online →
      (s.btu.bands.length ≤ b →
        exec (.qualify tag b threshold marks) s = .next (s.answered codeQualify tag false .badArgument []))
      ∧ ∀ bd, s.band? b = some bd →
        (2 ≤ marks → exec (.qualify tag b threshold marks) s = .next (s.answered codeQualify tag false .badArgument []))
        ∧ (marks < 2 → s.qen.qual ≠ none →
          exec (.qualify tag b threshold marks) s = .next (s.answered codeQualify tag false .busy []))
        ∧ (marks < 2 → s.qen.qual = none → s.mpt.up = false →
          exec (.qualify tag b threshold marks) s = .next (s.answered codeQualify tag false .mediaDown []))
        ∧ (marks < 2 → s.qen.qual = none → s.mpt.up = true → bd.state = .empty → s.freeCount ≤ s.btu.reserve + 1 →
          exec (.qualify tag b threshold marks) s = .next (s.answered codeQualify tag false .noSpace []))
        ∧ (marks < 2 → s.qen.qual = none → s.mpt.up = true → bd.state ≠ .empty → bd.state ≠ .retired →
          exec (.qualify tag b threshold marks) s = .next (s.answered codeQualify tag false .wrongState []))))
  ∧ ∀ (s : State) (tag b threshold : Nat) (bd : Band) (marks : Bool), s.admitsTag tag → s.ctl.mode = .online →
    s.band? b = some bd → bd.number = b → s.qen.qual = none → s.mpt.up = true →
    (bd.state = .retired ∨ (bd.state = .empty ∧ s.btu.reserve + 2 ≤ s.freeCount)) →
    ∃ t, exec (.qualify tag b threshold marks.toNat) s = .next t
      ∧ t.band? b = some { bd with state := .qualifying, prior := some bd.state }
      ∧ t.qen = { s.qen with
        qual := some { band := b, threshold := if marks then threshold else 0, run := some (0, (s.geo b).spt) }
        buffer := trackPattern b 0 (s.geo b).spt }
      ∧ (t.har.queue .qualify).map (fun o => (o.isWrite, o.target, o.track, o.first, o.count)) =
        (s.har.queue .qualify).map (fun o => (o.isWrite, o.target, o.track, o.first, o.count)) ++
          [(true, .band b, (s.geo b).track0, 0, (s.geo b).spt)]
      ∧ t.flu.outbound.getLast? = some (replyFrame codeQualify tag false .done
        [.num 4 b, .num 2 (if marks then threshold else 0), .num 2 0])
      ∧ t.rqu.entries = s.rqu.entries ∧ t.gmu = s.gmu ∧ t.slu = s.slu ∧ t.mpt = s.mpt

/-- QUALIFY_STOP: refused where the QEN is IDLE or a stop already carries a tag; with the run in progress it sets stop
pending and holds its entry; with the run queued, whatever other operation is in progress, the run is withdrawn and the
qualification ends STOPPED at once: the band returns to its prior state with its counters kept, PRESSURE is judged where
it joins the pool, QUALIFY_DONE is raised and the stop answered (R29, R36, R138, R139). A track's write ends at a
FINISHED OK or at a write fault, which puts the track on the fault list with its first unwritten sector and counts the
sectors from there on as errors; a track's read ends at a FINISHED OK, its sectors compared with the pattern (R136,
R137). The track counts as done, and with a stop pending the qualification ends STOPPED; else the next track's run is
queued, its pattern first filled in on the write pass, or after the last track written the read pass begins, each track
read over the span the faults leave (R136, R137, R139). The end of the read pass with no stop pending grades the band:
with the errors at most the threshold PASSED, the band EMPTY with its counts 0, else RETIRED with BAND_RETIRED raised;
the last result written, QUALIFY_DONE raised with the band, and the engine IDLE (R36, R137, R138). -/
def Obligations.Qualify_stop_and_grade_result : Prop :=
  (∀ (s : State) (tag : Nat), s.admitsTag tag → s.ctl.mode ≠ .unformatted →
    (s.qen.qual = none → exec (.qualifyStop tag) s = .next (s.answered codeQualifyStop tag false .wrongState []))
    ∧ ∀ q : Qual, s.qen.qual = some q →
      (q.stopTag.isSome = true → exec (.qualifyStop tag) s = .next (s.answered codeQualifyStop tag false .busy []))
      ∧ (q.stopTag = none →
        (∀ o, s.mpt.op = some o → o.origin = .qual →
          exec (.qualifyStop tag) s = .next (({ s with qen := { s.qen with
            qual := some { q with stop := true, stopTag := some tag } } }).entered (s.plainEntry codeQualifyStop tag)))
        ∧ ((∀ o, s.mpt.op = some o → o.origin ≠ .qual) →
          ∃ t, exec (.qualifyStop tag) s = .next t
            ∧ s.QualStopped t q ∧ t.har.queue .qualify = []
            ∧ (∀ c, c ≠ .qualify → t.har.queue c = s.har.queue c) ∧ t.mpt = s.mpt
            ∧ t.rqu.entries = s.rqu.entries
            ∧ replyFrame codeQualifyStop tag false .done
              [.num 4 q.band, .num 2 q.errors, .num 2 q.tracksDone, .num 1 2, .num 3 0] ∈ t.flu.outbound)))
  ∧ (∀ (s : State) (o : MediaOp) (q ended : Qual) (i : Instr) (m : Mpt), s.qualRuns o q → o.isWrite = true →
    ((s.mpt.stage = .running ∨ s.mpt.stage = .claiming) ∧ (∃ d x, i = .finished s.mpt.order.number 0 d x)
        ∧ m = { s.mpt with stage := .idle, op := none, failures := 0, causes := 0 }
        ∧ ended = { q with tracksDone := q.tracksDone + 1 }
      ∨ ∃ done u, s.writeFaults o i done m ∧ u = (if i = .abortLimitExpiry then o.first else o.first + done)
        ∧ ended = { q with
          tracksDone := q.tracksDone + 1, faults := q.faults ++ [(q.track, u)]
          errors := min (q.errors + ((s.geo q.band).spt - u)) 65535 }) →
    ∃ t, exec i s = .next t ∧ t.mpt = m ∧ t.gmu = s.gmu ∧ t.slu = s.slu ∧ t.swr = s.swr
      ∧ (q.stop = true → s.QualStopped t ended ∧ t.har = s.har)
      ∧ (q.stop = false → q.track + 1 < (s.geo q.band).tpb →
        s.QualGoesOn t { ended with track := q.track + 1 } (s.geo q.band).spt
          (trackPattern q.band (q.track + 1) (s.geo q.band).spt))
      ∧ ∀ n, q.stop = false → q.track + 1 = (s.geo q.band).tpb → ended.Spans 0 (s.geo q.band).spt n →
        s.QualGoesOn t { ended with pass := .read, track := 0 } n s.qen.buffer)
  ∧ (∀ (s : State) (o : MediaOp) (q ended : Qual) (d x : Nat), s.qualRuns o q → o.isWrite = false →
    (s.mpt.stage = .running ∨ s.mpt.stage = .claiming) →
    ended = { q with errors := s.errorsAfter q o.first o.count, tracksDone := q.tracksDone + 1 } →
    ∃ t, exec (.finished s.mpt.order.number 0 d x) s = .next t
      ∧ t.mpt = { s.mpt with stage := .idle, op := none, failures := 0, causes := 0 }
      ∧ t.gmu = s.gmu ∧ t.slu = s.slu ∧ t.swr = s.swr
      ∧ (q.stop = true → s.QualStopped t ended ∧ t.har = s.har)
      ∧ ∀ n, q.stop = false → q.track + 1 < (s.geo q.band).tpb → q.Spans (q.track + 1) (s.geo q.band).spt n →
        s.QualGoesOn t { ended with track := q.track + 1 } n s.qen.buffer)
  ∧ ∀ (s : State) (o : MediaOp) (q : Qual) (bd : Band) (errors : Nat),
    s.mpt.stage = .running → s.qualRuns o q → o.isWrite = false → q.stop = false →
    (s.geo q.band).tpb = q.track + 1 → s.band? q.band = some bd → bd.state = .qualifying →
    errors = s.errorsAfter q o.first o.count →
    ∃ t, exec (.finished s.mpt.order.number 0 0 0) s = .next t
      ∧ t.qen = (⟨none, [], some ⟨q.band, errors, q.tracksDone + 1,
        if errors ≤ q.threshold then .passed else .retired⟩⟩ : Qen)
      ∧ (errors ≤ q.threshold →
        t.band? q.band = some { bd with state := .empty, prior := none, retry := 0, fatigue := 0 }
        ∧ (t.btu.pressure = true ↔ s.btu.pressure = true ∧ t.freeCount < s.btu.reserve + 2))
      ∧ (q.threshold < errors → t.band? q.band = some { bd with state := .retired, prior := none }
        ∧ t.evu.flags.getLsbD EventFlag.bandRetired.index.val = true
        ∧ t.evu.details[EventFlag.bandRetired.index.val] = q.band)
      ∧ (∀ k, k ≠ q.band → t.band? k = s.band? k)
      ∧ t.evu.flags.getLsbD EventFlag.qualifyDone.index.val = true
      ∧ t.evu.details[EventFlag.qualifyDone.index.val] = q.band
      ∧ t.gmu = s.gmu ∧ t.slu = s.slu ∧ t.swr = s.swr ∧ t.har = s.har

/-- MEDIA_RESTART: replied DONE while the port is UP, refused BUSY while it is PROBING, and from a DOWN and IDLE port
a PROBE is sent under the next order number and the request holds its entry. The probe limit, and any answer but OK to
a probe, leave the port DOWN and IDLE and reply MEDIA_DOWN; an OK brings it UP with the counter 0 and the latched set
kept. The completion limit sends an ABORT and enters ABORTING (R147, R151, R159, R204). The model's choices in it: the
record of what was sent (log entry 4), and that an ABORT spends an order number (log entry 21). -/
def Obligations.Restart_probe_and_completion_limit : Prop :=
  (∀ (s : State) (tag : Nat), s.admitsTag tag → s.ctl.mode ≠ .unformatted →
     (s.mpt.up = true → exec (.mediaRestart tag) s = .next (s.answered codeMediaRestart tag false .done []))
     ∧ (s.mpt.up = false → s.mpt.stage = .probing →
       exec (.mediaRestart tag) s = .next (s.answered codeMediaRestart tag false .busy []))
     ∧ (s.mpt.up = false → s.mpt.stage = .idle →
       exec (.mediaRestart tag) s = .next (({ s with mpt := { s.mpt with
         stage := .probing, op := none, order := ⟨s.mpt.orderNo, 0, 0⟩, restartTag := some tag
         orderNo := if s.mpt.orderNo < 65535 then s.mpt.orderNo + 1 else 1
         wire := s.mpt.wire ++ [leBytes 1 4 ++ leBytes 1 0 ++ leBytes 2 s.mpt.orderNo] } }).entered
           (s.plainEntry codeMediaRestart tag))))
  ∧ ((∀ s : State, s.mpt.stage = .running → exec .completionLimitExpiry s = .next { s with mpt := { s.mpt with
       stage := .aborting, orderNo := if s.mpt.orderNo < 65535 then s.mpt.orderNo + 1 else 1
       wire := s.mpt.wire ++ [leBytes 1 3 ++ leBytes 1 0 ++ leBytes 2 s.mpt.order.number] } })
     ∧ ∀ (s : State) (tag : Nat) (e : Entry), s.mpt.stage = .probing → s.mpt.op = none → s.mpt.restartTag = some tag →
       s.entry? tag = some e →
       (∃ t, exec .probeLimitExpiry s = .next t ∧ t.mpt = { s.mpt with stage := .idle, restartTag := none }
         ∧ t.flu.outbound = s.flu.outbound ++ [replyFrame e.code tag e.clamped .mediaDown []]
         ∧ t.har = s.har ∧ t.swr = s.swr ∧ t.slu = s.slu ∧ t.cle = s.cle)
       ∧ (∀ st d x, 1 ≤ st → st ≤ 4 → ∃ t, exec (.finished s.mpt.order.number st d x) s = .next t
         ∧ t.mpt = { s.mpt with stage := .idle, restartTag := none }
         ∧ t.flu.outbound = s.flu.outbound ++ [replyFrame e.code tag e.clamped .mediaDown []]
         ∧ t.har = s.har ∧ t.swr = s.swr ∧ t.slu = s.slu ∧ t.cle = s.cle)
       ∧ ∀ d x, ∃ t, exec (.finished s.mpt.order.number 0 d x) s = .next t
         ∧ t.mpt = { s.mpt with up := true, stage := .idle, op := none, failures := 0, causes := 0, restartTag := none }
         ∧ replyFrame e.code tag e.clamped .done [] ∈ t.flu.outbound)

/-- The engine takes the first cause that stands: the granule of the oldest STORE that waits for an overlay; else, with
a FOLD request outstanding, or in ONLINE with half the log used or 8,192 records in the directory, the granule of the
LIVE record nearest the head. The merged set is that granule's LIVE records, the merged generation their highest
sequence, the target the stream of the record that has it (R99; a sequence of 0, which no record has, apart). The reads
join FOLD together: each record whole in log order, counted as its readers, then, where an index is covered by none and
the entry has a home that is not held, the maximal runs of uncovered indices on its band, counted as the band's readers;
a held copy gives the uncovered sectors at the choice, and with no home, or nothing uncovered, nothing more is read (R8,
R37, R48, R86, R96, R102). What a copy waiting for re-placement answers for a slot rewritten since is the model's choice
(log entry 61). With no cause, in QUIESCED or while the port is DOWN it starts no fold (R99, R100, R102, R107). Where a
fold's last run ends and no read of it failed, the granule is merged, each sector from the record of highest sequence
that holds it, else from the home copy or zero, and joins the tail of the target stream's FIFO as a FOLD item (R104,
R105). A home copy lost for good, while it is still the granule's home, merges with zeros in its place, the granule
reported lost; a record lost for good is given up, DEAD with GRANULE_LOST raised, and the fold is abandoned, as is one
that loses a copy no longer the home, and its end counted on the oldest FOLD request (R57, R103, R106). -/
def Obligations.Fold_choice_merge_and_abandon : Prop :=
  (∀ (s : State) (lgn : Nat) (merged : List Record) (bare : List Nat) (home : Option Home),
    s.slu.fold = none → s.mpt.up = true → s.foldsFor lgn →
    merged = (s.slu.dir.filter fun x => decide (x.lgn = lgn) && decide (x.state = .live)) → merged ≠ [] →
    bare = (List.range 16).filter (fun j => decide (∀ x ∈ merged, j < x.first ∨ x.first + x.count ≤ j)) →
    home = (if bare = [] then none else (s.entryOf lgn).home) →
    ∃ t f runs reads, exec .foldChoice s = .next t ∧ MaximalRuns bare runs
      ∧ f.stage = .reading ∧ f.lgn = lgn ∧ f.failures = [] ∧ f.merged = none ∧ f.homeLeft = reads.length
      ∧ (∀ j, j ∈ f.covered ↔ j < 16 ∧ j ∉ bare)
      ∧ f.sources.map (fun y => (y.pos, y.len, y.first, y.count, y.sequence, y.left, y.failed)) = merged.map (fun x =>
        (x.pos, x.len, x.first, x.count, x.sequence, (cutLog s.slu.area x.pos x.len).length, false))
      ∧ (∀ x ∈ merged, x.sequence ≤ f.generation)
      ∧ (∃ x ∈ merged, x.sequence = f.generation ∧ (0 < x.sequence → f.target = streamOf x.stream))
      ∧ t.slu = { s.slu with fold := some f, dir := s.slu.dir.map fun x => { x with
        readers := x.readers + ((merged.filter fun y => decide (y.pos = x.pos)).map fun y =>
          (cutLog s.slu.area y.pos y.len).length).sum } }
      ∧ (t.har.queue .fold).map (fun o => (o.origin, o.run)) =
        (s.har.queue .fold).map (fun o => (o.origin, o.run)) ++ (merged.map s.recordReads).flatten ++ reads
      ∧ (∀ c, c ≠ .fold → t.har.queue c = s.har.queue c)
      ∧ (home = none → f.homeSource = .none ∧ reads = [] ∧ t.btu = s.btu)
      ∧ (∀ h, home = some h →
        (∀ g, s.heldCopy h = some g → f.homeSource = .held ∧ reads = [] ∧ t.btu = s.btu
          ∧ ∀ j ∈ bare, granuleGet f.homeBuffer j = granuleGet g j)
        ∧ (s.heldCopy h = none → f.homeSource = .slot h ∧ reads = s.homeReads h runs
          ∧ (∀ bd, s.band? h.band = some bd → t.band? h.band = some { bd with readers := bd.readers +
            if bd.state = .opened ∨ bd.state = .full ∨ bd.state = .cleaning then reads.length else 0 })
          ∧ ∀ k, k ≠ h.band → t.band? k = s.band? k))
      ∧ t.gmu = s.gmu ∧ t.swr = s.swr ∧ t.flu = s.flu ∧ t.mpt = s.mpt ∧ t.evu = s.evu ∧ t.rqu = s.rqu
      ∧ t.cle = s.cle ∧ t.qen = s.qen)
  ∧ (∀ s : State, (s.slu.fold ≠ none ∨ s.mpt.up = false
      ∨ ∀ lgn, s.foldsFor lgn → ∀ x ∈ s.slu.dir, x.lgn = lgn → x.state ≠ .live) → exec .foldChoice s = .next s)
  ∧ (∀ (s : State) (o : MediaOp) (f : Fold) (h : Home) (d x : Nat), s.foldReads o f → o.origin = .foldHome →
    f.homeSource = .slot h → f.homeLeft = 1 → (∀ y ∈ f.sources, y.left = 0) →
    (s.stream f.target).writing.isSome = true →
    (∃ t g, exec (.finished s.mpt.order.number 0 d x) s = .next t ∧ f.MergesTo (granuleGet f.homeBuffer) g
      ∧ t.slu = { s.slu with fold := some { f with homeLeft := 0, stage := .writing, merged := some g } }
      ∧ (t.stream f.target).fifo = (s.stream f.target).fifo ++
        [{ work := .fold f.generation (f.sources.map FoldSource.pos), lgn := f.lgn, content := g }]
      ∧ t.mpt = { s.mpt with stage := .idle, op := none, failures := 0, causes := 0 }
      ∧ t.gmu = s.gmu ∧ t.har = s.har ∧ t.flu = s.flu ∧ t.evu = s.evu)
    ∧ (8 ≤ o.retries → s.MapCanonical → (s.entryOf f.lgn).home = some h →
      ∃ t g, exec (.finished s.mpt.order.number 2 d x) s = .next t ∧ f.MergesTo (fun _ => zeroSector) g
        ∧ t.slu = { s.slu with fold := some { f with
          homeLeft := 0, failures := [.homeUnrecovered], homeSource := .none, stage := .writing, merged := some g } }
        ∧ (t.stream f.target).fifo = (s.stream f.target).fifo ++
          [{ work := .fold f.generation (f.sources.map FoldSource.pos), lgn := f.lgn, content := g }]
        ∧ t.entryOf f.lgn = { s.entryOf f.lgn with home := none, lost := true }
        ∧ (∀ k, k ≠ f.lgn → t.entryOf k = s.entryOf k)
        ∧ t.evu.flags.getLsbD EventFlag.granuleLost.index.val = true
        ∧ t.evu.details[EventFlag.granuleLost.index.val] = f.lgn ∧ t.har = s.har)
    ∧ (∀ moved, 8 ≤ o.retries → (s.entryOf f.lgn).home = some moved → moved ≠ h → s.slu.overlayWait = [] →
      s.slu.foldReqs = [] →
      ∃ t, exec (.finished s.mpt.order.number 2 d x) s = .next t ∧ t.slu = { s.slu with fold := none }
        ∧ t.gmu = s.gmu ∧ t.swr = s.swr ∧ t.har = s.har))
  ∧ ∀ (s : State) (o : MediaOp) (f : Fold) (before after : List FoldSource) (y : FoldSource) (p d x : Nat),
    s.foldReads o f → o.origin = .foldRecord p → o.target = .staging → f.homeLeft = 0 →
    f.sources = before ++ y :: after → y.pos = p → y.left = 1 → y.failed = false →
    (∀ z ∈ before ++ after, z.pos ≠ p ∧ z.left = 0) →
    (headerMatches (granuleGet y.buffer 0) f.lgn y.first y.count y.sequence = true →
      (s.stream f.target).writing.isSome = true →
      ∃ t g, exec (.finished s.mpt.order.number 0 d x) s = .next t
        ∧ f.MergesTo (fun j => match f.homeSource with
          | .none => zeroSector
          | .held => granuleGet f.homeBuffer j
          | .slot _ => granuleGet f.homeBuffer j) g
        ∧ t.slu.fold = some { f with
          sources := before ++ { y with left := 0 } :: after, stage := .writing, merged := some g }
        ∧ (t.stream f.target).fifo = (s.stream f.target).fifo ++
          [{ work := .fold f.generation (f.sources.map FoldSource.pos), lgn := f.lgn, content := g }]
        ∧ t.gmu = s.gmu ∧ t.btu = s.btu ∧ t.har = s.har ∧ t.flu = s.flu ∧ t.evu = s.evu)
    ∧ ∀ (r : Record) (q : FoldReq) (rest : List FoldReq) (i : Instr), s.MapCanonical → s.record? p = some r →
      r.state = .live → (∃ z ∈ s.slu.dir, z.pos ≠ p ∧ z.state = .live) → s.slu.overlayWait = [] →
      s.slu.foldReqs = q :: rest → q.accepted + q.rejected + q.abandoned + 1 < q.count →
      (8 ≤ o.retries ∧ i = .finished s.mpt.order.number 2 d x
        ∨ headerMatches (granuleGet y.buffer 0) f.lgn y.first y.count y.sequence = false
          ∧ i = .finished s.mpt.order.number 0 d x) →
      ∃ t, exec i s = .next t ∧ t.slu.fold = none ∧ (∀ z ∈ t.slu.dir, z.pos = p → z.state = .dead)
        ∧ t.entryOf r.lgn = { s.entryOf r.lgn with
          overlays := (s.entryOf r.lgn).overlays - 1
          newest := if (s.entryOf r.lgn).newest = some p then r.prev else (s.entryOf r.lgn).newest }
        ∧ (∀ k, k ≠ r.lgn → t.entryOf k = s.entryOf k)
        ∧ t.slu.foldReqs = { q with abandoned := q.abandoned + 1 } :: rest
        ∧ t.evu.flags.getLsbD EventFlag.granuleLost.index.val = true
        ∧ t.evu.details[EventFlag.granuleLost.index.val] = f.lgn
        ∧ t.btu = s.btu ∧ t.swr = s.swr ∧ t.har = s.har ∧ t.rqu = s.rqu

/-- The oldest CLEAN request whose band is FULL gives the victim: the band becomes CLEANING with its mark clear and off
the refresh list. With no LIVE slot left it is at once pending its reset; with a LIVE slot outside every HOLD window its
first batch is under way; with LIVE slots that all lie in HOLD windows it is FULL again with its mark set, CLEAN_BLOCKED
is raised and the request replied DONE with the slots skipped (R31, R32, R114, R117, R118, R123). A request whose band
is not FULL any more is replied WRONG_STATE, leaves the list, and the choice is judged again (R117). With nothing
listed, under PRESSURE or with a credit, in ONLINE, the choice is the FULL band nearest the head of the refresh list,
else the scored band of highest reclaim ratio, and its first batch spends a credit where PRESSURE is clear (R114 to
R116, R118). With no candidate, or none allowed for want of a credit, there is no victim; CLEAN_BLOCKED is raised with
no band under PRESSURE alone (R114). -/
def Obligations.Victim_choice_by_source : Prop :=
  (∀ (s : State) (tag b : Nat) (rest : List (Nat × Nat)) (bd : Band), s.BandsSound → s.cle.stage = .idle →
    s.mpt.up = true → (s.ctl.mode = .online ∨ s.ctl.mode = .quiescing) → s.cle.hostList = (tag, b) :: rest →
    s.band? b = some bd → bd.state = .full →
    ((∀ x ∈ bd.slots, x = .dead ∨ x = .torn) →
      ∃ t v, exec .victimChoice s = .next t ∧ t.band? b = some { bd with state := .cleaning, holdBlocked := false }
        ∧ t.cle.victim = some v ∧ v.band = b ∧ v.origin = .host ∧ v.tag = some tag ∧ t.cle.stage = .waitReset
        ∧ b ∉ t.btu.refresh ∧ t.cle.hostList = s.cle.hostList
        ∧ t.gmu = s.gmu ∧ t.swr = s.swr ∧ t.slu = s.slu ∧ t.mpt = s.mpt ∧ t.flu = s.flu)
    ∧ ((∃ lgn, .live lgn ∈ bd.slots ∧ s.inHoldWindow lgn = false) →
      ∃ t v bd', exec .victimChoice s = .next t ∧ t.band? b = some bd' ∧ bd'.state = .cleaning
        ∧ bd'.holdBlocked = false ∧ bd'.slots = bd.slots ∧ bd'.frontier = bd.frontier
        ∧ t.cle.victim = some v ∧ v.band = b ∧ v.origin = .host ∧ v.tag = some tag ∧ t.cle.stage = .batch
        ∧ v.batch ≠ [] ∧ (∀ e ∈ v.batch, bd.slots[e.slot]? = some (.live e.lgn) ∧ s.inHoldWindow e.lgn = false)
        ∧ b ∉ t.btu.refresh ∧ t.cle.hostList = s.cle.hostList ∧ t.gmu = s.gmu ∧ t.slu = s.slu ∧ t.mpt = s.mpt)
    ∧ ((∃ lgn, .live lgn ∈ bd.slots) → (∀ lgn, .live lgn ∈ bd.slots → s.inHoldWindow lgn = true) →
      ∀ e, s.entry? tag = some e →
      ∃ t, exec .victimChoice s = .next t ∧ t.band? b = some { bd with holdBlocked := true }
        ∧ t.cle.victim = none ∧ t.cle.stage = .idle ∧ b ∉ t.btu.refresh
        ∧ t.cle.hostList = s.cle.hostList.filter (fun x => decide (x.1 ≠ tag))
        ∧ t.evu.flags.getLsbD EventFlag.cleanBlocked.index.val = true
        ∧ t.evu.details[EventFlag.cleanBlocked.index.val] = b
        ∧ t.flu.outbound.getLast? = some (replyFrame e.code tag e.clamped .done
          [.num 4 b, .num 1 BandState.full.code, .num 3 0, .num 2 0, .num 2 0, .num 2 0, .num 2 bd.live])
        ∧ t.gmu = s.gmu ∧ t.swr = s.swr ∧ t.slu = s.slu ∧ t.mpt = s.mpt))
  ∧ (∀ (s u : State) (tag b : Nat) (rest : List (Nat × Nat)) (e : Entry), s.cle.stage = .idle → s.mpt.up = true →
    (s.ctl.mode = .online ∨ s.ctl.mode = .quiescing) → s.cle.hostList = (tag, b) :: rest → s.entry? tag = some e →
    (∀ bd, s.band? b = some bd → bd.state ≠ .full) →
    u = { s with
      cle := { s.cle with hostList := rest }
      rqu := { s.rqu with
        entries := s.rqu.entries.filter fun x => decide (x.tag ≠ tag)
        held := s.rqu.held.filter fun x => decide (x ≠ tag) }
      flu := { s.flu with outbound := s.flu.outbound ++ [replyFrame e.code tag e.clamped .wrongState []] } } →
    exec .victimChoice s = exec .victimChoice u ∧ (rest = [] → s.ctl.mode = .quiescing → s.btu.pressure = false →
      exec .victimChoice s = .next u))
  ∧ ∀ s : State, s.BandsSound → s.cle.stage = .idle → s.mpt.up = true → s.ctl.mode = .online → s.cle.hostList = [] →
    (∀ b bd origin, s.btu.pressure = true ∨ 1 ≤ s.cle.pacer.credits → s.band? b = some bd →
      s.OwnCandidate b bd origin → (∃ lgn, .live lgn ∈ bd.slots ∧ s.inHoldWindow lgn = false) →
      ∃ t v bd', exec .victimChoice s = .next t ∧ t.band? b = some bd' ∧ bd'.state = .cleaning
        ∧ bd'.holdBlocked = false ∧ bd'.slots = bd.slots ∧ bd'.frontier = bd.frontier
        ∧ t.cle.victim = some v ∧ v.band = b ∧ v.origin = origin ∧ v.tag = none ∧ t.cle.stage = .batch
        ∧ v.batch ≠ [] ∧ (∀ e ∈ v.batch, bd.slots[e.slot]? = some (.live e.lgn) ∧ s.inHoldWindow e.lgn = false)
        ∧ t.cle.pacer = (if s.btu.pressure then s.cle.pacer
          else { s.cle.pacer with credits := s.cle.pacer.credits - 1 })
        ∧ b ∉ t.btu.refresh ∧ t.cle.hostList = [] ∧ t.gmu = s.gmu ∧ t.slu = s.slu ∧ t.mpt = s.mpt)
    ∧ (s.btu.pressure = false → s.cle.pacer.credits = 0 → exec .victimChoice s = .next s)
    ∧ ((∀ k ∈ s.btu.refresh, ∀ bk, s.band? k = some bk → bk.state ≠ .full) →
      (∀ k bk, s.band? k = some bk → ¬ s.Scored bk) →
      exec .victimChoice s = .next (if s.btu.pressure then s.raise .cleanBlocked 0xFFFFFFFF else s))

/-- A walk that is halted or waits for a credit starts its next batch: from the cursor on, the slots LIVE for a granule
in no HOLD window are gathered in ascending order, at most 32 of them; DEAD and TORN slots, a superseded one among them,
are passed, and slots in HOLD windows are passed and counted skipped. The cursor comes to rest behind the 32nd slot, or
at the slot list's end where fewer are gathered (R118). A slot with a retained copy is READ from it, or HANDED to stream
8 at once, as one more item of its FIFO, where no slot below it is still to be read; each other slot's read runs join
CLEAN in slot order, each counted as a reader of the victim (R37, R119, R121; that they join before a write run of a
copy handed over is log entry 54; what a re-placement item answers for a slot rewritten since, log entry 61). The batch
is paced where PRESSURE is clear, the origin is not HOST and no CLEAN request stands in the list: it spends a credit,
and waits for one where there is none. A batch that gathers nothing, no LIVE slot being left, spends the credit too and
leaves the band pending its reset (R118, R123). -/
def Obligations.Batch_start_gathers : Prop :=
  ∀ (s : State) (v : Victim) (bd : Band) (paced : Bool) (slots reads : List Nat), s.BandsSound →
    (s.cle.stage = .halted ∨ s.cle.stage = .waitCredit) → s.cle.victim = some v →
    s.mpt.up = true → s.ctl.mode = .online → s.band? v.band = some bd → bd.state = .cleaning →
    v.cursor < bd.slots.length → (s.stream relocation).fifo = [] → slots = s.gathers v bd →
    reads = slots.filter (fun j => decide (s.heldCopy ⟨v.band, j⟩ = none)) →
    (paced = true ↔ s.btu.pressure = false ∧ v.origin ≠ .host ∧ s.cle.hostList = []) →
    (paced = true → s.cle.pacer.credits = 0 →
      exec .batchStart s = .next { s with cle := { s.cle with stage := .waitCredit } })
    ∧ (paced = false ∨ 1 ≤ s.cle.pacer.credits →
      (bd.live = 0 → exec .batchStart s = .next { s with cle := { s.cle with
        stage := .waitReset, victim := some { v with cursor := bd.slots.length }
        pacer := if paced then { s.cle.pacer with credits := s.cle.pacer.credits - 1 } else s.cle.pacer } })
      ∧ (slots ≠ [] → ∃ t v' bd' more, exec .batchStart s = .next t ∧ t.cle.stage = .batch ∧ t.cle.victim = some v'
        ∧ v'.batch.map BatchEntry.slot = slots ∧ v'.band = v.band ∧ v'.origin = v.origin
        ∧ v'.cursor = (if slots.length < 32 then bd.slots.length else slots.getLastD 0 + 1)
        ∧ v'.skipped = v.skipped + s.skipsTo v bd v'.cursor
        ∧ (∀ e ∈ v'.batch, bd.slots[e.slot]? = some (.live e.lgn)
          ∧ (s.heldCopy ⟨v.band, e.slot⟩ = none →
            e.state = .reading ∧ e.left = (cutSpan (s.geo v.band).spt (16 * e.slot) 16).length)
          ∧ ∀ g, s.heldCopy ⟨v.band, e.slot⟩ = some g → e.buffer = g ∧ e.left = 0
            ∧ e.state = if ∃ j ∈ reads, j < e.slot then .read else .handed)
        ∧ (t.stream relocation).fifo = (v'.batch.filter fun e => decide (e.state = .handed)).map (fun e =>
          { work := .clean ⟨v.band, e.slot⟩, lgn := e.lgn, content := e.buffer })
        ∧ (t.har.queue .clean).map MediaOp.run = (s.har.queue .clean).map MediaOp.run ++
          (reads.map fun j => (cutSpan (s.geo v.band).spt (16 * j) 16).map fun c =>
            (⟨false, .band v.band, (s.geo v.band).track0 + c.track, c.sector, c.count, c.offset, none⟩ : Run)).flatten ++ more
        ∧ (reads = slots → more = [])
        ∧ t.band? v.band = some bd' ∧ bd' = { bd with readers := bd.readers +
          ((reads.map fun j => (cutSpan (s.geo v.band).spt (16 * j) 16).length).sum) }
        ∧ t.cle.pacer = (if paced then { s.cle.pacer with credits := s.cle.pacer.credits - 1 } else s.cle.pacer)
        ∧ t.gmu = s.gmu ∧ t.slu = s.slu ∧ t.mpt = s.mpt))

/-- A band pending reset with no reader left is reset, unless the part is QUIESCED (log entry 57): EMPTY, or RETIRED at
fatigue count 3 with BAND_RETIRED raised, its frontier, slots, retry counter, close fields and mark cleared; the victim
record ends (R33, R123). A band that becomes EMPTY joins the free pool: PRESSURE is cleared exactly where the free count
is then R + 2 or more, with PRESSURE_OFF raised, and a RETIRED one leaves it as it was (R28, R29). The CLEAN request
that named the band is replied DONE with the state it is left in and the walk's counts, and leaves the host CLEAN list
(R123, R196). -/
def Obligations.Band_reset_clears : Prop :=
  ∀ (s : State) (v : Victim) (bd : Band), s.ctl.mode ≠ .quiesced → s.cle.stage = .waitReset →
    s.cle.victim = some v → s.band? v.band = some bd → bd.number = v.band → bd.state = .cleaning → bd.readers = 0 →
    ∃ t, exec .bandReset s = .next t
      ∧ t.band? v.band = some { bd with
        state := if bd.fatigue = 3 then .retired else .empty, frontier := 0, slots := [], retry := 0, closeOrder := none
        closeReason := none, holdBlocked := false }
      ∧ (∀ k, k ≠ v.band → t.band? k = s.band? k) ∧ v.band ∉ t.btu.refresh
      ∧ t.cle.stage = .idle ∧ t.cle.victim = none ∧ t.gmu = s.gmu ∧ t.slu = s.slu ∧ t.swr = s.swr ∧ t.mpt = s.mpt
      ∧ (bd.fatigue = 3 → t.freeCount = s.freeCount ∧ t.btu.pressure = s.btu.pressure
        ∧ t.evu.flags.getLsbD EventFlag.bandRetired.index.val = true
        ∧ t.evu.details[EventFlag.bandRetired.index.val] = v.band)
      ∧ (bd.fatigue ≠ 3 → t.freeCount = s.freeCount + 1
        ∧ (t.btu.pressure = true ↔ s.btu.pressure = true ∧ t.freeCount < s.btu.reserve + 2)
        ∧ (s.btu.pressure = false ∨ t.freeCount < s.btu.reserve + 2 → t.evu = s.evu)
        ∧ (s.btu.pressure = true → s.btu.reserve + 2 ≤ t.freeCount →
          t.evu.flags.getLsbD EventFlag.pressureOff.index.val = true
          ∧ t.evu.details[EventFlag.pressureOff.index.val] = t.freeCount))
      ∧ (v.tag = none → t.cle.hostList = s.cle.hostList ∧ t.rqu = s.rqu)
      ∧ ∀ tag e, v.tag = some tag → s.entry? tag = some e →
        t.cle.hostList = s.cle.hostList.filter (fun x => decide (x.1 ≠ tag))
        ∧ t.rqu.entries = s.rqu.entries.filter (fun x => decide (x.tag ≠ tag))
        ∧ t.flu.outbound.getLast? = some (replyFrame e.code tag e.clamped .done
          [.num 4 v.band, .num 1 (if bd.fatigue = 3 then 5 else 0), .num 3 0, .num 2 v.accepted, .num 2 v.rejected,
            .num 2 v.lost, .num 2 v.skipped])

/-- The oldest waiting open is granted the lowest EMPTY band of its stream's zone range, or, where the range has none,
the lowest EMPTY band of all with STREAM_SPILL raised: the band is OPEN for the stream, the stream's open is no longer
pending, PRESSURE is judged, and the entry has left the list, whatever the stream's FIFO holds (R25 to R28). With the
port UP and no item being written, the re-placements at the head whose slot is no longer LIVE for their granule, but for
faulted ones, leave the FIFO, and the item then at the head is being written from the band's frontier (R67, R68). -/
def Obligations.Open_wait_granted : Prop :=
  ∀ (s : State) (n : Fin 9) (rest : List (Fin 9)) (b : Nat) (bd : Band), s.BandsSound →
    s.btu.openWait = n :: rest → s.OpenTakes n b bd →
    ∃ t, exec .openWaitGrant s = .next t ∧ t.btu.openWait = rest ∧ s.Opened t n b bd
      ∧ (s.mpt.up = true → (s.stream n).writing = none → ∃ gone, (s.stream n).fifo = gone ++ (t.stream n).fifo
        ∧ (∀ it ∈ gone, it.faulted = false ∧ ∃ src, it.work = .replace src ∧ s.slotLiveFor src it.lgn = false)
        ∧ ∀ it items, (t.stream n).fifo = it :: items → (t.stream n).writing = some (slotsBehind bd.frontier)
          ∧ (it.faulted = true ∨ it.work.isReplace = false
            ∨ ∃ src, it.work = .replace src ∧ s.slotLiveFor src it.lgn = true))
      ∧ t.gmu = s.gmu ∧ t.slu = s.slu ∧ t.mpt = s.mpt ∧ ((s.stream n).fifo = [] → t.har = s.har)

/-- Every UNRECOVERED answer counted against a band of a closed or open state raises its retry counter by 1 up to 255;
the step from 127 to 128 raises the fatigue count up to 3, puts the band on the refresh list once and raises
BAND_FATIGUED with the band's number (R38, R39). A FINISHED UNRECOVERED of a band read in CLAIMING or RUNNING is such
an answer, whether it is re-issued or the read ends by it (R38, R153). -/
def Obligations.Retry_counter_and_fatigue : Prop :=
  (∀ (s : State) (b : Nat) (bd : Band), s.band? b = some bd →
    (bd.state = .opened ∨ bd.state = .full ∨ bd.state = .cleaning) →
    (s.unrecoveredReport b).band? b = some { bd with
      retry := min (bd.retry + 1) 255, fatigue := if bd.retry = 127 then min (bd.fatigue + 1) 3 else bd.fatigue }
    ∧ (s.unrecoveredReport b).btu.refresh =
      (if bd.retry = 127 ∧ b ∉ s.btu.refresh then s.btu.refresh ++ [b] else s.btu.refresh)
    ∧ (s.unrecoveredReport b).evu =
      (if bd.retry = 127 then { s.evu with
        flags := s.evu.flags ||| EventFlag.bit .bandFatigued
        details := s.evu.details.set EventFlag.bandFatigued.index.val b } else s.evu)
    ∧ ∀ k, k ≠ b → (s.unrecoveredReport b).band? k = s.band? k)
  ∧ ∀ (s : State) (o : MediaOp) (b d x : Nat) (bd : Band), s.mpt.op = some o →
    (s.mpt.stage = .claiming ∨ s.mpt.stage = .running) → o.isWrite = false → o.target = .band b →
    (o.cls = .read ∨ o.cls = .fold ∨ o.cls = .clean) → s.band? b = some bd →
    (bd.state = .opened ∨ bd.state = .full ∨ bd.state = .cleaning) →
    (o.retries < 8 → ∃ t, exec (.finished s.mpt.order.number 2 d x) s = .next t
      ∧ t.btu = (s.unrecoveredReport b).btu ∧ t.evu = (s.unrecoveredReport b).evu)
    ∧ (8 ≤ o.retries → o.origin = .fetchBand → ∃ t bd', exec (.finished s.mpt.order.number 2 d x) s = .next t
      ∧ t.band? b = some bd' ∧ bd'.retry = min (bd.retry + 1) 255 ∧ bd'.readers = bd.readers - 1
      ∧ bd'.fatigue = (if bd.retry = 127 then min (bd.fatigue + 1) 3 else bd.fatigue)
      ∧ t.btu.refresh = (s.unrecoveredReport b).btu.refresh ∧ t.evu = (s.unrecoveredReport b).evu)

/-! ### Head arbiter and media port -/

/-- The effective order for each state of PRESSURE and the log-held condition, READ always first, and a grant judges
it from the two as they stand (R143). -/
def Obligations.Effective_order_table : Prop :=
  effectiveOrder false false = [.read, .write, .fold, .clean, .qualify]
  ∧ effectiveOrder true false = [.read, .clean, .fold, .write, .qualify]
  ∧ effectiveOrder false true = [.read, .fold, .write, .clean, .qualify]
  ∧ effectiveOrder true true = [.read, .fold, .clean, .write, .qualify]
  ∧ (∀ p l c, c ∈ effectiveOrder p l)
  ∧ ∀ (s : State) (c : Cls) (o : MediaOp) (q : List MediaOp), s.mpt.up = true → s.mpt.stage = .idle →
    s.har.choose (effectiveOrder s.btu.pressure s.slu.logHeld) = some c → s.har.queue c = o :: q →
    ∃ t, exec .headGrant s = .next t ∧ t.mpt.op = some o

/-- The class a grant takes: one whenever an unmasked class waits, and none otherwise; an aged class (skip counter 16)
whenever there is one; and no class before it in the order could have been taken instead (R144). -/
def Obligations.Choice_follows_order_and_age : Prop :=
  ∀ (h : Har) (order : List Cls), (∀ c, c ∈ order) →
    ((∀ c, h.mask.has c = true ∨ h.queue c = []) → h.choose order = none)
    ∧ ((∃ c, h.mask.has c = false ∧ h.queue c ≠ []) → ∃ c, h.choose order = some c)
    ∧ ∀ c, h.choose order = some c →
      h.mask.has c = false ∧ h.queue c ≠ []
      ∧ ((∃ d, h.ready d = true ∧ 16 ≤ h.skip d) → 16 ≤ h.skip c)
      ∧ ∃ before after, order = before ++ c :: after
        ∧ ∀ d ∈ before, h.ready d = true → 16 ≤ h.skip c ∧ h.skip d < 16

/-- HEAD_GRANT with the port UP and IDLE: the head operation of the chosen class leaves its queue and is in progress,
its order is sent, the granted class's skip counter is 0 and that of every other waiting unmasked class rises by 1 up
to 16 (R144, R145, R147, R148; the record of what was sent is log entry 4). -/
def Obligations.Head_grant_result : Prop :=
  ∀ (s : State) (c : Cls) (o : MediaOp) (q : List MediaOp), s.mpt.up = true → s.mpt.stage = .idle →
    s.har.choose (effectiveOrder s.btu.pressure s.slu.logHeld) = some c → s.har.queue c = o :: q →
    ∃ t, exec .headGrant s = .next t ∧ t.har.queue c = q ∧ (∀ d, d ≠ c → t.har.queue d = s.har.queue d)
      ∧ t.har.skip c = 0
      ∧ (∀ d, d ≠ c → t.har.skip d = if s.har.ready d then min (s.har.skip d + 1) 16 else s.har.skip d)
      ∧ t.mpt = { s.mpt with
        stage := .claiming, op := some o
        order := ⟨s.mpt.orderNo, o.first + o.sectorsDone, o.count - o.sectorsDone⟩
        orderNo := if s.mpt.orderNo < 65535 then s.mpt.orderNo + 1 else 1
        wire := s.mpt.wire ++ [(s.runOrder o).bytes] }
      ∧ t.gmu = s.gmu ∧ t.btu = s.btu ∧ t.swr = s.swr ∧ t.slu = s.slu ∧ t.flu = s.flu ∧ t.evu = s.evu

/-- ACCEPTED and DEFER of the order outstanding in CLAIMING: claimed and RUNNING with defers used 0; deferred with one
defer more while below 4; at 4 the operation fails, counted, NOT_SERVED for DEFER_LIMIT; the re-issue
delay sends the order again under the next order number (R147 to R150; the record of what was sent is log entry 4). -/
def Obligations.Claim_and_defer_result : Prop :=
  ∀ (s : State) (o : MediaOp), s.mpt.op = some o →
    (s.mpt.stage = .claiming → exec (.accepted s.mpt.order.number) s =
      .next { s with mpt := { s.mpt with stage := .running, op := some { o with defers := 0 } } })
    ∧ (s.mpt.stage = .claiming → o.defers < 4 → exec (.defer s.mpt.order.number) s =
      .next { s with mpt := { s.mpt with stage := .deferred, op := some { o with defers := o.defers + 1 } } })
    ∧ (s.mpt.stage = .claiming → 4 ≤ o.defers → exec (.defer s.mpt.order.number) s =
      .next (s.failOp o .deferLimit (.notServed .deferLimit)))
    ∧ (s.mpt.stage = .deferred → exec .reissueDelayExpiry s = .next { s with mpt := { s.mpt with
        stage := .claiming
        order := ⟨s.mpt.orderNo, o.first + o.sectorsDone, o.count - o.sectorsDone⟩
        orderNo := if s.mpt.orderNo < 65535 then s.mpt.orderNo + 1 else 1
        wire := s.mpt.wire ++ [(s.runOrder o).bytes] } })

/-- An answer whose order number is not that of the order outstanding changes nothing, and neither do ACCEPTED and
DEFER outside CLAIMING, read data outside RUNNING, a FINISHED in IDLE or DEFERRED, whose order was given up or
answered, or one of no listed status (R148, R204). Read data of a sector outside the run of the operation in progress,
or taken while that operation is a write, changes nothing either: the model's inferences (log entries 22 and 51). -/
def Obligations.Stale_answers_discarded : Prop :=
  ∀ (s : State) (n st d x : Nat) (content : Sector),
    (n ≠ s.mpt.order.number → exec (.accepted n) s = .next s ∧ exec (.defer n) s = .next s
      ∧ exec (.finished n st d x) s = .next s)
    ∧ (s.mpt.stage ≠ .claiming → exec (.accepted n) s = .next s ∧ exec (.defer n) s = .next s)
    ∧ (s.mpt.stage ≠ .running → exec (.data n x content) s = .next s)
    ∧ (∀ o, s.mpt.op = some o → (x < o.first ∨ o.first + o.count ≤ x ∨ o.isWrite = true) →
      exec (.data n x content) s = .next s)
    ∧ (s.mpt.stage = .idle ∨ s.mpt.stage = .deferred → exec (.finished n st d x) s = .next s)
    ∧ (5 ≤ st → exec (.finished n st d x) s = .next s)

/-- A counted failure: the claim limit, the fifth DEFER, an unanswered ABORT and a second SERVO_LOST each end the
operation, add 1 to the failure counter and their cause to the current causes, the claim limit sending an ABORT first.
Below 3 the port stays UP and IDLE; at the third it is DOWN: every class queue is empty with its skip counter 0, the
causes are latched, MEDIA_DOWN is raised, the waiting CLEAN and FOLD requests and overlay STOREs have left their
lists, no STORE is in a FIFO and no qualification runs (R76, R95, R101, R129, R139, R149 to R151, R155, R157, R158;
the record of what was sent is log entry 4, that an ABORT spends an order number log entry 21). -/
def Obligations.Counted_failure_result : Prop :=
  (∀ (s : State) (o : MediaOp), s.mpt.op = some o → s.mpt.failures < 2 →
     (s.mpt.stage = .claiming → ∃ t, exec .claimLimitExpiry s = .next t ∧ t.mpt = { s.mpt with
         stage := .idle, op := none, failures := s.mpt.failures + 1, causes := s.mpt.causes ||| 1
         orderNo := if s.mpt.orderNo < 65535 then s.mpt.orderNo + 1 else 1
         wire := s.mpt.wire ++ [leBytes 1 3 ++ leBytes 1 0 ++ leBytes 2 s.mpt.order.number] })
     ∧ (s.mpt.stage = .claiming → 4 ≤ o.defers → ∃ t, exec (.defer s.mpt.order.number) s = .next t
       ∧ t.mpt = { s.mpt with
         stage := .idle, op := none, failures := s.mpt.failures + 1, causes := s.mpt.causes ||| 2 })
     ∧ (s.mpt.stage = .aborting → s.ctl.resetWait = none → ∃ t, exec .abortLimitExpiry s = .next t
       ∧ t.mpt = { s.mpt with
         stage := .idle, op := none, failures := s.mpt.failures + 1, causes := s.mpt.causes ||| 4 })
     ∧ (s.mpt.stage = .running → o.servoUsed = true → ∀ d x, ∃ t, exec (.finished s.mpt.order.number 4 d x) s = .next t
       ∧ t.mpt = { s.mpt with
         stage := .idle, op := none, failures := s.mpt.failures + 1, causes := s.mpt.causes ||| 8 }))
  ∧ (∀ (s : State) (o : MediaOp) (i : Instr) (cause : BitVec 4), s.mpt.op = some o → s.mpt.failures = 2 →
       (i = .claimLimitExpiry ∧ s.mpt.stage = .claiming ∧ cause = 1
         ∨ i = .defer s.mpt.order.number ∧ s.mpt.stage = .claiming ∧ 4 ≤ o.defers ∧ cause = 2
         ∨ i = .abortLimitExpiry ∧ s.mpt.stage = .aborting ∧ s.ctl.resetWait = none ∧ cause = 4
         ∨ (∃ d x, i = .finished s.mpt.order.number 4 d x) ∧ s.mpt.stage = .running ∧ o.servoUsed = true ∧ cause = 8) →
       ∃ t, exec i s = .next t ∧ t.mpt.up = false ∧ t.mpt.stage = .idle ∧ t.mpt.op = none
         ∧ t.mpt.failures = 3 ∧ t.mpt.latched = s.mpt.latched ||| (s.mpt.causes ||| cause)
         ∧ (∀ c ∈ allClasses, t.har.queue c = [] ∧ t.har.skip c = 0)
         ∧ t.evu.flags.getLsbD EventFlag.mediaDown.index.val = true
         ∧ t.cle.hostList = [] ∧ t.slu.foldReqs = [] ∧ t.slu.overlayWait = [] ∧ t.qen.qual = none
         ∧ ∀ n ∈ allStreams, ∀ it ∈ (t.stream n).fifo, it.work.isStore = false)

/-- FINISHED OK in RUNNING: the operation ends, the port is IDLE, and the failure counter and current causes are
cleared. FINISHED STOPPED short of the count: the remainder, with the same id and its retries kept, is at the head of
its class queue, and the failure counter stands (R142, R152, R156, R157). A qualification's remainder becomes its
current run, the sectors read so far compared; with a stop pending it is withdrawn, the track not counted as done, and
the qualification ends STOPPED, its band in its prior state (R36, R136 to R139). -/
def Obligations.Finished_ok_and_stopped : Prop :=
  (∀ (s : State) (o : MediaOp) (d x : Nat), s.mpt.op = some o → s.mpt.stage = .running →
     ∃ t, exec (.finished s.mpt.order.number 0 d x) s = .next t
       ∧ t.mpt = { s.mpt with stage := .idle, op := none, failures := 0, causes := 0 })
  ∧ (∀ (s : State) (o : MediaOp) (d x : Nat), s.mpt.op = some o → s.mpt.stage = .running → o.origin ≠ .qual →
       d < s.mpt.order.count →
       ∃ t, exec (.finished s.mpt.order.number 1 d x) s = .next t
         ∧ t.mpt = { s.mpt with stage := .idle, op := none }
         ∧ t.har.queue o.cls = { o with
             first := o.first + (o.sectorsDone + d), count := o.count - (o.sectorsDone + d)
             place := o.place + (o.sectorsDone + d), sectorsDone := 0, defers := 0 } :: s.har.queue o.cls
         ∧ ∀ c, c ≠ o.cls → t.har.queue c = s.har.queue c)
  ∧ ∀ (s : State) (o : MediaOp) (q counted : Qual) (d x done : Nat), s.mpt.stage = .running → s.qualRuns o q →
       d < s.mpt.order.count → done = o.sectorsDone + d →
       counted = { q with errors := if o.isWrite then q.errors else s.errorsAfter q o.first done } →
       ∃ t, exec (.finished s.mpt.order.number 1 d x) s = .next t
         ∧ t.mpt = { s.mpt with stage := .idle, op := none }
         ∧ (∀ c, c ≠ .qualify → t.har.queue c = s.har.queue c)
         ∧ (q.stop = true → t.har.queue .qualify = [] ∧ s.QualStopped t counted)
         ∧ (q.stop = false →
           t.har.queue .qualify = { o with
             first := o.first + done, count := o.count - done, place := o.place + done
             sectorsDone := 0, defers := 0 } :: s.har.queue .qualify
           ∧ t.qen = { s.qen with qual := some { counted with run := some (o.first + done, o.count - done) } }
           ∧ t.btu = s.btu ∧ t.evu = s.evu ∧ t.flu = s.flu ∧ t.rqu = s.rqu ∧ t.gmu = s.gmu ∧ t.slu = s.slu
           ∧ t.swr = s.swr)

/-- FINISHED UNRECOVERED of a read in RUNNING with retries used below 8 sets the sectors done to those of the operation
before the failing sector, wherever in its run that sector lies, and re-issues the order at once from it; a first
SERVO_LOST re-issues the order at once from the sectors done; each under the next order number (R153, R155). A cleaning
read that has used its 8 retries ends UNRECOVERED: where its slot is still the granule's home, the home is removed and
the lost flag set, the slot is DEAD, and GRANULE_LOST is raised with the LGN; base, overlays and newest record stand
(R57, R120, R153). -/
def Obligations.Unrecovered_reissue_and_lost_report : Prop :=
  (∀ (s : State) (o : MediaOp) (d x : Nat), s.mpt.op = some o → s.mpt.stage = .running →
    (o.isWrite = false → o.retries < 8 → o.first ≤ x → x < o.first + o.count →
      ∃ t, exec (.finished s.mpt.order.number 2 d x) s = .next t
        ∧ t.mpt.stage = .claiming ∧ t.har = s.har ∧ t.mpt.failures = s.mpt.failures
        ∧ t.mpt.op = some { o with sectorsDone := x - o.first, retries := o.retries + 1 }
        ∧ t.mpt.order = ⟨s.mpt.orderNo, x, o.first + o.count - x⟩)
    ∧ (o.servoUsed = false → d ≤ s.mpt.order.count →
      ∃ t, exec (.finished s.mpt.order.number 4 d x) s = .next t
        ∧ t.mpt.stage = .claiming ∧ t.har = s.har ∧ t.mpt.failures = s.mpt.failures
        ∧ t.mpt.op = some { o with sectorsDone := o.sectorsDone + d, servoUsed := true }
        ∧ t.mpt.order.number = s.mpt.orderNo ∧ t.mpt.order.first = o.first + (o.sectorsDone + d)))
  ∧ ∀ (s : State) (o : MediaOp) (v : Victim) (e : BatchEntry) (slot d x l : Nat) (bd : Band), s.BandsSound →
    s.MapCanonical → s.mpt.op = some o → s.mpt.stage = .running → o.isWrite = false → o.origin = .cleanRead slot →
    8 ≤ o.retries → s.cle.victim = some v → (v.batch.find? fun y => decide (y.slot = slot)) = some e →
    (s.entryOf e.lgn).home = some ⟨v.band, slot⟩ → s.band? v.band = some bd → bd.state = .cleaning →
    bd.slots[slot]? = some (.live l) →
    ∃ t bd', exec (.finished s.mpt.order.number 2 d x) s = .next t
      ∧ t.entryOf e.lgn = { s.entryOf e.lgn with home := none, lost := true }
      ∧ (∀ k, k ≠ e.lgn → t.entryOf k = s.entryOf k)
      ∧ t.band? v.band = some bd' ∧ bd'.slots[slot]? = some .dead
      ∧ t.evu.flags.getLsbD EventFlag.granuleLost.index.val = true
      ∧ t.evu.details[EventFlag.granuleLost.index.val] = e.lgn

/-- Read data taken in RUNNING, whatever the order number it carries, lands in the buffer of the owner of the read in
progress at the place of its sector, and nowhere else: a FETCH's request buffer, the buffer of the record a fold reads
or of its home copy, the cleaning buffer of the slot, the qualification's track buffer (R49, R102, R119, R137, R141,
R148, R204). -/
def Obligations.Data_lands_in_owners_buffer : Prop :=
  ∀ (s : State) (o : MediaOp) (n x j : Nat) (content : Sector), s.mpt.op = some o → s.mpt.stage = .running →
    o.isWrite = false → o.first ≤ x → x < o.first + o.count → j = o.place + (x - o.first) →
    (∀ tag, (o.origin = .fetchBand ∨ ∃ p, o.origin = .fetchRecord p) → o.tag = some tag →
      exec (.data n x content) s = .next { s with rqu := { s.rqu with
        entries := s.rqu.entries.map fun e => if e.tag = tag then
          { e with buffer := e.buffer.setIfInBounds j content } else e } })
    ∧ (∀ f, s.slu.fold = some f →
      (∀ p, o.origin = .foldRecord p →
        exec (.data n x content) s = .next { s with slu := { s.slu with fold := some { f with
          sources := f.sources.map fun y => if y.pos = p then
            { y with buffer := y.buffer.setIfInBounds j content } else y } } })
      ∧ (o.origin = .foldHome →
        exec (.data n x content) s = .next { s with slu := { s.slu with fold := some { f with
          homeBuffer := f.homeBuffer.setIfInBounds j content } } }))
    ∧ (∀ v slot, s.cle.victim = some v → o.origin = .cleanRead slot →
      exec (.data n x content) s = .next { s with cle := { s.cle with victim := some { v with
        batch := v.batch.map fun e => if e.slot = slot then
          { e with buffer := e.buffer.setIfInBounds j content } else e } } })
    ∧ (o.origin = .qual →
      exec (.data n x content) s = .next { s with qen := { s.qen with
        buffer := s.qen.buffer.set j content } })

/-! ### The controller -/

/-- A FORMAT that passes its checks builds every table anew and enters ONLINE: as many bands as the geometry gives,
listed ones RETIRED and the rest EMPTY, an empty map and log, sequence and close order 1, windows free; it keeps the
pacer, threshold, mask, hold timeout, flags, enables and port. One that fails changes nothing (R18, R24, R44, R186).
The checks pass exactly where LGN_COUNT and R lie in their ranges, the zone table, the staging area and the retired list
keep to R16 and R85, CAP gives the spare sixteenth of R14, and R + 10 bands are left EMPTY (R14 to R16, R85, R186). -/
def Obligations.Format_result : Prop :=
  ∀ (s : State) (tag lgns reserve : Nat) (area : AreaDesc) (zones : List ZoneDesc) (retired : List Nat),
    (formatOk lgns reserve area zones retired = true ↔
      FormatPasses lgns (if reserve = 0 then 8 else reserve) area zones retired)
    ∧ (s.admitsTag tag → (s.ctl.mode = .unformatted ∨ s.ctl.mode = .quiesced) →
    (formatOk lgns reserve area zones retired = false →
      exec (.format tag lgns reserve area zones retired) s = .next (s.answered codeFormat tag false .badArgument []))
    ∧ (formatOk lgns reserve area zones retired = true →
      ∃ t, exec (.format tag lgns reserve area zones retired) s = .next t ∧ t.ctl.mode = .online
        ∧ t.ctl.imageLoad = none
        ∧ t.btu.zones = zones ∧ t.btu.bands.length = bandTotal zones ∧ t.btu.pressure = false ∧ t.btu.closeOrder = 1
        ∧ t.btu.reserve = (if reserve = 0 then 8 else reserve)
        ∧ (∀ b, b < bandTotal zones → ∃ z, t.band? b = some
            { number := b, zone := z, state := if b ∈ retired then .retired else .empty }
            ∧ firstBand zones z ≤ b ∧ b < firstBand zones (z + 1))
        ∧ t.gmu = ⟨lgns, [], 1⟩ ∧ t.slu = { area := area } ∧ t.qen = ⟨none, [], none⟩
        ∧ (∀ n ∈ allStreams, t.stream n = { hi := if n = relocation then 31 else min 31 (zones.length - 1) })
        ∧ t.cle.pacer = s.cle.pacer ∧ t.cle.threshold = s.cle.threshold ∧ t.cle.hostList = [] ∧ t.cle.victim = none
        ∧ t.evu.flags = s.evu.flags ∧ t.evu.enables = s.evu.enables ∧ t.evu.details = s.evu.details
        ∧ t.evu.watchQueue = [] ∧ (∀ w ∈ allWindows, t.evu.windows[w.val] = none)
        ∧ t.har = s.har ∧ t.mpt = s.mpt ∧ t.rqu.holdTimeout = s.rqu.holdTimeout ∧ t.rqu.entries = s.rqu.entries
        ∧ t.flu.outbound = s.flu.outbound ++ [replyFrame codeFormat tag false .done
            [.num 4 (bandTotal zones), .num 4 (capacity zones retired), .num 4 t.freeCount,
              .num 1 (if reserve = 0 then 8 else reserve), .num 3 0]]))

/-- QUIESCE, by the controller state: in ONLINE the part becomes QUIESCED and the request is replied where nothing is
left to wait for, else QUIESCING, the request holding its entry: it waits for every other entry, for a block that is
busy, and for a qualification whose run is in progress, which gets stop pending and keeps its tag; one whose run is
queued is withdrawn and ends STOPPED at once, its band in its prior state (R36, R139, R187). It waits for a band reset
that is due too, an inference of the model from R33 and R190 (log entry 57). A walk in WAIT_CREDIT becomes HALTED unless
the host list holds a request (R130). QUIESCE is refused BUSY in QUIESCING and replied DONE at once in QUIESCED.
QUIESCE_COMPLETE makes a quiet QUIESCING part QUIESCED and replies the QUIESCE, and changes nothing in any other; RESUME
takes a QUIESCED part back to ONLINE and is refused in every other state (R185, R187, R188). -/
def Obligations.Quiesce_and_resume_result : Prop :=
  (∀ (s : State) (tag : Nat) (cle : Cle), s.admitsTag tag →
     cle = { s.cle with stage :=
       if s.cle.stage = .waitCredit ∧ s.cle.hostList = [] then .halted else s.cle.stage } →
     (s.ctl.mode = .online → s.qen.qual = none →
       (s.rqu.entries ≠ [] ∨ s.swrIdle = false ∨ s.sluIdle = false ∨ s.cleIdle = false ∨ s.pendingReset ≠ none →
         exec (.quiesce tag) s = .next (({ s with
           ctl := { s.ctl with mode := .quiescing, quiesceTag := some tag }, cle := cle }).entered
           (s.plainEntry codeQuiesce tag)))
       ∧ (s.rqu.entries = [] → s.swrIdle = true → s.sluIdle = true → s.cleIdle = true → s.pendingReset = none →
         exec (.quiesce tag) s = .next (({ s with
           ctl := { s.ctl with mode := .quiesced, quiesceTag := none }, cle := cle }).answered codeQuiesce tag false
             .done [])))
     ∧ (∀ q, s.ctl.mode = .online → s.qen.qual = some q →
       ((∃ o, s.mpt.op = some o ∧ o.origin = .qual) →
         exec (.quiesce tag) s = .next (({ s with
           ctl := { s.ctl with mode := .quiescing, quiesceTag := some tag }, cle := cle
           qen := { s.qen with qual := some { q with stop := true } } }).entered (s.plainEntry codeQuiesce tag)))
       ∧ ((∀ o, s.mpt.op = some o → o.origin ≠ .qual) → q.stopTag = none →
         ∃ t, exec (.quiesce tag) s = .next t
           ∧ s.QualStopped t q ∧ t.har.queue .qualify = []
           ∧ (∀ c, c ≠ .qualify → t.har.queue c = s.har.queue c) ∧ t.cle = cle
           ∧ (s.rqu.entries ≠ [] ∨ s.swrIdle = false ∨ s.withdrawQual.sluIdle = false ∨ s.cleIdle = false
               ∨ s.pendingReset ≠ none →
             t.ctl = { s.ctl with mode := .quiescing, quiesceTag := some tag }
             ∧ t.rqu.entries = s.rqu.entries ++ [s.plainEntry codeQuiesce tag])
           ∧ (s.rqu.entries = [] → s.swrIdle = true → s.withdrawQual.sluIdle = true → s.cleIdle = true →
             s.pendingReset = none → (∀ bd, s.band? q.band = some bd → bd.prior ≠ some .cleaning) →
             t.ctl = { s.ctl with mode := .quiesced, quiesceTag := none } ∧ t.rqu.entries = []
             ∧ t.flu.outbound.getLast? = some (replyFrame codeQuiesce tag false .done []))))
     ∧ (s.ctl.mode = .quiescing → exec (.quiesce tag) s = .next (s.answered codeQuiesce tag false .busy []))
     ∧ (s.ctl.mode = .quiesced → exec (.quiesce tag) s = .next (s.answered codeQuiesce tag false .done []))
     ∧ (s.ctl.mode = .unformatted → exec (.quiesce tag) s = .next (s.answered codeQuiesce tag false .wrongState [])))
  ∧ ((∀ (s : State) (tag : Nat) (e : Entry), s.ctl.mode = .quiescing → s.ctl.quiesceTag = some tag →
       s.rqu.entries = [e] → e.tag = tag → s.swrIdle = true → s.sluIdle = true → s.cleIdle = true → s.qen.qual = none →
       s.pendingReset = none →
       exec .quiesceComplete s = .next { s with
         ctl := { s.ctl with mode := .quiesced, quiesceTag := none }
         rqu := { s.rqu with entries := [], held := s.rqu.held.filter fun t => decide (t ≠ tag) }
         flu := { s.flu with outbound := s.flu.outbound ++ [replyFrame e.code tag e.clamped .done []] } })
     ∧ (∀ s : State, s.ctl.mode ≠ .quiescing ∨ s.swrIdle = false ∨ s.sluIdle = false ∨ s.cleIdle = false
         ∨ s.qen.qual ≠ none ∨ s.pendingReset ≠ none ∨ (∃ e ∈ s.rqu.entries, some e.tag ≠ s.ctl.quiesceTag) →
       exec .quiesceComplete s = .next s)
     ∧ ∀ (s : State) (tag : Nat), s.admitsTag tag →
       (s.ctl.mode = .quiesced → exec (.resume tag) s =
         .next (({ s with ctl := { s.ctl with mode := .online } }).answered codeResume tag false .done []))
       ∧ (s.ctl.mode ≠ .quiesced → exec (.resume tag) s = .next (s.answered codeResume tag false .wrongState [])))

/-- IMAGE_READ of a QUIESCED part answers with the chunk of the tables' image, refused past the chunk count; chunk 0 of
a load with a good header begins a load, the next expected chunk advances it, any other is refused, as is any but chunk
0 while no load is begun (R190, R191). In QUIESCED no choice, batch or band reset runs, so none changes the tables
between two chunks (R107, R130, R190). The chunks of one image, joined and read as a commit reads them, give back the
tables they were made of: geometry, LGN_COUNT and sequence, R, every band record but its readers and its hold-blocked
mark, each stream's zone range and open band, every map entry, the log's descriptor, head, tail and used count, and
every record but its readers (R109, R190, R202, R203; said of tables whose numbers fit their fields). -/
def Obligations.Image_read_and_write : Prop :=
  (∀ (s : State) (tag i : Nat) (chunk : Chunk), s.admitsTag tag →
    (s.ctl.mode = .quiesced →
      (i < chunksOf s.imageLength → exec (.imageRead tag i) s = .next (s.answered codeImageRead tag false .done
        [.num 4 i, .num 4 (chunksOf s.imageLength), .num 4 0, .raw (chunkAt s.image i)]))
      ∧ (chunksOf s.imageLength ≤ i →
        exec (.imageRead tag i) s = .next (s.answered codeImageRead tag false .badArgument [])))
    ∧ (s.ctl.mode = .unformatted →
      (headerOk chunk = true → exec (.imageWrite tag 0 chunk) s =
        .next (({ s with ctl := { s.ctl with imageLoad := some ⟨1, fieldAt chunk 12 4, [chunk]⟩ } }).answered
          codeImageWrite tag false .done [.num 4 1, .num 4 (fieldAt chunk 12 4), .num 4 0]))
      ∧ (headerOk chunk = false → exec (.imageWrite tag 0 chunk) s =
        .next (({ s with ctl := { s.ctl with imageLoad := none } }).answered codeImageWrite tag false .badArgument []))
      ∧ (s.ctl.imageLoad = none → i ≠ 0 →
        exec (.imageWrite tag i chunk) s = .next (s.answered codeImageWrite tag false .badArgument []))
      ∧ ∀ l, s.ctl.imageLoad = some l → i ≠ 0 →
        (i = l.next → l.next < l.count → exec (.imageWrite tag i chunk) s =
          .next (({ s with ctl := { s.ctl with
            imageLoad := some ⟨l.next + 1, l.count, l.chunks ++ [chunk]⟩ } }).answered codeImageWrite tag false .done
              [.num 4 (l.next + 1), .num 4 l.count, .num 4 0]))
        ∧ (i ≠ l.next ∨ l.count ≤ l.next →
          exec (.imageWrite tag i chunk) s = .next (s.answered codeImageWrite tag false .badArgument []))))
  ∧ (∀ s : State, s.ctl.mode = .quiesced → ∀ i ∈ [Instr.foldChoice, .victimChoice, .batchStart, .bandReset],
    exec i s = .next s)
  ∧ ∀ (s : State) (m : Image), s.ImageFits → m = readImage s.imageChunks.flatten →
    (∀ chunk ∈ s.imageChunks, chunk.length = 65536)
    ∧ m.zones = s.btu.zones ∧ m.reserve = s.btu.reserve ∧ m.bandCount = s.btu.bands.length
    ∧ m.bands.map BandImage.band = s.btu.bands.map (fun bd => { bd with readers := 0, holdBlocked := false })
    ∧ m.lgnCount = s.gmu.lgnCount ∧ m.sequence = s.gmu.sequence
    ∧ m.entries = (List.range s.gmu.lgnCount).map s.entryOf
    ∧ m.streams = allStreams.map (fun n => ((s.stream n).lo, (s.stream n).hi, (s.stream n).openBand))
    ∧ m.area = s.slu.area ∧ m.head = s.slu.head ∧ m.tail = s.slu.tail ∧ m.used = s.slu.used
    ∧ m.dir.map RecordImage.record = s.slu.dir.map fun r => { r with readers := 0 }

/-- IMAGE_COMMIT in UNFORMATTED: a load that fails a check, or none, is replied IMAGE_BAD and discarded, and no table is
built (R192). The checks pass exactly where the load is whole, its image's length and check match, and its ranges,
geometry, band records, stream records, map and log keep to what R192 names of each, with R16, R18, R20, R60 and R109;
the model's readings in them are which bytes of an image they look at (log entry 27) and a home with one of its two
parts absent (log entry 28); that R109's check of a previous field is of the DEAD records' fields too, which the model
keeps and writes, is its choice (log entry 62). A load that passes every check replaces the tables by those of the image
and the part is ONLINE, the commit replied DONE with BAND_COUNT, LGN_COUNT, the free count and PRESSURE (R193, R196).
Every band takes its image record: an OPEN one is FULL for IMAGE, stamped in ascending number from the close-order
counter, which starts one above the highest close order of the image; a CLEANING one is FULL and a QUALIFYING one in its
prior state; the refresh list holds the FULL bands of retry counter 128 or more, and PRESSURE is set exactly where the
free count is R or less (R41). The map, the sequence, the log and each stream's zone range are the image's; no band is
open, no item queued, the QEN and the cleaner are idle (R60, R84, R109, R132, R140). -/
def Obligations.Image_commit_result : Prop :=
  (∀ l : ImageLoad, loadOk l = true ↔ LoadPasses l (readImage l.chunks.flatten))
  ∧ ∀ (s : State) (tag : Nat), s.admitsTag tag → s.ctl.mode = .unformatted →
    ((∀ l, s.ctl.imageLoad = some l → loadOk l = false) → exec (.imageCommit tag) s =
      .next (({ s with ctl := { s.ctl with imageLoad := none } }).answered codeImageCommit tag false .imageBad []))
    ∧ ∀ (l : ImageLoad) (m : Image) (start : Nat), s.ctl.imageLoad = some l → loadOk l = true →
      m = readImage l.chunks.flatten →
      start = min ((m.bands.map BandImage.closeOrder).foldl max 0 + 1) Config.counterMax →
      ∃ t, exec (.imageCommit tag) s = .next t ∧ t.ctl.mode = .online ∧ t.ctl.imageLoad = none
        ∧ t.btu.zones = m.zones ∧ t.btu.reserve = m.reserve ∧ t.btu.bands.length = m.bands.length
        ∧ (∀ b bi, m.bands[b]? = some bi → ∃ bd, t.band? b = some bd ∧ bd.number = bi.number ∧ bd.zone = bi.zone
          ∧ bd.frontier = bi.frontier ∧ bd.slots = bi.slots ∧ bd.retry = bi.retry ∧ bd.fatigue = bi.fatigue
          ∧ bd.readers = 0 ∧ bd.holdBlocked = false ∧ bd.stream = none ∧ bd.prior = none
          ∧ (bi.state = 0 → bd.state = .empty) ∧ (bi.state = 5 → bd.state = .retired)
          ∧ (bi.state = 1 → bd.state = .full ∧ bd.closeReason = some .image
            ∧ bd.closeOrder = some (min (start + (m.bands.take b).countP fun x => decide (x.state = 1)) Config.counterMax))
          ∧ (bi.state = 2 ∨ bi.state = 3 → bd.state = .full ∧ bd.closeReason.map CloseReason.code = bi.closeReason
            ∧ bd.closeOrder = some bi.closeOrder)
          ∧ (bi.state = 4 → bd.state = if bi.prior = some 0 then .empty else .retired)
          ∧ (bi.state = 0 ∨ bi.state = 4 ∨ bi.state = 5 → bd.closeReason = none ∧ bd.closeOrder = none))
        ∧ t.btu.closeOrder = min (start + m.bands.countP fun x => decide (x.state = 1)) Config.counterMax
        ∧ t.btu.refresh = (m.bands.filter fun x => decide ((x.state = 1 ∨ x.state = 2 ∨ x.state = 3) ∧ 128 ≤ x.retry)).map
          BandImage.number
        ∧ (t.btu.pressure = true ↔ t.freeCount ≤ t.btu.reserve) ∧ t.btu.openWait = []
        ∧ t.gmu.lgnCount = m.lgnCount ∧ t.gmu.sequence = m.sequence ∧ t.MapCanonical
        ∧ (∀ lgn, t.entryOf lgn = (m.entries[lgn]?).getD {})
        ∧ t.slu = { area := m.area, head := m.head, tail := m.tail, used := m.used
                    dir := m.dir.map RecordImage.record }
        ∧ (∀ n ∈ allStreams, ∃ x, m.streams[n.val]? = some x ∧ t.stream n = { lo := x.1, hi := x.2.1 })
        ∧ t.qen = ⟨none, [], none⟩ ∧ t.cle.stage = .idle ∧ t.cle.victim = none ∧ t.cle.hostList = []
        ∧ t.cle.pacer = s.cle.pacer ∧ t.cle.threshold = s.cle.threshold ∧ t.har = s.har ∧ t.mpt = s.mpt
        ∧ t.evu = s.evu ∧ t.rqu.holdTimeout = s.rqu.holdTimeout ∧ t.rqu.entries = s.rqu.entries
        ∧ t.flu.outbound = s.flu.outbound ++ [replyFrame codeImageCommit tag false .done
          [.num 4 m.bands.length, .num 4 m.lgnCount, .num 4 t.freeCount, .num 1 t.btu.pressure.toNat, .num 3 0]]

/-- RESET with no operation waiting for the channel: replied DONE with its own tag and the entries in use at its
arrival, behind at most the frame being sent (which frame that is, is the model's reading, log entry 30); every request
gone, the port UP with its counts and causes clear, the mask empty, hold timeout and threshold at their reset values,
the pacer stopped, the EVU's enables and windows clear (R131, R160, R175, R183, R184). Every granule keeps its home,
base and lost flag, and its overlays too where no record is WRITING; no record is left WRITING; the sequence, the
geometry, R and the refresh list are kept (R40, R59). A FULL band keeps all but the readers of the reads that ended, the
victim's band is FULL again with its mark clear, and the band being qualified returns to its prior state (R36, R37,
R40). Every stream keeps its zone range, and of its FIFO the re-placements in their order, less those at the head whose
slot is no longer LIVE for their granule, dropped as the stream goes on: where no open is waited for, and no item was
being written or its run was aborted, the item left at the head is being written, and is a faulted one or has its slot
LIVE for its granule; its recovery band stays while an item counts toward it; its open is pending exactly where it waits
for a band again (R66, R67, R82, R83). A stream with no run queued or deferred keeps its exposed set and its open band;
one whose run is aborted with nothing of its slot written keeps its frontier, and one with sectors written leaves the
slot TORN and goes to the slot's end, with the releases judged there and the band closed for CAPACITY where it is full
(R71, R74). -/
def Obligations.Reset_request_result : Prop :=
  ∀ (s : State) (tag : Nat) (ended : List MediaOp), s.PortSound → s.MapCanonical → s.BandsSound →
    s.takesFrames = true → s.mpt.awaitsAbort = false →
    ended = (if s.mpt.stage = .deferred then s.mpt.op.toList else []) ++ (allClasses.map s.har.queue).flatten →
    ∃ t, exec (.reset tag) s = .next t
      ∧ t.flu.outbound = s.flu.outbound.take 1 ++
        [replyFrame codeReset tag false .done [.num 1 s.rqu.entries.length, .num 3 0]]
      ∧ t.flu.errors = 0 ∧ t.rqu = ⟨[], [], 2000, s.rqu.admission⟩
      ∧ t.mpt.up = true ∧ t.mpt.stage = .idle ∧ t.mpt.op = none ∧ t.mpt.failures = 0 ∧ t.mpt.causes = 0
      ∧ t.mpt.latched = 0 ∧ t.mpt.orderNo = s.mpt.orderNo ∧ t.har.mask = ⟨false, false, false⟩
      ∧ t.cle = ⟨.idle, none, [], { s.cle.pacer with running := false, count := s.cle.pacer.reload, credits := 0 }, 512⟩
      ∧ t.qen.qual = none ∧ t.evu.enables = 0 ∧ (∀ w ∈ allWindows, t.evu.windows[w.val] = none)
      ∧ t.evu.watchQueue = []
      ∧ t.ctl.mode = (if s.ctl.mode = .unformatted then .unformatted else .online) ∧ t.ctl.imageLoad = none
      ∧ t.ctl.quiesceTag = none
      ∧ t.slu.logHeld = false ∧ t.slu.foldReqs = [] ∧ t.slu.overlayWait = [] ∧ t.slu.fold = none
      ∧ (∀ k, (t.entryOf k).home = (s.entryOf k).home ∧ (t.entryOf k).base = (s.entryOf k).base
        ∧ (t.entryOf k).lost = (s.entryOf k).lost)
      ∧ ((∀ r ∈ s.slu.dir, r.state ≠ .writing) → t.gmu = s.gmu)
      ∧ ((s.slu.dir.map Record.pos).Nodup → ∀ r ∈ t.slu.dir, r.state ≠ .writing)
      ∧ t.gmu.sequence = s.gmu.sequence ∧ t.gmu.lgnCount = s.gmu.lgnCount ∧ t.btu.zones = s.btu.zones
      ∧ t.btu.reserve = s.btu.reserve ∧ t.btu.refresh = s.btu.refresh ∧ t.btu.bands.length = s.btu.bands.length
      ∧ (∀ b bd, s.band? b = some bd → bd.state = .full → t.band? b = some { bd with
        readers := bd.readers - ended.countP fun o => decide (o.bandRead = some b) })
      ∧ (∀ v bd, s.cle.victim = some v → s.band? v.band = some bd → bd.state = .cleaning →
        t.band? v.band = some { bd with
          state := .full, holdBlocked := false
          readers := bd.readers - ended.countP fun o => decide (o.bandRead = some v.band) })
      ∧ (∀ q bd, s.qen.qual = some q → s.band? q.band = some bd → bd.state = .qualifying →
        (bd.prior = some .retired → t.band? q.band = some { bd with state := .retired, prior := none })
        ∧ (bd.prior = some .empty → ∃ bd', t.band? q.band = some bd' ∧ bd'.prior = none
          ∧ (bd'.state = .empty ∨ bd'.state = .opened)))
      ∧ ∀ n, (t.stream n).lo = (s.stream n).lo ∧ (t.stream n).hi = (s.stream n).hi
        ∧ (∃ gone, (s.stream n).fifo.filter (fun it => it.work.isReplace) = gone ++ (t.stream n).fifo
          ∧ ∀ it ∈ gone, it.faulted = false ∧ ∃ src, it.work = .replace src ∧ t.slotLiveFor src it.lgn = false)
        ∧ ((t.stream n).openPending = false → ((s.stream n).writing = none
            ∨ (s.stream n).openBand ≠ none ∧ ∃ o ∈ ended, o.origin = .stream n) →
          ∀ it rest, (t.stream n).fifo = it :: rest → (t.stream n).writing.isSome = true
            ∧ (it.faulted = true ∨ ∃ src, it.work = .replace src ∧ t.slotLiveFor src it.lgn = true))
        ∧ (t.stream n).recovery = (s.stream n).recovery.filter (fun r =>
          (t.stream n).fifo.any fun it => it.recoveries.contains r)
        ∧ ((t.stream n).openPending = true ↔ n ∈ t.btu.openWait)
        ∧ ((t.stream n).openPending = true → (t.stream n).openBand = none ∧ (t.stream n).fifo ≠ [])
        ∧ ((∀ o ∈ ended, o.origin ≠ .stream n) → (t.stream n).exposed = (s.stream n).exposed
          ∧ ∀ b, (s.stream n).openBand = some b → (t.stream n).openBand = some b)
        ∧ ∀ before o after b w bd, ended = before ++ o :: after → o.origin = .stream n →
          (∀ x ∈ before ++ after, x.origin ≠ .stream n) → (s.stream n).openBand = some b →
          (∀ m, m ≠ n → (s.stream m).openBand ≠ some b) → (s.stream n).writing = some w →
          s.band? b = some bd → bd.state = .opened → 16 * w ≤ bd.frontier → bd.frontier ≤ 16 * w + 15 →
          (∀ x, bd.slots[w]? = some x → x = .torn) →
          ∃ bd', t.band? b = some bd'
            ∧ (bd.frontier + o.sectorsDone = 16 * w → bd'.frontier = bd.frontier ∧ bd'.slots = bd.slots
              ∧ bd'.state = .opened ∧ (t.stream n).openBand = some b ∧ (t.stream n).exposed = (s.stream n).exposed)
            ∧ (16 * w < bd.frontier + o.sectorsDone → bd'.frontier = 16 * (w + 1)
              ∧ bd'.slots = bd.slots.take w ++ [.torn]
              ∧ ((s.geo b).cap ≤ w + 1 → bd'.state = .full ∧ bd'.closeReason = some .capacity
                ∧ (t.stream n).exposed = [])
              ∧ (w + 1 < (s.geo b).cap → bd'.state = .opened ∧ (t.stream n).openBand = some b
                ∧ (t.stream n).exposed = (s.stream n).exposed.filter fun x =>
                  staysExposed (s.geo b) (16 * (w + 1) / (s.geo b).spt) x.slot))

/-- RESET while an order is CLAIMING or RUNNING: an ABORT goes out, the stage is ABORTING and no reply is generated
yet, the failure counter and the causes kept until the media port takes the reset; an ABORT already out is awaited. A
FINISHED of the order, of any status, or the abort limit, then ends the operation, the port is UP and IDLE with its
counter 0 and its causes and latched set empty, and the RESET is replied (R160, R175). The model's reading in it: the
wire records (log entry 4), that the ABORT spends an order number (log entry 21), and that the outbound queue's head
is the frame being sent (log entry 30). -/
def Obligations.Reset_with_operation_out : Prop :=
  (∀ (s : State) (tag : Nat) (o : MediaOp), s.takesFrames = true → s.mpt.op = some o →
     ((s.mpt.stage = .claiming ∨ s.mpt.stage = .running) →
       ∃ t, exec (.reset tag) s = .next t
         ∧ t.mpt = { s.mpt with
           stage := .aborting, orderNo := if s.mpt.orderNo < 65535 then s.mpt.orderNo + 1 else 1
           wire := s.mpt.wire ++ [leBytes 1 3 ++ leBytes 1 0 ++ leBytes 2 s.mpt.order.number] }
         ∧ t.ctl.resetWait = some ⟨tag, s.rqu.entries.length⟩ ∧ t.flu.outbound = s.flu.outbound.take 1
         ∧ t.rqu.entries = [])
     ∧ (s.mpt.stage = .aborting →
       ∃ t, exec (.reset tag) s = .next t ∧ t.mpt = s.mpt
         ∧ t.ctl.resetWait = some ⟨tag, s.rqu.entries.length⟩ ∧ t.flu.outbound = s.flu.outbound.take 1
         ∧ t.rqu.entries = []))
  ∧ ∀ (s : State) (o : MediaOp) (w : ResetWait) (i : Instr), s.mpt.op = some o → s.mpt.stage = .aborting →
     s.ctl.resetWait = some w →
     (i = .abortLimitExpiry ∨ ∃ st d x, st ≤ 4 ∧ i = .finished s.mpt.order.number st d x) →
     ∃ t, exec i s = .next t ∧ t.mpt = { s.mpt with
         up := true, stage := .idle, op := none, failures := 0, causes := 0, latched := 0, restartTag := none }
       ∧ t.ctl = { s.ctl with resetWait := none }
       ∧ t.flu.outbound = s.flu.outbound.take 1 ++ [replyFrame codeReset w.tag false .done [.num 1 w.inUse, .num 3 0]]

/-! ### The frame link -/

/-- Link errors where the assembler takes bytes: BAD_MARKER in READY, and OVERLENGTH, BAD_CHECK and the frame limit each
count one error (up to 65,535), raise FRAME_ERROR with the count and leave the assembler in SEEK, where the bytes it
held hold no marker. Where they hold a request's whole frame, the search that resumes behind the discarded frame's
marker finds it, and it is taken as if it arrived then. A marker found in READY or SEEK puts the assembler in FRAME; a
good frame that is not well formed is refused BAD_REQUEST with its own code and tag, takes no entry and counts no error.
The bytes of a request's frame, come to a READY assembler that holds none, do what the request's command does (R163,
R164). That OVERLENGTH, BAD_CHECK, BAD_REQUEST and the frame limit act in every assembler state, each standing for a
whole frame with its marker where none is held, is the model's choice (log entry 5). -/
def Obligations.Link_errors_marker_and_bad_request : Prop :=
  (∀ (s : State) (i : Instr) (held : List Byte), s.flu.waiting = [] →
     (i = .badMarker ∧ s.flu.assembler = .ready ∧ held = []
       ∨ (i = .overlength ∨ i = .badCheck ∨ i = .frameLimitExpiry)
         ∧ held = (if s.flu.assembler = .frame then s.flu.held else [])) →
     (∀ before after, held ≠ before ++ [0xA5#8, 0x3C#8] ++ after) →
     ∃ t, exec i s = .next t ∧ t.flu.errors = min (s.flu.errors + 1) 65535 ∧ t.flu.assembler = .seek
       ∧ t.flu.held = (if held.getLast? = some 0xA5#8 then [0xA5#8] else [])
       ∧ t.evu = { s.evu with flags := s.evu.flags ||| EventFlag.bit .frameError
                              details := s.evu.details.set 10 (min (s.flu.errors + 1) 65535) }
       ∧ t.rqu = s.rqu ∧ t.ctl = s.ctl ∧ t.gmu = s.gmu ∧ t.btu = s.btu ∧ t.mpt = s.mpt)
  ∧ (∀ (s : State) (i j : Instr) (before bs : List Byte), s.flu.waiting = [] → s.flu.assembler = .frame →
     (i = .overlength ∨ i = .badCheck ∨ i = .frameLimitExpiry) → j.wf = true → encodeFrame j = some bs →
     s.flu.held = before ++ bs → (∀ x y, before ≠ x ++ [0xA5#8, 0x3C#8] ++ y) →
     exec i s = exec j s.frameError)
  ∧ ((∀ s : State, s.flu.waiting = [] → s.flu.assembler ≠ .frame →
       exec .markerFound s = .next { s with flu := { s.flu with assembler := .frame, held := [] } })
     ∧ ∀ (s : State) (code tag : Nat), s.takesFrames = true →
       exec (.badRequest code tag) s = .next { s with flu := { s.flu with
         assembler := .ready, held := [], outbound := s.flu.outbound ++ [replyFrame code tag false .badRequest []] } })
  ∧ ∀ (s : State) (i : Instr) (bs : List Byte), s.flu.waiting = [] → s.flu.assembler = .ready → s.flu.held = [] →
     i.wf = true → encodeFrame i = some bs → exec i s = .next (s.receive bs)

/-- The frame sent is the oldest of the outbound queue; a frame that completes while 32 frames stand in it, or a RESET
reply is awaited, waits; and when it is taken it is judged as if it arrived then, and the assembler goes on with the
bytes that came behind it (R163, R165, R175; the record of what was sent is log entry 4, that a frame waits as a whole
log entry 5). That FRAME_SENT does not itself take the waiting frame, nor a WATCH notice that now has room, but leaves
each to a command of its own, is the model's choice (log entry 2). -/
def Obligations.Outbound_queue_and_waiting_frame : Prop :=
  (∀ (s : State) (f : OutFrame) (rest : List OutFrame), s.flu.outbound = f :: rest →
    exec .frameSent s = .next { s with flu := { s.flu with outbound := rest, wire := s.flu.wire ++ [f.bytes] } })
  ∧ (∀ (s : State) (i : Instr), isGoodFrame i = true → s.flu.waiting = [] →
    (32 ≤ s.flu.outbound.length ∨ s.ctl.resetWait.isSome = true) →
    exec i s = .next { s with flu := { s.flu with assembler := .frame, held := [], waiting := [i] } })
  ∧ ∀ (s : State) (i : Instr), isGoodFrame i = true → s.flu.waiting = [i] → s.flu.outbound.length < 32 →
    s.ctl.resetWait = none →
    ∃ t, exec i { s with flu := { s.flu with waiting := [], held := [] } } = .next t
      ∧ exec .deferredFrameTaken s = .next (t.receive s.flu.held)
      ∧ (s.flu.held = [] → exec .deferredFrameTaken s = .next t)
end

