-- ==== Sys2Proof/Laws/Table.lean ====
section
/-!
SUPPORT. Laws/Table.lean: the laws of the sparse table under the granule map: what is put is got, a put leaves every other
key alone, the canonical form is kept, and two canonical tables that read alike are equal.
-/

namespace Sys2Proof.Machine

variable {α : Type} [DecidableEq α] {d : α}

theorem tableWf_cons {k : Nat} {v : α} {t : List (Nat × α)} :
    tableWf d ((k, v) :: t) = true ↔ v ≠ d ∧ keysAbove k t = true ∧ tableWf d t = true := by
  simp [tableWf, and_assoc]

omit [DecidableEq α] in
theorem keysAbove_iff {k : Nat} {t : List (Nat × α)} : keysAbove k t = true ↔ ∀ e ∈ t, k < e.1 := by
  simp [keysAbove]

omit [DecidableEq α] in
/-- A key below every listed key holds the default. -/
theorem tableGet_of_keysAbove {k j : Nat} {t : List (Nat × α)} (h : keysAbove k t = true) (hj : j ≤ k) :
    tableGet d t j = d := by
  induction t with
  | nil => rfl
  | cons e t ih =>
    obtain ⟨k', v⟩ := e
    rw [keysAbove_iff] at h
    have h1 := h (k', v) (by simp)
    have : k' ≠ j := by simp at h1; omega
    simp only [tableGet, if_neg this]
    exact ih (keysAbove_iff.2 fun e he => h e (by simp [he]))

theorem mem_tablePut {t : List (Nat × α)} {k : Nat} {v : α} {e : Nat × α} (h : e ∈ tablePut d t k v) :
    e = (k, v) ∨ e ∈ t := by
  induction t with
  | nil => simp only [tablePut] at h; split at h <;> simp_all
  | cons x t ih =>
    obtain ⟨k', v'⟩ := x
    simp only [tablePut] at h
    split at h
    · split at h <;> simp_all
    · split at h
      · split at h <;> simp_all
        rcases h with h | h <;> simp [h]
      · rcases List.mem_cons.1 h with h | h
        · simp [h]
        · rcases ih h with h | h <;> simp [h]

/-- A put keeps the canonical form. -/
theorem tableWf_tablePut {t : List (Nat × α)} (h : tableWf d t = true) (k : Nat) (v : α) :
    tableWf d (tablePut d t k v) = true := by
  induction t with
  | nil => simp only [tablePut]; split <;> simp_all [tableWf, keysAbove]
  | cons x t ih =>
    obtain ⟨k', v'⟩ := x
    have hc := tableWf_cons.1 h
    simp only [tablePut]
    split
    · rename_i hk
      split
      · exact h
      · rename_i hv
        refine tableWf_cons.2 ⟨hv, keysAbove_iff.2 fun e he => ?_, h⟩
        rcases List.mem_cons.1 he with rfl | he
        · exact hk
        · exact hk.trans (keysAbove_iff.1 hc.2.1 e he)
    · split
      · rename_i hk
        split
        · exact hc.2.2
        · rename_i hv
          exact tableWf_cons.2 ⟨hv, hk ▸ hc.2.1, hc.2.2⟩
      · rename_i h1 h2
        refine tableWf_cons.2 ⟨hc.1, keysAbove_iff.2 fun e he => ?_, ih hc.2.2⟩
        rcases mem_tablePut he with rfl | he
        · simp; omega
        · exact keysAbove_iff.1 hc.2.1 e he

/-- What is put at a key is got there. -/
theorem tableGet_tablePut_self {t : List (Nat × α)} (h : tableWf d t = true) (k : Nat) (v : α) :
    tableGet d (tablePut d t k v) k = v := by
  induction t with
  | nil => simp only [tablePut]; split <;> simp_all [tableGet]
  | cons x t ih =>
    obtain ⟨k', v'⟩ := x
    have hc := tableWf_cons.1 h
    simp only [tablePut]
    split
    · rename_i hk
      split
      · rename_i hv
        have : k' ≠ k := by omega
        simp only [tableGet, if_neg this]
        rw [tableGet_of_keysAbove hc.2.1 (by omega), hv]
      · simp [tableGet]
    · split
      · rename_i hk
        split
        · rename_i hv
          rw [tableGet_of_keysAbove hc.2.1 (by omega), hv]
        · simp [tableGet]
      · rename_i h1 h2
        have : k' ≠ k := fun h => h2 h.symm
        simp only [tableGet, if_neg this]
        exact ih hc.2.2

/-- A put leaves every other key alone. -/
theorem tableGet_tablePut_of_ne {t : List (Nat × α)} {j k : Nat} (hj : j ≠ k) (v : α) (h : tableWf d t = true) :
    tableGet d (tablePut d t k v) j = tableGet d t j := by
  induction t with
  | nil => simp only [tablePut]; split <;> simp [tableGet, hj.symm]
  | cons x t ih =>
    obtain ⟨k', v'⟩ := x
    have hc := tableWf_cons.1 h
    simp only [tablePut]
    split
    · split
      · rfl
      · simp [tableGet, hj.symm]
    · split
      · rename_i hk
        have h2 : k' ≠ j := fun h => hj (by omega)
        split <;> simp [tableGet, hj.symm, h2]
      · simp only [tableGet]
        split
        · rfl
        · exact ih hc.2.2

/-- Two canonical tables that read alike at every key are the same list. -/
theorem tableWf_ext {t u : List (Nat × α)} (ht : tableWf d t = true) (hu : tableWf d u = true)
    (h : ∀ k, tableGet d t k = tableGet d u k) : t = u := by
  induction t generalizing u with
  | nil =>
    cases u with
    | nil => rfl
    | cons y u =>
      have hc := tableWf_cons.1 hu
      have := h y.1
      simp only [tableGet, if_true] at this
      exact absurd this.symm hc.1
  | cons x t ih =>
    obtain ⟨k, v⟩ := x
    have hc := tableWf_cons.1 ht
    cases u with
    | nil =>
      have := h k
      simp only [tableGet, if_true] at this
      exact absurd this hc.1
    | cons y u =>
      obtain ⟨j, w⟩ := y
      have hd := tableWf_cons.1 hu
      have hkj : k = j := by
        rcases Nat.lt_trichotomy k j with hlt | heq | hlt
        · have := h k
          simp only [tableGet, if_true, if_neg (Nat.ne_of_gt hlt)] at this
          rw [tableGet_of_keysAbove hd.2.1 (by omega)] at this
          exact absurd this hc.1
        · exact heq
        · have := h j
          simp only [tableGet, if_true, if_neg (Nat.ne_of_gt hlt)] at this
          rw [tableGet_of_keysAbove hc.2.1 (by omega)] at this
          exact absurd this.symm hd.1
      subst hkj
      have hvw : v = w := by have := h k; simpa [tableGet] using this
      subst hvw
      congr 1
      refine ih hc.2.2 hd.2.2 fun i => ?_
      by_cases hi : k = i
      · subst hi
        rw [tableGet_of_keysAbove hc.2.1 (by omega), tableGet_of_keysAbove hd.2.1 (by omega)]
      · have := h i
        simpa [tableGet, hi] using this

end Sys2Proof.Machine
end

