-- ==== Sys2Proof/Laws/BlockWork.lean ====
section
/-!
SUPPORT. Laws/BlockWork.lean: what the work of the blocks behind the media port can do, said once. `BlockWork s t` holds
between a state and what any of it makes of the state: the controller, the media port and the settings are untouched, frames
are only added to the outbound queue, entries are only freed, and the map, the band records and the counters keep their
invariants. Each operation has one lemma, `<operation>_work`; one that takes a qualification record asks that its errors be
in range, one that changes a stream record that the zone range stay.
-/

namespace Sys2Proof.Machine

/-- What the blocks' own work leaves alone, and what it keeps. -/
structure BlockWork (s t : State) : Prop where
  pending : t.pending = s.pending
  ctl : t.ctl = s.ctl
  mpt : t.mpt = s.mpt
  zones : t.btu.zones = s.btu.zones
  reserve : t.btu.reserve = s.btu.reserve
  bandCount : t.btu.bands.length = s.btu.bands.length
  lgnCount : t.gmu.lgnCount = s.gmu.lgnCount
  sequence : t.gmu.sequence = s.gmu.sequence
  assembler : t.flu.assembler = s.flu.assembler
  held : t.flu.held = s.flu.held
  errors : t.flu.errors = s.flu.errors
  waiting : t.flu.waiting = s.flu.waiting
  fluWire : t.flu.wire = s.flu.wire
  outbound : ∃ more, t.flu.outbound = s.flu.outbound ++ more
  holdTimeout : t.rqu.holdTimeout = s.rqu.holdTimeout
  admission : t.rqu.admission = s.rqu.admission
  entries : t.rqu.entries.length ≤ s.rqu.entries.length
  enables : t.evu.enables = s.evu.enables
  mask : t.har.mask = s.har.mask
  nextId : 1 ≤ s.har.nextId ∧ s.har.nextId ≤ Config.opIdMax → 1 ≤ t.har.nextId ∧ t.har.nextId ≤ Config.opIdMax
  skips : (∀ c ∈ allClasses, s.har.skip c ≤ Config.skipLimit) → ∀ c ∈ allClasses, t.har.skip c ≤ Config.skipLimit
  threshold : t.cle.threshold = s.cle.threshold
  reload : t.cle.pacer.reload = s.cle.pacer.reload
  count : 1 ≤ s.cle.pacer.reload → 1 ≤ s.cle.pacer.count → 1 ≤ t.cle.pacer.count
  credits : s.cle.pacer.credits ≤ creditLimit → t.cle.pacer.credits ≤ creditLimit
  map : s.MapCanonical → t.MapCanonical
  bands : s.BandsSound → t.BandsSound
  pacing : t.cle.pacer.mode = s.cle.pacer.mode ∧ t.cle.pacer.running = s.cle.pacer.running
  zoneRanges : ∀ n, (t.stream n).lo = (s.stream n).lo ∧ (t.stream n).hi = (s.stream n).hi
  closeOrder : s.btu.closeOrder ≤ Config.counterMax → t.btu.closeOrder ≤ Config.counterMax
  qualErrors : (∀ q ∈ s.qen.qual, q.errors ≤ 65535) → ∀ q ∈ t.qen.qual, q.errors ≤ 65535
  opCounts : (∀ c ∈ allClasses, ∀ o ∈ s.har.queue c, o.CountsInRange) →
    ∀ c ∈ allClasses, ∀ o ∈ t.har.queue c, o.CountsInRange
  watchQueue : s.evu.watchQueue.length ≤ Config.watchQueueLimit → t.evu.watchQueue.length ≤ Config.watchQueueLimit

namespace BlockWork
theorem refl (s : State) : BlockWork s s := by
  constructor <;> first
    | rfl | exact ⟨[], by simp⟩ | exact id | exact fun _ h => h | exact ⟨rfl, rfl⟩ | exact fun _ => ⟨rfl, rfl⟩

theorem trans {s t u : State} (h : BlockWork s t) (k : BlockWork t u) : BlockWork s u := by
  constructor
  case outbound =>
    obtain ⟨a, ha⟩ := h.outbound
    obtain ⟨b, hb⟩ := k.outbound
    exact ⟨a ++ b, by rw [hb, ha, List.append_assoc]⟩
  case entries => exact k.entries.trans h.entries
  case nextId => exact fun x => k.nextId (h.nextId x)
  case skips => exact fun x => k.skips (h.skips x)
  case count => exact fun x y => k.count (by rw [h.reload]; exact x) (h.count x y)
  case credits => exact fun x => k.credits (h.credits x)
  case map => exact fun x => k.map (h.map x)
  case bands => exact fun x => k.bands (h.bands x)
  case pacing => exact ⟨k.pacing.1.trans h.pacing.1, k.pacing.2.trans h.pacing.2⟩
  case zoneRanges => exact fun n => ⟨(k.zoneRanges n).1.trans (h.zoneRanges n).1, (k.zoneRanges n).2.trans (h.zoneRanges n).2⟩
  case closeOrder => exact fun x => k.closeOrder (h.closeOrder x)
  case qualErrors => exact fun x => k.qualErrors (h.qualErrors x)
  case opCounts => exact fun x => k.opCounts (h.opCounts x)
  case watchQueue => exact fun x => k.watchQueue (h.watchQueue x)
  all_goals first
    | rw [k.pending, h.pending] | rw [k.ctl, h.ctl] | rw [k.mpt, h.mpt] | rw [k.zones, h.zones]
    | rw [k.reserve, h.reserve] | rw [k.bandCount, h.bandCount] | rw [k.lgnCount, h.lgnCount]
    | rw [k.sequence, h.sequence] | rw [k.assembler, h.assembler] | rw [k.held, h.held] | rw [k.errors, h.errors]
    | rw [k.waiting, h.waiting] | rw [k.fluWire, h.fluWire] | rw [k.holdTimeout, h.holdTimeout]
    | rw [k.admission, h.admission] | rw [k.enables, h.enables] | rw [k.mask, h.mask]
    | rw [k.threshold, h.threshold] | rw [k.reload, h.reload]
end BlockWork
/-! ### Updates of one part of the state -/

section
variable {r s : State}

theorem BlockWork.of_serial (h : BlockWork r s) (n : Nat) :
    BlockWork r { s with swr := { s.swr with faultSerial := n } } := { h with }
theorem BlockWork.of_slu (h : BlockWork r s) (x : Slu) : BlockWork r { s with slu := x } := { h with }
theorem BlockWork.of_qen (h : BlockWork r s) (x : Qen)
    (hx : (∀ q ∈ s.qen.qual, q.errors ≤ 65535) → ∀ q ∈ x.qual, q.errors ≤ 65535) :
    BlockWork r { s with qen := x } := { h with qualErrors := fun y => hx (h.qualErrors y) }
theorem BlockWork.of_residue (h : BlockWork r s) (x : Nat) : BlockWork r { s with residue := x } := { h with }
theorem BlockWork.of_cle (h : BlockWork r s) (g : CleanStage) (v : Option Victim) (l : List (Nat × Nat)) :
    BlockWork r { s with cle := { s.cle with stage := g, victim := v, hostList := l } } := { h with }
theorem BlockWork.of_evu (h : BlockWork r s) (x : Evu) (hx : x.enables = s.evu.enables)
    (hq : s.evu.watchQueue.length ≤ Config.watchQueueLimit → x.watchQueue.length ≤ Config.watchQueueLimit) :
    BlockWork r { s with evu := x } :=
  { h with enables := hx.trans h.enables, watchQueue := fun y => hq (h.watchQueue y) }
theorem BlockWork.of_rqu (h : BlockWork r s) (es : List Entry) (l : List Nat)
    (he : es.length ≤ s.rqu.entries.length) :
    BlockWork r { s with rqu := { s.rqu with entries := es, held := l } } :=
  { h with entries := he.trans h.entries }
theorem BlockWork.of_btu (h : BlockWork r s) (p : Bool) (l : List Nat) (o : List (Fin 9)) :
    BlockWork r { s with btu := { s.btu with pressure := p, refresh := l, openWait := o } } :=
  { h with }
theorem BlockWork.of_closeOrder (h : BlockWork r s) {c : Nat} (hc : c ≤ Config.counterMax) :
    BlockWork r { s with btu := { s.btu with closeOrder := c } } := { h with closeOrder := fun _ => hc }
theorem BlockWork.of_credits (h : BlockWork r s) (n : Nat) (hn : n ≤ s.cle.pacer.credits) :
    BlockWork r { s with cle := { s.cle with pacer := { s.cle.pacer with credits := n } } } :=
  { h with credits := fun x => hn.trans (h.credits x) }

theorem State.push_work (h : BlockWork r s) (f : OutFrame) : BlockWork r (s.push f) :=
  { h with outbound := by obtain ⟨m, hm⟩ := h.outbound; exact ⟨m ++ [f], by simp [State.push, hm]⟩ }

theorem State.reply_work (h : BlockWork r s) (code tag : Nat) (clamped : Bool) (st : Status) (fields : List Field) :
    BlockWork r (s.reply code tag clamped st fields) := State.push_work h _

theorem State.updEntry_work (h : BlockWork r s) (tag : Nat) (f : Entry → Entry) : BlockWork r (s.updEntry tag f) :=
  h.of_rqu _ _ (by simp)

theorem State.freeEntry_work (h : BlockWork r s) (tag : Nat) : BlockWork r (s.freeEntry tag) :=
  h.of_rqu _ _ (List.length_filter_le _ _)

theorem State.finish_work (h : BlockWork r s) (tag : Nat) (st : Status) (fields : List Field) :
    BlockWork r (s.finish tag st fields) := by
  unfold State.finish
  split
  · exact State.freeEntry_work (State.reply_work h ..) _
  · exact h

theorem State.finishAll_work (h : BlockWork r s) (tags : List Nat) (st : Status) :
    BlockWork r (s.finishAll tags st) := by
  unfold State.finishAll
  induction tags generalizing s with
  | nil => exact h
  | cons t ts ih => exact ih (State.finish_work h ..)

theorem State.hold_work (h : BlockWork r s) (tag : Nat) (why : HoldReason) : BlockWork r (s.hold tag why) := by
  unfold State.hold
  exact (State.updEntry_work h ..).of_rqu _ _ (le_refl _)

theorem State.unhold_work (h : BlockWork r s) (tag : Nat) : BlockWork r (s.unhold tag) := by
  unfold State.unhold
  exact (State.updEntry_work h ..).of_rqu _ _ (le_refl _)

theorem State.stream_setStream (s : State) (n m : Fin 9) (x : Stream) :
    (s.setStream n x).stream m = if m = n then x else s.stream m := by
  simp only [State.setStream, State.stream, Vector.getElem_set, Fin.ext_iff, eq_comm]

theorem State.updStream_work (h : BlockWork r s) (n : Fin 9) {f : Stream → Stream}
    (hf : ∀ x, (f x).lo = x.lo ∧ (f x).hi = x.hi) : BlockWork r (s.updStream n f) :=
  { h with
    zoneRanges := fun m => by
      rw [State.updStream, State.stream_setStream]
      split
      · subst m; exact ⟨(hf _).1.trans (h.zoneRanges n).1, (hf _).2.trans (h.zoneRanges n).2⟩
      · exact h.zoneRanges m }
theorem State.updRecord_work (h : BlockWork r s) (p : Nat) (f : Record → Record) : BlockWork r (s.updRecord p f) :=
  h.of_slu _
theorem State.takeBuffer_work (h : BlockWork r s) : BlockWork r s.takeBuffer := h.of_residue _

theorem State.setEntryOf_work (h : BlockWork r s) (lgn : Nat) (e : MapEntry) : BlockWork r (s.setEntryOf lgn e) :=
  { h with map := fun x => tableWf_tablePut (h.map x) _ _ }

theorem State.BandsSound.updBand (h : s.BandsSound) (b : Nat) {f : Band → Band}
    (hf : ∀ i bd, bd.Sound i → (f bd).Sound i) : (s.updBand b f).BandsSound := by
  intro i bd hbd
  simp only [State.updBand, List.getElem?_modify] at hbd
  cases hx : s.btu.bands[i]? with
  | none => rw [hx] at hbd; simp at hbd
  | some x =>
    rw [hx] at hbd
    have := h i x hx
    by_cases hb : b = i
    · simp [hb] at hbd; subst hbd; exact hf i x this
    · simp [hb] at hbd; subst hbd; exact this

theorem State.updBand_work (h : BlockWork r s) (b : Nat) {f : Band → Band}
    (hf : ∀ i bd, bd.Sound i → (f bd).Sound i) : BlockWork r (s.updBand b f) :=
  { h with
    bandCount := by simp [State.updBand, h.bandCount]
    bands := fun x => (h.bands x).updBand b hf }

theorem State.raise_work (h : BlockWork r s) (e : EventFlag) (d : Nat) : BlockWork r (s.raise e d) := by
  unfold State.raise
  have := h.of_evu (s.evu.set e d) rfl id
  dsimp only
  split
  · exact State.push_work this _
  · exact this

theorem State.offerWatch_work (h : BlockWork r s) (n : WatchNotice) : BlockWork r (s.offerWatch n) := by
  unfold State.offerWatch
  split
  · rename_i hq
    exact h.of_evu _ rfl fun _ => by simp only [List.length_append, List.length_singleton]; omega
  · exact State.raise_work (h.of_evu (s.evu.markOverrun n.windows) rfl id) ..

theorem State.homeChange_work (h : BlockWork r s) (lgn : Nat) (cause : HomeCause) (old new : Option Home) :
    BlockWork r (s.homeChange lgn cause old new) := by
  unfold State.homeChange
  dsimp only
  split
  · exact h
  · exact State.offerWatch_work h _

/-! ### The Band Table Unit -/

theorem slotsBehind_mono {a b : Nat} (h : a ≤ b) : slotsBehind a ≤ slotsBehind b :=
  Nat.div_le_div_right (by omega)

theorem slotsAt_length {slots : List Slot} {n : Nat} (h : slots.length ≤ n) (v : Option Slot) :
    (slotsAt slots n v).length = n := by
  unfold slotsAt
  cases v <;> simp <;> omega

theorem Band.Sound.frontierReport {bd : Band} {i : Nat} (h : bd.Sound i) (f : Nat) (v : Option Slot) :
    (bd.frontierReport f v).Sound i := by
  unfold Band.frontierReport
  split
  · rename_i hf
    refine ⟨h.1, slotsAt_length ?_ v, h.2.2.1, h.2.2.2⟩
    rw [h.2.1]; exact slotsBehind_mono hf.2
  · exact h

theorem Band.Sound.supersede {bd : Band} {i : Nat} (h : bd.Sound i) (slot : Nat) : (bd.supersede slot).Sound i := by
  unfold Band.supersede
  split
  · split
    · exact ⟨h.1, by simpa using h.2.1, h.2.2.1, h.2.2.2⟩
    · exact h
  · exact h

theorem State.frontierReport_work (h : BlockWork r s) (b f : Nat) (v : Option Slot) :
    BlockWork r (s.frontierReport b f v) := State.updBand_work h _ fun _ _ x => x.frontierReport f v

theorem State.supersede_work (h : BlockWork r s) (x : Option Home) : BlockWork r (s.supersede x) := by
  unfold State.supersede
  split
  · exact State.updBand_work h _ fun _ _ x => x.supersede _
  · exact h

theorem State.judgePressureOn_work (h : BlockWork r s) : BlockWork r s.judgePressureOn := by
  unfold State.judgePressureOn
  split
  · exact State.raise_work (h.of_btu ..) ..
  · exact h

theorem State.judgePressureOff_work (h : BlockWork r s) : BlockWork r s.judgePressureOff := by
  unfold State.judgePressureOff
  split
  · exact State.raise_work (h.of_btu ..) ..
  · exact h

theorem State.grantBand_work (h : BlockWork r s) (n : Fin 9) (b : Nat) (spill : Bool) :
    BlockWork r (s.grantBand n b spill) := by
  unfold State.grantBand
  refine State.judgePressureOn_work (State.updStream_work (State.updBand_work ?_ _ ?_) _ ?_)
  rotate_left
  · exact fun _ _ x => x
  · exact fun _ => ⟨rfl, rfl⟩
  split
  · exact State.raise_work h ..
  · exact h

theorem State.grantOpen_work (h : BlockWork r s) (n : Fin 9) : BlockWork r (s.grantOpen n) := by
  unfold State.grantOpen
  split
  · exact State.grantBand_work h ..
  · exact h

theorem State.closeBand_work (h : BlockWork r s) (b : Nat) (why : CloseReason) : BlockWork r (s.closeBand b why) := by
  unfold State.closeBand
  split
  · split
    · dsimp only
      refine BlockWork.of_closeOrder (State.updBand_work h b ?_) (Nat.min_le_right _ _)
      exact fun _ _ x => x
    · exact h
  · exact h

theorem State.unrefresh_work (h : BlockWork r s) (b : Nat) : BlockWork r (s.unrefresh b) := h.of_btu ..

theorem State.enterCleaning_work (h : BlockWork r s) (b : Nat) : BlockWork r (s.enterCleaning b) := by
  refine State.unrefresh_work (State.updBand_work h b ?_) _
  exact fun _ _ x => x

theorem State.leaveCleaning_work (h : BlockWork r s) (b : Nat) (mark : Bool) :
    BlockWork r (s.leaveCleaning b mark) := by
  refine State.updBand_work h b ?_
  intro i bd x
  split <;> exact x

theorem State.resetBand_work (h : BlockWork r s) (bd : Band) : BlockWork r (s.resetBand bd) := by
  unfold State.resetBand
  have := State.unrefresh_work
    (State.updBand_work h bd.number (f := fun x => x.cleared bd.resetState)
      fun _ _ x => ⟨x.1, by simp [Band.cleared, slotsBehind, ceilDiv], by simp [Band.cleared], x.2.2.2⟩) bd.number
  dsimp only
  split
  · exact State.raise_work this ..
  · exact State.judgePressureOff_work this

theorem State.clearMarks_work (h : BlockWork r s) : BlockWork r s.clearMarks :=
  { h with
    bandCount := by simp [State.clearMarks, h.bandCount]
    bands := fun x i bd hbd => by
      simp only [State.clearMarks, List.getElem?_map, Option.map_eq_some_iff] at hbd
      obtain ⟨a, ha, rfl⟩ := hbd
      exact h.bands x i a ha }

theorem State.enterQualifying_work (h : BlockWork r s) (bd : Band) : BlockWork r (s.enterQualifying bd) := by
  unfold State.enterQualifying
  dsimp only
  split
  · refine State.judgePressureOn_work (State.updBand_work h _ ?_)
    exact fun _ _ x => x
  · refine State.updBand_work h _ ?_
    exact fun _ _ x => x

theorem State.endQualifying_work (h : BlockWork r s) (b : Nat) (out : QualOutcome) :
    BlockWork r (s.endQualifying b out) := by
  unfold State.endQualifying
  split
  · split
    · split
      · exact State.judgePressureOff_work (State.updBand_work h _ fun _ _ x => ⟨x.1, x.2.1, by simp, by simp⟩)
      · refine State.raise_work (State.updBand_work h _ ?_) ..
        exact fun _ _ x => x
      · dsimp only
        split
        · refine State.judgePressureOff_work (State.updBand_work h _ ?_)
          exact fun _ _ x => x
        · refine State.updBand_work h _ ?_
          exact fun _ _ x => x
    · exact h
  · exact h

theorem State.readStart_work (h : BlockWork r s) (b : Nat) : BlockWork r (s.readStart b) := by
  refine State.updBand_work h b ?_
  intro i bd x
  split <;> exact x

theorem State.readEnd_work (h : BlockWork r s) (b : Nat) : BlockWork r (s.readEnd b) := by
  refine State.updBand_work h b ?_
  intro i bd x
  split <;> exact x

theorem State.unrecoveredReport_work (h : BlockWork r s) (b : Nat) : BlockWork r (s.unrecoveredReport b) := by
  unfold State.unrecoveredReport
  split
  · split
    · split
      · dsimp only
        refine State.raise_work (BlockWork.of_btu (State.updBand_work h b ?_) ..) ..
        exact fun _ _ x => ⟨x.1, x.2.1, (by decide : 128 ≤ 255), Nat.min_le_right _ _⟩
      · refine State.updBand_work h b ?_
        exact fun _ _ x => ⟨x.1, x.2.1, Nat.min_le_right _ _, x.2.2.2⟩
    · exact h
  · exact h

/-! ### Handing over -/

theorem Har.skip_setQueue (x : Har) (c : Cls) (q : List MediaOp) (d : Cls) :
    (x.setQueue c q).skip d = if q = [] ∧ d = c then 0 else x.skip d := by
  unfold Har.setQueue Har.skip
  by_cases hq : q = []
  · cases c <;> cases d <;> simp [hq, Cls.index]
  · simp [hq]

theorem Har.queue_setQueue (x : Har) (c : Cls) (q : List MediaOp) (d : Cls) :
    (x.setQueue c q).queue d = if d = c then q else x.queue d := by
  unfold Har.setQueue Har.queue
  cases c <;> cases d <;> simp [Cls.index]

theorem Cls.mem_all (c : Cls) : c ∈ allClasses := by cases c <;> decide

theorem nextOpId_range {n : Nat} (h : 1 ≤ n ∧ n ≤ Config.opIdMax) : 1 ≤ nextOpId n ∧ nextOpId n ≤ Config.opIdMax := by
  unfold nextOpId
  split <;> omega

theorem BlockWork.of_queue (h : BlockWork r s) (c : Cls) (q : List MediaOp)
    (hq : (∀ c ∈ allClasses, ∀ o ∈ s.har.queue c, o.CountsInRange) → ∀ o ∈ q, o.CountsInRange) :
    BlockWork r { s with har := s.har.setQueue c q } :=
  { h with
    opCounts := fun x d hd => by
      show ∀ o ∈ (s.har.setQueue c q).queue d, _
      rw [Har.queue_setQueue]
      split
      · exact hq (h.opCounts x)
      · exact h.opCounts x d hd
    skips := fun x d hd => by
      show (s.har.setQueue c q).skip d ≤ _
      rw [Har.skip_setQueue]
      split
      · simp
      · exact h.skips x d hd }

theorem BlockWork.of_nextId (h : BlockWork r s) {n : Nat}
    (hn : 1 ≤ s.har.nextId ∧ s.har.nextId ≤ Config.opIdMax → 1 ≤ n ∧ n ≤ Config.opIdMax) :
    BlockWork r { s with har := { s.har with nextId := n } } :=
  { h with nextId := fun x => hn (h.nextId x) }

theorem State.countReaders_work (h : BlockWork r s) (o : MediaOp) : BlockWork r (s.countReaders o) := by
  unfold State.countReaders
  cases o.bandRead <;> cases o.recordRead <;> dsimp only
  · exact h
  · exact State.updRecord_work h ..
  · exact State.readStart_work h _
  · exact State.updRecord_work (State.readStart_work h _) ..

theorem State.handOver_work (h : BlockWork r s) (o : MediaOp) : BlockWork r (s.handOver o) := by
  unfold State.handOver
  refine State.countReaders_work ((h.of_queue _ _ fun x p hp => ?_).of_nextId nextOpId_range) _
  rcases List.mem_append.1 hp with hp | hp
  · exact x _ (Cls.mem_all _) _ hp
  · obtain rfl := List.mem_singleton.1 hp
    exact ⟨Nat.zero_le _, Nat.zero_le _⟩

theorem State.handOverAll_work (h : BlockWork r s) (os : List MediaOp) : BlockWork r (s.handOverAll os) := by
  unfold State.handOverAll
  induction os generalizing s with
  | nil => exact h
  | cons o os ih => exact ih (State.handOver_work h o)

theorem State.spendIds_work (h : BlockWork r s) (n : Nat) : BlockWork r (s.spendIds n) := by
  unfold State.spendIds
  refine h.of_nextId fun x => ?_
  induction n with
  | zero => exact x
  | succ n ih => exact nextOpId_range ih

theorem State.requeueHead_work (h : BlockWork r s) (o : MediaOp) (ho : o.CountsInRange) :
    BlockWork r (s.requeueHead o) :=
  h.of_queue _ _ fun x p hp => by
    rcases List.mem_cons.1 hp with rfl | hp
    · exact ho
    · exact x _ (Cls.mem_all _) _ hp
theorem State.withdrawQual_work (h : BlockWork r s) : BlockWork r s.withdrawQual :=
  h.of_queue _ _ fun _ _ hp => nomatch hp

theorem State.placedGranule_work (h : BlockWork r s) : BlockWork r s.placedGranule := by
  unfold State.placedGranule Pacer.decrease
  split
  · unfold Pacer.countDown
    split
    · exact { h with
        reload := h.reload, count := fun x _ => by rw [← h.reload] at x; exact x
        credits := fun x => by simp [creditLimit] }
    · rename_i hc
      exact { h with reload := h.reload, count := fun _ _ => by simp; omega, credits := fun x => h.credits x }
  · exact h

theorem State.foldl_work {α : Type} {f : State → α → State} (hf : ∀ {s : State}, BlockWork r s → ∀ a, BlockWork r (f s a))
    (h : BlockWork r s) (l : List α) : BlockWork r (l.foldl f s) := by
  induction l generalizing s with
  | nil => exact h
  | cons a l ih => exact ih (hf h a)

end

/-! ### Everything built from these -/

section
variable {s₀ s : State}

theorem State.advanceHead_work (hw : BlockWork s₀ s) :
    BlockWork s₀ s.advanceHead := by
  unfold State.advanceHead
  repeat' first
    | with_reducible exact hw | split | with_reducible apply BlockWork.of_slu

theorem State.judgeFoldReqs_work (hw : BlockWork s₀ s) :
    BlockWork s₀ s.judgeFoldReqs := by
  unfold State.judgeFoldReqs
  split
  · exact State.foldl_work (fun k q => State.finish_work k ..) (hw.of_slu _) _
  · exact hw

theorem State.killRecords_work (hw : BlockWork s₀ s) (ps : List Nat) :
    BlockWork s₀ (s.killRecords ps) := by
  unfold State.killRecords
  repeat' first
    | with_reducible exact hw | with_reducible apply State.advanceHead_work
    | with_reducible apply State.judgeFoldReqs_work | split | with_reducible apply BlockWork.of_slu

theorem State.makeDead_work (hw : BlockWork s₀ s) (p : Nat) :
    BlockWork s₀ (s.makeDead p) := by
  unfold State.makeDead
  repeat' first
    | with_reducible exact hw | with_reducible apply State.setEntryOf_work
    | with_reducible apply State.advanceHead_work | with_reducible apply State.judgeFoldReqs_work | split
    | with_reducible apply BlockWork.of_slu

theorem State.recordReadEnd_work (hw : BlockWork s₀ s) (p : Nat) :
    BlockWork s₀ (s.recordReadEnd p) := by
  unfold State.recordReadEnd
  repeat' first
    | with_reducible exact hw | with_reducible apply State.updRecord_work
    | with_reducible apply State.advanceHead_work

theorem State.supersedeGranule_work (hw : BlockWork s₀ s) (lgn p : Nat) (new : Option Home) :
    BlockWork s₀ (s.supersedeGranule lgn p new) := by
  unfold State.supersedeGranule
  repeat' first
    | with_reducible exact hw | with_reducible apply State.supersede_work
    | with_reducible apply State.setEntryOf_work | with_reducible apply State.killRecords_work

theorem State.proposeStore_work (hw : BlockWork s₀ s) (lgn p : Nat) (new : Home) :
    BlockWork s₀ (s.proposeStore lgn p new) := by
  unfold State.proposeStore
  repeat' first
    | with_reducible exact hw | with_reducible apply State.supersedeGranule_work
    | with_reducible apply State.homeChange_work

theorem State.acceptFold_work (hw : BlockWork s₀ s) (lgn q : Nat) (merged : List Nat) (new : Home) :
    BlockWork s₀ (s.acceptFold lgn q merged new) := by
  unfold State.acceptFold
  repeat' first
    | with_reducible exact hw | with_reducible apply State.supersede_work
    | with_reducible apply State.setEntryOf_work | with_reducible apply State.killRecords_work
    | with_reducible apply State.homeChange_work

theorem State.acceptCopy_work (hw : BlockWork s₀ s) (lgn : Nat) (src new : Home) (cause : HomeCause) :
    BlockWork s₀ (s.acceptCopy lgn src new cause) := by
  unfold State.acceptCopy
  repeat' first
    | with_reducible exact hw | with_reducible apply State.supersede_work
    | with_reducible apply State.setEntryOf_work | with_reducible apply State.homeChange_work

theorem State.propose_work (hw : BlockWork s₀ s) (it : Item) (new : Home) :
    BlockWork s₀ (s.propose it new) := by
  unfold State.propose
  repeat' first
    | with_reducible exact hw | with_reducible apply State.proposeStore_work
    | with_reducible apply State.acceptFold_work | with_reducible apply State.acceptCopy_work | split

theorem State.lostReport_work (hw : BlockWork s₀ s) (lgn : Nat) (h : Home) :
    BlockWork s₀ (s.lostReport lgn h) := by
  unfold State.lostReport
  dsimp only
  split
  · exact State.raise_work (State.supersede_work (State.setEntryOf_work hw ..) _) ..
  · exact hw

theorem State.discardOne_work (hw : BlockWork s₀ s) (lgn p : Nat) :
    BlockWork s₀ (s.discardOne lgn p) := by
  unfold State.discardOne
  repeat' first
    | with_reducible exact hw | with_reducible apply State.supersedeGranule_work
    | with_reducible apply State.homeChange_work | split | dsimp only

theorem State.discardRange_work (hw : BlockWork s₀ s) (p : Nat) (n lgn : Nat) :
    BlockWork s₀ (s.discardRange p n lgn) := by
  induction n generalizing s lgn with
  | zero => exact hw
  | succ n ih => exact ih (State.discardOne_work hw ..) _

theorem State.raiseEnded_work (hw : BlockWork s₀ s) (rs : List Recovery) :
    BlockWork s₀ (s.raiseEnded rs) := by
  exact State.foldl_work (fun k r => State.raise_work k ..) hw _

theorem State.dropHead_work (hw : BlockWork s₀ s) (n : Fin 9) :
    BlockWork s₀ (s.dropHead n) :=
  State.updStream_work hw _ fun _ => ⟨rfl, rfl⟩

theorem State.keepItems_work (hw : BlockWork s₀ s) (n : Fin 9) (keep : Item → Bool) :
    BlockWork s₀ (s.keepItems n keep) :=
  State.updStream_work hw _ fun _ => ⟨rfl, rfl⟩

theorem State.queueRun_work (hw : BlockWork s₀ s) (n : Fin 9) :
    BlockWork s₀ (s.queueRun n) := by
  unfold State.queueRun
  repeat' first
    | with_reducible exact hw | with_reducible apply State.handOver_work | split | dsimp only

theorem State.pumpFor_work (hw : BlockWork s₀ s) (n : Fin 9) (fuel : Nat) :
    BlockWork s₀ (s.pumpFor n fuel) := by
  induction fuel generalizing s with
  | zero => exact hw
  | succ fuel ih =>
    unfold State.pumpFor
    dsimp only
    split
    · exact hw
    · split
      · exact hw
      · split
        · split
          · refine ih ?_
            split
            · refine State.hold_work (State.updStream_work hw _ ?_) ..
              exact fun _ => ⟨rfl, rfl⟩
            · refine State.updStream_work hw _ ?_
              exact fun _ => ⟨rfl, rfl⟩
          · split
            · refine (State.updStream_work hw _ ?_).of_btu ..
              exact fun _ => ⟨rfl, rfl⟩
            · exact ih (State.grantOpen_work hw _)
        · split
          · exact hw
          · split
            · exact ih (State.dropHead_work hw _)
            · refine State.queueRun_work (State.updStream_work hw _ ?_) _
              exact fun _ => ⟨rfl, rfl⟩

theorem State.goOn_work (hw : BlockWork s₀ s) (n : Fin 9) :
    BlockWork s₀ (s.goOn n) :=
  State.pumpFor_work hw ..

theorem State.pump_work (hw : BlockWork s₀ s) (n : Fin 9) :
    BlockWork s₀ (s.pump n) :=
  State.raiseEnded_work (State.goOn_work hw n) _

theorem State.pumpAll_work (hw : BlockWork s₀ s) :
    BlockWork s₀ s.pumpAll :=
  State.raiseEnded_work (State.foldl_work (fun k n => State.goOn_work k n) hw _) _

theorem State.enqueue_work (hw : BlockWork s₀ s) (n : Fin 9) (items : List Item) :
    BlockWork s₀ (s.enqueue n items) := by
  unfold State.enqueue
  repeat' first
    | with_reducible exact hw | exact fun _ => ⟨rfl, rfl⟩ | with_reducible apply State.updStream_work
    | with_reducible apply State.pump_work

theorem State.takeStore_work (hw : BlockWork s₀ s) (e : Entry) :
    BlockWork s₀ (s.takeStore e) := by
  unfold State.takeStore
  repeat' first
    | with_reducible exact hw | with_reducible apply State.enqueue_work | with_reducible apply State.finish_work
    | split

theorem State.moveFrontier_work (hw : BlockWork s₀ s) (n : Fin 9) (b f : Nat) (verdict : Option Slot) (release : Bool) :
    BlockWork s₀ (s.moveFrontier n b f verdict release) := by
  unfold State.moveFrontier
  repeat' first
    | with_reducible exact hw | exact fun _ => ⟨rfl, rfl⟩ | with_reducible apply State.frontierReport_work
    | with_reducible apply State.updStream_work | split

theorem State.capacityClose_work (hw : BlockWork s₀ s) (n : Fin 9) (b : Nat) :
    BlockWork s₀ (s.capacityClose n b) := by
  unfold State.capacityClose
  repeat' first
    | with_reducible exact hw | exact fun _ => ⟨rfl, rfl⟩ | with_reducible apply State.updStream_work
    | with_reducible apply State.closeBand_work | split

theorem State.writeFault_work (hw : BlockWork s₀ s) (n : Fin 9) (d : Nat) :
    BlockWork s₀ (s.writeFault n d) := by
  unfold State.writeFault
  repeat' first
    | with_reducible exact hw | exact fun _ => ⟨rfl, rfl⟩ | with_reducible apply State.moveFrontier_work
    | with_reducible apply State.closeBand_work | with_reducible apply State.updStream_work
    | with_reducible apply State.pump_work | split | with_reducible apply BlockWork.of_serial

theorem State.abortRound_work (hw : BlockWork s₀ s) (n : Fin 9) (d : Nat) :
    BlockWork s₀ (s.abortRound n d) := by
  unfold State.abortRound
  repeat' first
    | with_reducible exact hw | exact fun _ => ⟨rfl, rfl⟩ | with_reducible apply State.moveFrontier_work
    | with_reducible apply State.capacityClose_work | with_reducible apply State.updStream_work | split | dsimp only

theorem State.queueStaged_work (hw : BlockWork s₀ s) (p tag off : Nat) :
    BlockWork s₀ (s.queueStaged p tag off) := by
  unfold State.queueStaged
  repeat' first
    | with_reducible exact hw | with_reducible apply State.handOver_work | split

theorem State.appendRecord_work (hw : BlockWork s₀ s) (tag lgn first count sequence stream : Nat) (prev : Option Nat) (again : Bool) :
    BlockWork s₀ (s.appendRecord tag lgn first count sequence stream prev again) := by
  unfold State.appendRecord
  repeat' first
    | with_reducible exact hw | with_reducible apply State.setEntryOf_work
    | with_reducible apply State.queueStaged_work | split | with_reducible apply BlockWork.of_slu

theorem State.judgeAdmission_work (hw : BlockWork s₀ s) (e : Entry) :
    BlockWork s₀ (s.judgeAdmission e) := by
  unfold State.judgeAdmission
  repeat' first
    | with_reducible exact hw | with_reducible apply State.appendRecord_work | with_reducible apply State.raise_work
    | with_reducible apply State.hold_work | split | with_reducible apply BlockWork.of_slu

theorem State.takePartial_work (hw : BlockWork s₀ s) (e : Entry) :
    BlockWork s₀ (s.takePartial e) := by
  unfold State.takePartial
  repeat' first
    | with_reducible exact hw | with_reducible apply State.finish_work
    | with_reducible apply State.judgeAdmission_work | split | with_reducible apply BlockWork.of_slu

theorem State.rejudgeOverlay_work (hw : BlockWork s₀ s) (tag : Nat) :
    BlockWork s₀ (s.rejudgeOverlay tag) := by
  unfold State.rejudgeOverlay
  repeat' first
    | with_reducible exact hw | with_reducible apply State.judgeAdmission_work | split
    | with_reducible apply BlockWork.of_slu

theorem State.rejudgeOverlays_work (hw : BlockWork s₀ s) :
    BlockWork s₀ s.rejudgeOverlays := by
  unfold State.rejudgeOverlays
  repeat' first
    | with_reducible exact hw | with_reducible apply State.foldl_work
    | with_reducible apply State.rejudgeOverlay_work

theorem State.dropWrite_work (hw : BlockWork s₀ s) (p : Nat) :
    BlockWork s₀ (s.dropWrite p) := by
  unfold State.dropWrite
  repeat' first
    | with_reducible exact hw | split | with_reducible apply BlockWork.of_slu

theorem State.storeDone_work (hw : BlockWork s₀ s) (tag : Nat) :
    BlockWork s₀ (s.storeDone tag) := by
  unfold State.storeDone
  repeat' first
    | with_reducible exact hw | with_reducible apply State.finish_work | split

theorem State.stagedAdvance_work (hw : BlockWork s₀ s) (p next : Nat) :
    BlockWork s₀ (s.stagedAdvance p next) := by
  unfold State.stagedAdvance
  repeat' first
    | with_reducible exact hw | with_reducible apply State.queueStaged_work
    | with_reducible apply State.updRecord_work | with_reducible apply State.dropWrite_work
    | with_reducible apply State.storeDone_work | split

theorem State.stagedFault_work (hw : BlockWork s₀ s) (p : Nat) :
    BlockWork s₀ (s.stagedFault p) := by
  unfold State.stagedFault
  repeat' first
    | with_reducible exact hw | with_reducible apply State.dropWrite_work | with_reducible apply State.makeDead_work
    | with_reducible apply State.appendRecord_work | with_reducible apply State.finish_work | split | dsimp only

theorem State.stagedDown_work (hw : BlockWork s₀ s) (p : Nat) :
    BlockWork s₀ (s.stagedDown p) := by
  unfold State.stagedDown
  repeat' first
    | with_reducible exact hw | with_reducible apply State.dropWrite_work | with_reducible apply State.makeDead_work
    | with_reducible apply State.finish_work | split

theorem State.startFold_work (hw : BlockWork s₀ s) (lgn : Nat) :
    BlockWork s₀ (s.startFold lgn) := by
  unfold State.startFold
  repeat' first
    | with_reducible exact hw | with_reducible apply State.takeBuffer_work
    | with_reducible apply State.handOverAll_work | split | with_reducible apply BlockWork.of_slu

theorem State.countFold_work (hw : BlockWork s₀ s) (f : FoldReq → FoldReq) :
    BlockWork s₀ (s.countFold f) := by
  unfold State.countFold
  repeat' first
    | with_reducible exact hw | with_reducible apply State.finish_work | split
    | with_reducible apply BlockWork.of_slu

theorem State.foldEnd_work (hw : BlockWork s₀ s) (f : FoldReq → FoldReq) :
    BlockWork s₀ (s.foldEnd f) := by
  unfold State.foldEnd
  repeat' first
    | with_reducible exact hw | with_reducible apply State.countFold_work
    | with_reducible apply State.judgeFoldReqs_work | with_reducible apply State.rejudgeOverlays_work | split
    | with_reducible apply BlockWork.of_slu

theorem State.foldPlaced_work (hw : BlockWork s₀ s) (v : Verdict) :
    BlockWork s₀ (s.foldPlaced v) := by
  unfold State.foldPlaced
  repeat' first
    | with_reducible exact hw | with_reducible apply State.foldEnd_work | split

theorem State.mergeFold_work (hw : BlockWork s₀ s) (f : Fold) :
    BlockWork s₀ (s.mergeFold f) := by
  unfold State.mergeFold
  repeat' first
    | with_reducible exact hw | with_reducible apply State.enqueue_work | split
    | with_reducible apply BlockWork.of_slu

theorem State.judgeFold_work (hw : BlockWork s₀ s) (f : Fold) :
    BlockWork s₀ (s.judgeFold f) := by
  unfold State.judgeFold
  repeat' first
    | with_reducible exact hw | with_reducible apply State.mergeFold_work | with_reducible apply State.foldEnd_work
    | split | with_reducible apply BlockWork.of_slu

theorem State.setFold_work (hw : BlockWork s₀ s) (f : Fold) :
    BlockWork s₀ (s.setFold f) := by
  unfold State.setFold
  repeat' first
    | with_reducible exact hw | with_reducible apply State.judgeFold_work | split
    | with_reducible apply BlockWork.of_slu

theorem State.giveUp_work (hw : BlockWork s₀ s) (p lgn : Nat) :
    BlockWork s₀ (s.giveUp p lgn) := by
  unfold State.giveUp
  repeat' first
    | with_reducible exact hw | with_reducible apply State.makeDead_work | with_reducible apply State.raise_work
    | split

theorem State.foldRecordLost_work (hw : BlockWork s₀ s) (f : Fold) (p : Nat) :
    BlockWork s₀ (s.foldRecordLost f p) := by
  unfold State.foldRecordLost
  repeat' first
    | with_reducible exact hw | with_reducible apply State.giveUp_work | with_reducible apply State.setFold_work

theorem State.foldRecordRead_work (hw : BlockWork s₀ s) (f : Fold) (p : Nat) :
    BlockWork s₀ (s.foldRecordRead f p) := by
  unfold State.foldRecordRead
  repeat' first
    | with_reducible exact hw | with_reducible apply State.foldRecordLost_work
    | with_reducible apply State.setFold_work | split

theorem State.foldRecordUnserved_work (hw : BlockWork s₀ s) (f : Fold) (p : Nat) (x : FoldFailure) :
    BlockWork s₀ (s.foldRecordUnserved f p x) := by
  unfold State.foldRecordUnserved
  repeat' first
    | with_reducible exact hw | with_reducible apply State.setFold_work

theorem State.foldHomeEnded_work (hw : BlockWork s₀ s) (f : Fold) (x : Option FoldFailure) :
    BlockWork s₀ (s.foldHomeEnded f x) := by
  unfold State.foldHomeEnded
  repeat' first
    | with_reducible exact hw | with_reducible apply State.setFold_work

theorem State.setStage_work (hw : BlockWork s₀ s) (g : CleanStage) :
    BlockWork s₀ (s.setStage g) := by
  unfold State.setStage
  repeat' first
    | with_reducible exact hw | split | with_reducible apply BlockWork.of_cle

theorem State.setVictim_work (hw : BlockWork s₀ s) (v : Victim) :
    BlockWork s₀ (s.setVictim v) := by
  unfold State.setVictim
  repeat' first
    | with_reducible exact hw | split | with_reducible apply BlockWork.of_cle

theorem State.victimEnd_work (hw : BlockWork s₀ s) (v : Victim) (after : BandState) :
    BlockWork s₀ (s.victimEnd v after) := by
  unfold State.victimEnd
  repeat' first
    | with_reducible exact hw | with_reducible apply State.finish_work | split
    | with_reducible apply BlockWork.of_cle

theorem State.walkEnd_work (hw : BlockWork s₀ s) (v : Victim) :
    BlockWork s₀ (s.walkEnd v) := by
  unfold State.walkEnd
  repeat' first
    | with_reducible exact hw | with_reducible apply State.setVictim_work | with_reducible apply State.setStage_work
    | with_reducible apply State.leaveCleaning_work | with_reducible apply State.raise_work
    | with_reducible apply State.victimEnd_work | split

theorem State.handBatch_work (hw : BlockWork s₀ s) :
    BlockWork s₀ s.handBatch := by
  unfold State.handBatch
  repeat' first
    | with_reducible exact hw | with_reducible apply State.setVictim_work | with_reducible apply State.enqueue_work
    | split

theorem State.gatherBatch_work (hw : BlockWork s₀ s) (v : Victim) (bd : Band) :
    BlockWork s₀ (s.gatherBatch v bd) := by
  unfold State.gatherBatch
  repeat' first
    | with_reducible exact hw | with_reducible apply State.walkEnd_work | with_reducible apply State.setVictim_work
    | with_reducible apply State.setStage_work | with_reducible apply State.takeBuffer_work
    | with_reducible apply State.handOverAll_work | with_reducible apply State.handBatch_work | split | dsimp only

theorem State.startBatch_work (hw : BlockWork s₀ s) :
    BlockWork s₀ s.startBatch := by
  unfold State.startBatch
  split
  · split
    · split
      · exact State.walkEnd_work hw _
      · split
        · split
          · exact State.setStage_work hw _
          · exact State.gatherBatch_work (hw.of_credits _ (Nat.sub_le _ _)) ..
        · exact State.gatherBatch_work hw ..
    · exact hw
  · exact hw

theorem State.judgeBatch_work (hw : BlockWork s₀ s) :
    BlockWork s₀ s.judgeBatch := by
  unfold State.judgeBatch
  repeat' first
    | with_reducible exact hw | with_reducible apply State.setVictim_work | with_reducible apply State.walkEnd_work
    | with_reducible apply State.startBatch_work | with_reducible apply State.setStage_work | split | dsimp only

theorem State.copyPlaced_work (hw : BlockWork s₀ s) (src : Home) (verdict : Verdict) :
    BlockWork s₀ (s.copyPlaced src verdict) := by
  unfold State.copyPlaced
  repeat' first
    | with_reducible exact hw | with_reducible apply State.updEntry_work | with_reducible apply State.setVictim_work
    | with_reducible apply State.judgeBatch_work | split

theorem State.cleanRunEnded_work (hw : BlockWork s₀ s) (slot : Nat) (f : BatchEntry → BatchEntry) :
    BlockWork s₀ (s.cleanRunEnded slot f) := by
  unfold State.cleanRunEnded
  repeat' first
    | with_reducible exact hw | with_reducible apply State.updEntry_work | with_reducible apply State.setVictim_work
    | with_reducible apply State.handBatch_work | with_reducible apply State.judgeBatch_work | split

theorem State.cleanReadLost_work (hw : BlockWork s₀ s) (slot : Nat) :
    BlockWork s₀ (s.cleanReadLost slot) := by
  unfold State.cleanReadLost
  repeat' first
    | with_reducible exact hw | with_reducible apply State.lostReport_work
    | with_reducible apply State.cleanRunEnded_work | split

theorem State.cleanReadDown_work (hw : BlockWork s₀ s) (slot place count : Nat) :
    BlockWork s₀ (s.cleanReadDown slot place count) := by
  unfold State.cleanReadDown
  repeat' first
    | with_reducible exact hw | with_reducible apply State.setVictim_work | with_reducible apply State.updEntry_work
    | split

theorem State.reissueBatch_work (hw : BlockWork s₀ s) :
    BlockWork s₀ s.reissueBatch := by
  unfold State.reissueBatch
  repeat' first
    | with_reducible exact hw | with_reducible apply State.setVictim_work
    | with_reducible apply State.handOverAll_work | split

theorem State.takeVictim_work (hw : BlockWork s₀ s) (b : Nat) (origin : VictimOrigin) (tag : Option Nat) :
    BlockWork s₀ (s.takeVictim b origin tag) := by
  unfold State.takeVictim
  repeat' first
    | with_reducible exact hw | with_reducible apply State.enterCleaning_work
    | with_reducible apply State.setVictim_work | with_reducible apply State.startBatch_work

theorem State.ownChoice_work (hw : BlockWork s₀ s) (allowed : Bool) :
    BlockWork s₀ (s.ownChoice allowed) := by
  unfold State.ownChoice
  repeat' first
    | with_reducible exact hw | with_reducible apply State.takeVictim_work | with_reducible apply State.raise_work
    | split | dsimp only

theorem State.choose_work (hw : BlockWork s₀ s) (own : Bool) (x : List (Nat × Nat)) :
    BlockWork s₀ (s.choose own x) := by
  induction x generalizing s with
  | nil => exact State.ownChoice_work hw _
  | cons e es ih =>
    obtain ⟨t, b⟩ := e
    unfold State.choose
    split
    · split
      · exact State.takeVictim_work hw ..
      · exact ih (State.finish_work (hw.of_cle ..) ..)
    · exact ih (State.finish_work (hw.of_cle ..) ..)

/-- What is asked of a qualification record before it is kept: its errors in range where the first state's were. -/
abbrev QualKept (s : State) (q : Qual) : Prop := (∀ q ∈ s.qen.qual, q.errors ≤ 65535) → q.errors ≤ 65535

theorem State.setQual_work (hw : BlockWork s₀ s) (q : Qual) (hq : QualKept s₀ q) :
    BlockWork s₀ (s.setQual q) := by
  exact { hw with qualErrors := fun x p hp => by obtain rfl := Option.some.inj hp; exact hq x }

theorem State.qenIdle_work (hw : BlockWork s₀ s) (r : LastResult) :
    BlockWork s₀ (s.qenIdle r) := by
  exact hw.of_qen _ fun _ _ hp => nomatch hp

theorem State.endQual_work (hw : BlockWork s₀ s) (q : Qual) (out : QualOutcome) :
    BlockWork s₀ (s.endQual q out) := by
  unfold State.endQual
  dsimp only
  refine State.qenIdle_work ?_ _
  split
  all_goals have hl := hw.of_qen { s.qen with last := some (q.result out) } id
  · exact State.finish_work (State.raise_work (State.endQualifying_work hl ..) ..) ..
  · exact State.raise_work (State.endQualifying_work hl ..) ..

theorem State.queueQual_work (hw : BlockWork s₀ s) (q : Qual) (hq : QualKept s₀ q) (first count : Nat) :
    BlockWork s₀ (s.queueQual q first count) := by
  unfold State.queueQual
  repeat' first
    | with_reducible exact hw | exact hq | exact fun _ => Nat.min_le_right _ _
    | with_reducible apply State.setQual_work | with_reducible apply State.handOver_work

theorem State.startTrackWrite_work (hw : BlockWork s₀ s) (q : Qual) (hq : QualKept s₀ q) :
    BlockWork s₀ (s.startTrackWrite q) := by
  unfold State.startTrackWrite
  have hb := hw.of_qen { s.qen with buffer := trackPattern q.band q.track (s.geo q.band).spt } id
  exact State.queueQual_work hb _ hq ..

theorem State.startTrackRead_work (hw : BlockWork s₀ s) (q : Qual) (hq : QualKept s₀ q) (n : Nat) :
    BlockWork s₀ (s.startTrackRead q n) := by
  induction n generalizing q with
  | zero => exact State.endQual_work hw ..
  | succ n ih =>
    unfold State.startTrackRead
    dsimp only
    split
    · exact ih _ hq
    · exact State.queueQual_work hw _ hq ..

theorem State.qualWriteEnded_work (hw : BlockWork s₀ s) (q : Qual) (hq : QualKept s₀ q) :
    BlockWork s₀ (s.qualWriteEnded q) := by
  unfold State.qualWriteEnded
  repeat' first
    | with_reducible exact hw | exact hq | exact fun _ => Nat.min_le_right _ _
    | with_reducible apply State.endQual_work
    | with_reducible apply State.startTrackWrite_work | with_reducible apply State.startTrackRead_work | split
    | dsimp only

theorem State.qualReadEnded_work (hw : BlockWork s₀ s) (q : Qual) (hq : QualKept s₀ q) :
    BlockWork s₀ (s.qualReadEnded q) := by
  unfold State.qualReadEnded
  repeat' first
    | with_reducible exact hw | exact hq | exact fun _ => Nat.min_le_right _ _
    | with_reducible apply State.endQual_work
    | with_reducible apply State.startTrackRead_work | split

theorem State.qualContinue_work (hw : BlockWork s₀ s) (q : Qual) (hq : QualKept s₀ q) (first count : Nat) :
    BlockWork s₀ (s.qualContinue q first count) := by
  unfold State.qualContinue
  repeat' first
    | with_reducible exact hw | exact hq | exact fun _ => Nat.min_le_right _ _
    | with_reducible apply State.endQual_work | with_reducible apply State.queueQual_work
    | split

theorem State.qualFault_work (hw : BlockWork s₀ s) (q : Qual) (u : Nat) :
    BlockWork s₀ (s.qualFault q u) := by
  unfold State.qualFault
  repeat' first
    | with_reducible exact hw | exact hq | exact fun _ => Nat.min_le_right _ _
    | with_reducible apply State.qualWriteEnded_work

theorem State.qualWriteOutcome_work (hw : BlockWork s₀ s) (q : Qual) (hq : QualKept s₀ q) (o : MediaOp) (x : Outcome) :
    BlockWork s₀ (s.qualWriteOutcome q o x) := by
  unfold State.qualWriteOutcome
  repeat' first
    | with_reducible exact hw | exact hq | exact fun _ => Nat.min_le_right _ _
    | with_reducible apply State.qualWriteEnded_work
    | with_reducible apply State.setQual_work | with_reducible apply State.qualFault_work
    | with_reducible apply State.writeFault_work | with_reducible apply State.qualContinue_work
    | with_reducible apply State.endQual_work | split

theorem State.qualReadUnserved_work (hw : BlockWork s₀ s) (q : Qual) (hq : QualKept s₀ q) (o : MediaOp) (x : Cause) :
    BlockWork s₀ (s.qualReadUnserved q o x) := by
  unfold State.qualReadUnserved
  repeat' first
    | with_reducible exact hw | exact hq | exact fun _ => Nat.min_le_right _ _
    | with_reducible apply State.qualReadEnded_work
    | with_reducible apply State.qualContinue_work | split

theorem State.qualReadOutcome_work (hw : BlockWork s₀ s) (q : Qual) (hq : QualKept s₀ q) (o : MediaOp) (x : Outcome) :
    BlockWork s₀ (s.qualReadOutcome q o x) := by
  unfold State.qualReadOutcome
  repeat' first
    | with_reducible exact hw | exact hq | exact fun _ => Nat.min_le_right _ _
    | with_reducible apply State.qualReadEnded_work
    | with_reducible apply State.setQual_work | with_reducible apply State.qualContinue_work
    | with_reducible apply State.qualReadUnserved_work | with_reducible apply State.endQual_work
    | with_reducible apply State.writeFault_work | split | dsimp only

theorem State.qualOutcome_work (hw : BlockWork s₀ s) (o : MediaOp) (out : Outcome) :
    BlockWork s₀ (s.qualOutcome o out) := by
  unfold State.qualOutcome
  split
  · rename_i q h
    have hq : QualKept s₀ q := fun x => hw.qualErrors x q h
    split
    · exact State.qualWriteOutcome_work hw q hq ..
    · exact State.qualReadOutcome_work hw q hq ..
  · exact hw

theorem State.judgeQualStop_work (hw : BlockWork s₀ s) :
    BlockWork s₀ s.judgeQualStop := by
  unfold State.judgeQualStop
  repeat' first
    | with_reducible exact hw | with_reducible apply State.withdrawQual_work
    | with_reducible apply State.endQual_work | split

theorem State.stopQual_work (hw : BlockWork s₀ s) (tag : Option Nat) :
    BlockWork s₀ (s.stopQual tag) := by
  unfold State.stopQual
  split
  · rename_i q h
    have hq : QualKept s₀ q := fun x => hw.qualErrors x q h
    dsimp only
    repeat' first
      | with_reducible exact hw | exact hq | with_reducible apply State.setQual_work
      | with_reducible apply State.withdrawQual_work | with_reducible apply State.endQual_work | split
  · exact hw

theorem State.qualDown_work (hw : BlockWork s₀ s) :
    BlockWork s₀ s.qualDown := by
  unfold State.qualDown
  repeat' first
    | with_reducible exact hw | with_reducible apply State.endQual_work | split

theorem State.qualReset_work (hw : BlockWork s₀ s) :
    BlockWork s₀ s.qualReset := by
  unfold State.qualReset
  split
  · exact State.qenIdle_work (State.endQualifying_work hw ..) _
  · exact hw

theorem State.placeQual_work (hw : BlockWork s₀ s) (j : Nat) (x : Sector) :
    BlockWork s₀ (s.placeQual j x) := hw.of_qen { s.qen with buffer := s.qen.buffer.set j x } id

theorem State.judgeFetch_work (hw : BlockWork s₀ s) (tag : Nat) :
    BlockWork s₀ (s.judgeFetch tag) := by
  unfold State.judgeFetch
  repeat' first
    | with_reducible exact hw | with_reducible apply State.finish_work | split

theorem State.fetchRunEnded_work (hw : BlockWork s₀ s) (tag : Nat) (failed down : Bool) :
    BlockWork s₀ (s.fetchRunEnded tag failed down) := by
  unfold State.fetchRunEnded
  repeat' first
    | with_reducible exact hw | with_reducible apply State.updEntry_work
    | with_reducible apply State.judgeFetch_work

theorem State.fetchOutcome_work (hw : BlockWork s₀ s) (o : MediaOp) (out : Outcome) :
    BlockWork s₀ (s.fetchOutcome o out) := by
  unfold State.fetchOutcome
  repeat' first
    | with_reducible exact hw | with_reducible apply State.fetchRunEnded_work
    | with_reducible apply State.writeFault_work | split

theorem State.reportItem_work (hw : BlockWork s₀ s) (it : Item) (v : Verdict) :
    BlockWork s₀ (s.reportItem it v) := by
  unfold State.reportItem
  repeat' first
    | with_reducible exact hw | with_reducible apply State.storeDone_work
    | with_reducible apply State.foldPlaced_work | with_reducible apply State.copyPlaced_work | split

theorem State.itemComplete_work (hw : BlockWork s₀ s) (n : Fin 9) (b w : Nat) (it : Item) :
    BlockWork s₀ (s.itemComplete n b w it) := by
  unfold State.itemComplete
  repeat' first
    | with_reducible exact hw | exact fun _ => ⟨rfl, rfl⟩ | with_reducible apply State.propose_work
    | with_reducible apply State.moveFrontier_work | with_reducible apply State.updStream_work
    | with_reducible apply State.reportItem_work | with_reducible apply State.placedGranule_work
    | with_reducible apply State.dropHead_work | with_reducible apply State.capacityClose_work
    | with_reducible apply State.goOn_work | with_reducible apply State.raiseEnded_work | split

theorem State.runAdvanced_work (hw : BlockWork s₀ s) (n : Fin 9) (d : Nat) :
    BlockWork s₀ (s.runAdvanced n d) := by
  unfold State.runAdvanced
  repeat' first
    | with_reducible exact hw | with_reducible apply State.itemComplete_work
    | with_reducible apply State.queueRun_work | with_reducible apply State.moveFrontier_work | split | dsimp only

theorem State.runStopped_work (hw : BlockWork s₀ s) (n : Fin 9) (d : Nat) :
    BlockWork s₀ (s.runStopped n d) := by
  unfold State.runStopped
  repeat' first
    | with_reducible exact hw | with_reducible apply State.moveFrontier_work | split

theorem State.downHead_work (hw : BlockWork s₀ s) (n : Fin 9) :
    BlockWork s₀ (s.downHead n) := by
  unfold State.downHead
  repeat' first
    | with_reducible exact hw | with_reducible apply State.finish_work | with_reducible apply State.dropHead_work
    | split

theorem State.streamOutcome_work (hw : BlockWork s₀ s) (n : Fin 9) (o : MediaOp) (x : Outcome) :
    BlockWork s₀ (s.streamOutcome n o x) := by
  unfold State.streamOutcome
  repeat' first
    | with_reducible exact hw | with_reducible apply State.runAdvanced_work
    | with_reducible apply State.runStopped_work | with_reducible apply State.writeFault_work
    | with_reducible apply State.abortRound_work | with_reducible apply State.downHead_work | split

theorem State.stagedOutcome_work (hw : BlockWork s₀ s) (p : Nat) (o : MediaOp) (x : Outcome) :
    BlockWork s₀ (s.stagedOutcome p o x) := by
  unfold State.stagedOutcome
  repeat' first
    | with_reducible exact hw | with_reducible apply State.stagedAdvance_work
    | with_reducible apply State.stagedFault_work | with_reducible apply State.writeFault_work
    | with_reducible apply State.stagedDown_work | split

theorem State.foldRecordOutcome_work (hw : BlockWork s₀ s) (p : Nat) (out : Outcome) :
    BlockWork s₀ (s.foldRecordOutcome p out) := by
  unfold State.foldRecordOutcome
  repeat' first
    | with_reducible exact hw | with_reducible apply State.foldRecordRead_work
    | with_reducible apply State.foldRecordLost_work | with_reducible apply State.foldRecordUnserved_work
    | with_reducible apply State.writeFault_work | split

theorem State.foldHomeLost_work (hw : BlockWork s₀ s) (f : Fold) :
    BlockWork s₀ (s.foldHomeLost f) := by
  unfold State.foldHomeLost
  repeat' first
    | with_reducible exact hw | with_reducible apply State.lostReport_work
    | with_reducible apply State.foldHomeEnded_work | split

theorem State.foldHomeOutcome_work (hw : BlockWork s₀ s) (out : Outcome) :
    BlockWork s₀ (s.foldHomeOutcome out) := by
  unfold State.foldHomeOutcome
  repeat' first
    | with_reducible exact hw | with_reducible apply State.foldHomeEnded_work
    | with_reducible apply State.foldHomeLost_work | with_reducible apply State.writeFault_work | split

theorem State.cleanOutcome_work (hw : BlockWork s₀ s) (slot : Nat) (o : MediaOp) (x : Outcome) :
    BlockWork s₀ (s.cleanOutcome slot o x) := by
  unfold State.cleanOutcome
  repeat' first
    | with_reducible exact hw | with_reducible apply State.cleanRunEnded_work
    | with_reducible apply State.cleanReadLost_work | with_reducible apply State.handOver_work
    | with_reducible apply State.cleanReadDown_work | with_reducible apply State.writeFault_work | split

theorem State.endReaders_work (hw : BlockWork s₀ s) (o : MediaOp) :
    BlockWork s₀ (s.endReaders o) := by
  unfold State.endReaders
  repeat' first
    | with_reducible exact hw | with_reducible apply State.readEnd_work
    | with_reducible apply State.recordReadEnd_work | split

theorem State.ownerOutcome_work (hw : BlockWork s₀ s) (o : MediaOp) (out : Outcome) :
    BlockWork s₀ (s.ownerOutcome o out) := by
  unfold State.ownerOutcome
  repeat' first
    | with_reducible exact hw | with_reducible apply State.fetchOutcome_work
    | with_reducible apply State.streamOutcome_work | with_reducible apply State.stagedOutcome_work
    | with_reducible apply State.foldRecordOutcome_work | with_reducible apply State.foldHomeOutcome_work
    | with_reducible apply State.cleanOutcome_work | with_reducible apply State.qualOutcome_work | split

theorem State.reportOutcome_work (hw : BlockWork s₀ s) (o : MediaOp) (out : Outcome) :
    BlockWork s₀ (s.reportOutcome o out) := by
  unfold State.reportOutcome
  repeat' first
    | with_reducible exact hw | with_reducible apply State.endReaders_work
    | with_reducible apply State.ownerOutcome_work | split

theorem State.reportAll_work (hw : BlockWork s₀ s) (os : List MediaOp) (out : Outcome) :
    BlockWork s₀ (s.reportAll os out) := by
  exact State.foldl_work (fun k o => State.reportOutcome_work k ..) hw _

theorem State.streamDown_work (hw : BlockWork s₀ s) (n : Fin 9) :
    BlockWork s₀ (s.streamDown n) := by
  unfold State.streamDown
  repeat' first
    | with_reducible exact hw | with_reducible apply State.finishAll_work
    | with_reducible apply State.keepItems_work

theorem State.swrDown_work (hw : BlockWork s₀ s) :
    BlockWork s₀ s.swrDown := by
  unfold State.swrDown
  repeat' first
    | with_reducible exact hw | with_reducible apply State.foldl_work | with_reducible apply State.streamDown_work

theorem State.sluDown_work (hw : BlockWork s₀ s) (reqs : List FoldReq) :
    BlockWork s₀ (s.sluDown reqs) := by
  unfold State.sluDown
  repeat' first
    | with_reducible exact hw | with_reducible apply State.finishAll_work | split
    | with_reducible apply BlockWork.of_slu

theorem State.cleDown_work (hw : BlockWork s₀ s) :
    BlockWork s₀ s.cleDown := by
  unfold State.cleDown
  repeat' first
    | with_reducible exact hw | with_reducible apply State.finishAll_work | split
    | with_reducible apply BlockWork.of_cle

theorem State.refuse_work (hw : BlockWork s₀ s) (tag : Nat) (st : Status) :
    BlockWork s₀ (s.refuse tag st) := by
  unfold State.refuse
  repeat' first
    | with_reducible exact hw | with_reducible apply State.finish_work

theorem State.markClamped_work (hw : BlockWork s₀ s) (tag : Nat) (c : Bool) :
    BlockWork s₀ (s.markClamped tag c) := by
  unfold State.markClamped
  repeat' first
    | with_reducible exact hw | with_reducible apply State.updEntry_work

theorem State.issueFetch_work (hw : BlockWork s₀ s) (tag : Nat) (runs : List MediaOp) :
    BlockWork s₀ (s.issueFetch tag runs) := by
  unfold State.issueFetch
  repeat' first
    | with_reducible exact hw | with_reducible apply State.updEntry_work
    | with_reducible apply State.handOverAll_work | with_reducible apply State.judgeFetch_work
    | with_reducible apply State.spendIds_work | with_reducible apply State.finish_work | split

theorem State.startFetch_work (hw : BlockWork s₀ s) (e : Entry) :
    BlockWork s₀ (s.startFetch e) := by
  unfold State.startFetch
  repeat' first
    | with_reducible exact hw | with_reducible apply State.finish_work | with_reducible apply State.updEntry_work
    | with_reducible apply State.issueFetch_work | split | dsimp only

theorem State.startDiscard_work (hw : BlockWork s₀ s) (e : Entry) :
    BlockWork s₀ (s.startDiscard e) := by
  unfold State.startDiscard
  repeat' first
    | with_reducible exact hw | with_reducible apply State.discardRange_work
    | with_reducible apply State.finish_work

theorem State.handToOwner_work (hw : BlockWork s₀ s) (e : Entry) :
    BlockWork s₀ (s.handToOwner e) := by
  unfold State.handToOwner
  repeat' first
    | with_reducible exact hw | with_reducible apply State.takeStore_work
    | with_reducible apply State.takePartial_work | with_reducible apply State.startFetch_work
    | with_reducible apply State.startDiscard_work | split

theorem State.releaseEach_work (hw : BlockWork s₀ s) {take : State → Entry → State}
    (ht : ∀ {s : State}, BlockWork s₀ s → ∀ e, BlockWork s₀ (take s e)) (tags : List Nat) :
    BlockWork s₀ (s.releaseEach take tags) := by
  refine State.foldl_work (fun k t => ?_) hw _
  split
  · exact ht k _
  · exact k

theorem State.release_work (hw : BlockWork s₀ s) (why : HoldReason) {take : State → Entry → State}
    (ht : ∀ {s : State}, BlockWork s₀ s → ∀ e, BlockWork s₀ (take s e)) :
    BlockWork s₀ (s.release why take) := by
  unfold State.release
  exact State.releaseEach_work (State.foldl_work (fun k t => State.unhold_work k t) hw _) ht _

theorem State.setWindow_work (hw : BlockWork s₀ s) (w : Nat) (x : Option Window) :
    BlockWork s₀ (s.setWindow w x) := by
  exact State.clearMarks_work (hw.of_evu _ rfl id)

theorem State.watchSetOwn_work (hw : BlockWork s₀ s) (tag window mode lo hi : Nat) :
    BlockWork s₀ (s.watchSetOwn tag window mode lo hi) := by
  unfold State.watchSetOwn
  repeat' first
    | with_reducible exact hw | with_reducible apply State.refuse_work | with_reducible apply State.markClamped_work
    | with_reducible apply State.setWindow_work | with_reducible apply State.finish_work | split

theorem State.watchClearOwn_work (hw : BlockWork s₀ s) (tag window : Nat) :
    BlockWork s₀ (s.watchClearOwn tag window) := by
  unfold State.watchClearOwn
  repeat' first
    | with_reducible exact hw | with_reducible apply State.refuse_work | with_reducible apply State.setWindow_work
    | with_reducible apply State.finish_work | split

theorem State.foldOwn_work (hw : BlockWork s₀ s) (tag count : Nat) :
    BlockWork s₀ (s.foldOwn tag count) := by
  unfold State.foldOwn
  repeat' first
    | with_reducible exact hw | with_reducible apply State.refuse_work | with_reducible apply State.markClamped_work
    | with_reducible apply State.finish_work | split | with_reducible apply BlockWork.of_slu

theorem State.cleanOwn_work (hw : BlockWork s₀ s) (tag band : Nat) :
    BlockWork s₀ (s.cleanOwn tag band) := by
  unfold State.cleanOwn
  repeat' first
    | with_reducible exact hw | with_reducible apply State.refuse_work | with_reducible apply State.finish_work
    | split | with_reducible apply BlockWork.of_cle

theorem State.acceptQualify_work (hw : BlockWork s₀ s) (tag : Nat) (bd : Band) (threshold : Nat) :
    BlockWork s₀ (s.acceptQualify tag bd threshold) := by
  unfold State.acceptQualify
  repeat' first
    | with_reducible exact hw | exact fun _ => Nat.zero_le _ | with_reducible apply State.enterQualifying_work
    | with_reducible apply State.startTrackWrite_work | with_reducible apply State.finish_work

theorem State.qualifyOwn_work (hw : BlockWork s₀ s) (tag band threshold marks : Nat) :
    BlockWork s₀ (s.qualifyOwn tag band threshold marks) := by
  unfold State.qualifyOwn
  repeat' first
    | with_reducible exact hw | with_reducible apply State.refuse_work
    | with_reducible apply State.acceptQualify_work | split

theorem State.qualifyStopOwn_work (hw : BlockWork s₀ s) (tag : Nat) :
    BlockWork s₀ (s.qualifyStopOwn tag) := by
  unfold State.qualifyStopOwn
  repeat' first
    | with_reducible exact hw | with_reducible apply State.refuse_work | with_reducible apply State.stopQual_work
    | split

theorem State.cleQuiescing_work (hw : BlockWork s₀ s) :
    BlockWork s₀ s.cleQuiescing := by
  unfold State.cleQuiescing
  repeat' first
    | with_reducible exact hw | with_reducible apply State.setStage_work | split

theorem State.streamReset_work (hw : BlockWork s₀ s) (n : Fin 9) :
    BlockWork s₀ (s.streamReset n) := by
  unfold State.streamReset
  repeat' first
    | with_reducible exact hw | exact fun _ => ⟨rfl, rfl⟩ | with_reducible apply State.keepItems_work
    | with_reducible apply State.updStream_work

theorem State.swrReset_work (hw : BlockWork s₀ s) :
    BlockWork s₀ s.swrReset :=
  State.raiseEnded_work (State.foldl_work (fun k n => State.streamReset_work k n) hw _) _

theorem State.sluReset_work (hw : BlockWork s₀ s) :
    BlockWork s₀ s.sluReset := by
  unfold State.sluReset
  repeat' first
    | with_reducible exact hw | with_reducible apply State.foldl_work | with_reducible apply State.makeDead_work
    | with_reducible apply State.advanceHead_work | split | with_reducible apply BlockWork.of_slu

end

end Sys2Proof.Machine
end

