-- ==== Sys2Proof/Laws/PerInstr.lean ====
section
/-!
SUPPORT. Laws/PerInstr.lean: the family `encoding`, one lemma per constructor of `Instr`: the code, tag and body of a
well-formed request fit the fields of its frame (R194, R202), and a command that is no request has none.
-/

/-- What the frame's fields ask of a command's parts (R194): a request code, a tag of one byte, a body of at most the body
limit. -/
def Sys2Proof.Laws.encoding.Statement (i : Sys2Proof.Instr) : Prop :=
  i.wf = true → ∀ (code tag : Nat) (body : List Sys2Proof.Byte), i.requestParts = some (code, tag, body) →
    (1 ≤ code ∧ code ≤ 23) ∧ tag < 256 ∧ body.length ≤ Sys2Proof.Config.bodyLimit

namespace Sys2Proof.Laws

theorem leBytes_length (n v : Nat) : (leBytes n v).length = n := by
  induction n generalizing v with
  | zero => rfl
  | succ n ih => simp [leBytes, ih]

theorem fits_one {v : Nat} (h : Sys2Proof.fits 1 v = true) : v < 256 := by simpa [Sys2Proof.fits] using h

theorem payload_length {xs : List Sector} (h : xs.all sectorOk = true) : xs.flatten.length = 4096 * xs.length := by
  induction xs with
  | nil => rfl
  | cons x xs ih =>
    simp only [List.all_cons, Bool.and_eq_true] at h
    have hx : x.length = 4096 := by simpa [sectorOk, Config.sectorBytes] using h.1
    simp only [List.flatten_cons, List.length_append, ih h.2, List.length_cons, hx]
    omega

theorem zones_length (zs : List ZoneDesc) : (zs.map ZoneDesc.bytes).flatten.length = 16 * zs.length := by
  induction zs with
  | nil => rfl
  | cons z zs ih =>
    simp only [List.map_cons, List.flatten_cons, List.length_append, ih, ZoneDesc.bytes, leBytes_length, List.length_cons]
    omega

theorem numbers_length (bs : List Nat) : (bs.map (leBytes 4)).flatten.length = 4 * bs.length := by
  induction bs with
  | nil => rfl
  | cons b bs ih =>
    simp only [List.map_cons, List.flatten_cons, List.length_append, ih, leBytes_length, List.length_cons]
    omega

end Sys2Proof.Laws

open Sys2Proof

theorem Sys2Proof.Laws.encoding.powerOnReset : Laws.encoding.Statement .powerOnReset := by
  intro _ c t b h
  cases h

theorem Sys2Proof.Laws.encoding.msTick : Laws.encoding.Statement .msTick := by
  intro _ c t b h
  cases h

theorem Sys2Proof.Laws.encoding.store (tag lgn first count stream : Nat) (payload : List Sector) :
    Laws.encoding.Statement (.store tag lgn first count stream payload) := by
  intro hw c t b h
  simp only [Instr.wf, Bool.and_eq_true] at hw
  cases h
  exact ⟨by decide, by simp_all [fits], by
    have h16 : payload.length ≤ 16 := by simpa using hw.1.2
    have := payload_length hw.2
    simp only [List.length_append, leBytes_length, this, Config.bodyLimit]; omega⟩

theorem Sys2Proof.Laws.encoding.fetch (tag lgn first count : Nat) :
    Laws.encoding.Statement (.fetch tag lgn first count) := by
  intro hw c t b h
  simp only [Instr.wf, Bool.and_eq_true] at hw
  cases h
  exact ⟨by decide, by simp_all [fits], by simp [leBytes_length, Config.bodyLimit]⟩

theorem Sys2Proof.Laws.encoding.discard (tag lgn count : Nat) : Laws.encoding.Statement (.discard tag lgn count) := by
  intro hw c t b h
  simp only [Instr.wf, Bool.and_eq_true] at hw
  cases h
  exact ⟨by decide, by simp_all [fits], by simp [leBytes_length, Config.bodyLimit]⟩

theorem Sys2Proof.Laws.encoding.fold (tag count : Nat) : Laws.encoding.Statement (.fold tag count) := by
  intro hw c t b h
  simp only [Instr.wf, Bool.and_eq_true] at hw
  cases h
  exact ⟨by decide, by simp_all [fits], by simp [leBytes_length, Config.bodyLimit]⟩

theorem Sys2Proof.Laws.encoding.clean (tag band : Nat) : Laws.encoding.Statement (.clean tag band) := by
  intro hw c t b h
  simp only [Instr.wf, Bool.and_eq_true] at hw
  cases h
  exact ⟨by decide, by simp_all [fits], by simp [leBytes_length, Config.bodyLimit]⟩

theorem Sys2Proof.Laws.encoding.qualify (tag band threshold marks : Nat) :
    Laws.encoding.Statement (.qualify tag band threshold marks) := by
  intro hw c t b h
  simp only [Instr.wf, Bool.and_eq_true] at hw
  cases h
  exact ⟨by decide, by simp_all [fits], by simp [leBytes_length, Config.bodyLimit]⟩

theorem Sys2Proof.Laws.encoding.qualifyStop (tag : Nat) : Laws.encoding.Statement (.qualifyStop tag) := by
  intro hw c t b h
  simp only [Instr.wf] at hw
  cases h
  exact ⟨by decide, fits_one hw, by simp⟩

theorem Sys2Proof.Laws.encoding.streamSet (tag stream lo hi : Nat) :
    Laws.encoding.Statement (.streamSet tag stream lo hi) := by
  intro hw c t b h
  simp only [Instr.wf, Bool.and_eq_true] at hw
  cases h
  exact ⟨by decide, by simp_all [fits], by simp [leBytes_length, Config.bodyLimit]⟩

theorem Sys2Proof.Laws.encoding.pacerSet (tag mode running resetOption reload : Nat) :
    Laws.encoding.Statement (.pacerSet tag mode running resetOption reload) := by
  intro hw c t b h
  simp only [Instr.wf, Bool.and_eq_true] at hw
  cases h
  exact ⟨by decide, by simp_all [fits], by simp [leBytes_length, Config.bodyLimit]⟩

theorem Sys2Proof.Laws.encoding.maskSet (tag mask threshold timeout : Nat) :
    Laws.encoding.Statement (.maskSet tag mask threshold timeout) := by
  intro hw c t b h
  simp only [Instr.wf, Bool.and_eq_true] at hw
  cases h
  exact ⟨by decide, by simp_all [fits], by simp [leBytes_length, Config.bodyLimit]⟩

theorem Sys2Proof.Laws.encoding.watchSet (tag window mode lo hi : Nat) :
    Laws.encoding.Statement (.watchSet tag window mode lo hi) := by
  intro hw c t b h
  simp only [Instr.wf, Bool.and_eq_true] at hw
  cases h
  exact ⟨by decide, by simp_all [fits], by simp [leBytes_length, Config.bodyLimit]⟩

theorem Sys2Proof.Laws.encoding.watchClear (tag window : Nat) : Laws.encoding.Statement (.watchClear tag window) := by
  intro hw c t b h
  simp only [Instr.wf, Bool.and_eq_true] at hw
  cases h
  exact ⟨by decide, by simp_all [fits], by simp [leBytes_length, Config.bodyLimit]⟩

theorem Sys2Proof.Laws.encoding.eventEnable (tag set : Nat) : Laws.encoding.Statement (.eventEnable tag set) := by
  intro hw c t b h
  simp only [Instr.wf, Bool.and_eq_true] at hw
  cases h
  exact ⟨by decide, by simp_all [fits], by simp [leBytes_length, Config.bodyLimit]⟩

theorem Sys2Proof.Laws.encoding.eventAck (tag set : Nat) : Laws.encoding.Statement (.eventAck tag set) := by
  intro hw c t b h
  simp only [Instr.wf, Bool.and_eq_true] at hw
  cases h
  exact ⟨by decide, by simp_all [fits], by simp [leBytes_length, Config.bodyLimit]⟩

theorem Sys2Proof.Laws.encoding.inspectZone (tag zone : Nat) : Laws.encoding.Statement (.inspectZone tag zone) := by
  intro hw c t b h
  simp only [Instr.wf, Bool.and_eq_true] at hw
  cases h
  exact ⟨by decide, by simp_all [fits], by simp [leBytes_length, inspectBody, Config.bodyLimit]⟩

theorem Sys2Proof.Laws.encoding.inspectBand (tag band : Nat) : Laws.encoding.Statement (.inspectBand tag band) := by
  intro hw c t b h
  simp only [Instr.wf, Bool.and_eq_true] at hw
  cases h
  exact ⟨by decide, by simp_all [fits], by simp [leBytes_length, inspectBody, Config.bodyLimit]⟩

theorem Sys2Proof.Laws.encoding.inspectGranule (tag lgn : Nat) :
    Laws.encoding.Statement (.inspectGranule tag lgn) := by
  intro hw c t b h
  simp only [Instr.wf, Bool.and_eq_true] at hw
  cases h
  exact ⟨by decide, by simp_all [fits], by simp [leBytes_length, inspectBody, Config.bodyLimit]⟩

theorem Sys2Proof.Laws.encoding.inspectPool (tag : Nat) : Laws.encoding.Statement (.inspectPool tag) := by
  intro hw c t b h
  simp only [Instr.wf] at hw
  cases h
  exact ⟨by decide, fits_one hw, by simp [leBytes_length, inspectBody, Config.bodyLimit]⟩

theorem Sys2Proof.Laws.encoding.inspectStream (tag stream : Nat) :
    Laws.encoding.Statement (.inspectStream tag stream) := by
  intro hw c t b h
  simp only [Instr.wf, Bool.and_eq_true] at hw
  cases h
  exact ⟨by decide, by simp_all [fits], by simp [leBytes_length, inspectBody, Config.bodyLimit]⟩

theorem Sys2Proof.Laws.encoding.inspectLog (tag : Nat) : Laws.encoding.Statement (.inspectLog tag) := by
  intro hw c t b h
  simp only [Instr.wf] at hw
  cases h
  exact ⟨by decide, fits_one hw, by simp [leBytes_length, inspectBody, Config.bodyLimit]⟩

theorem Sys2Proof.Laws.encoding.inspectCleaner (tag : Nat) : Laws.encoding.Statement (.inspectCleaner tag) := by
  intro hw c t b h
  simp only [Instr.wf] at hw
  cases h
  exact ⟨by decide, fits_one hw, by simp [leBytes_length, inspectBody, Config.bodyLimit]⟩

theorem Sys2Proof.Laws.encoding.inspectQualification (tag : Nat) :
    Laws.encoding.Statement (.inspectQualification tag) := by
  intro hw c t b h
  simp only [Instr.wf] at hw
  cases h
  exact ⟨by decide, fits_one hw, by simp [leBytes_length, inspectBody, Config.bodyLimit]⟩

theorem Sys2Proof.Laws.encoding.inspectPort (tag : Nat) : Laws.encoding.Statement (.inspectPort tag) := by
  intro hw c t b h
  simp only [Instr.wf] at hw
  cases h
  exact ⟨by decide, fits_one hw, by simp [leBytes_length, inspectBody, Config.bodyLimit]⟩

theorem Sys2Proof.Laws.encoding.inspectLink (tag : Nat) : Laws.encoding.Statement (.inspectLink tag) := by
  intro hw c t b h
  simp only [Instr.wf] at hw
  cases h
  exact ⟨by decide, fits_one hw, by simp [leBytes_length, inspectBody, Config.bodyLimit]⟩

theorem Sys2Proof.Laws.encoding.inspectEvent (tag : Nat) : Laws.encoding.Statement (.inspectEvent tag) := by
  intro hw c t b h
  simp only [Instr.wf] at hw
  cases h
  exact ⟨by decide, fits_one hw, by simp [leBytes_length, inspectBody, Config.bodyLimit]⟩

theorem Sys2Proof.Laws.encoding.inspectController (tag kind : Nat) :
    Laws.encoding.Statement (.inspectController tag kind) := by
  intro hw c t b h
  simp only [Instr.wf, Bool.and_eq_true] at hw
  cases h
  exact ⟨by decide, by simp_all [fits], by simp [leBytes_length, inspectBody, Config.bodyLimit]⟩

theorem Sys2Proof.Laws.encoding.format (tag lgnCount reserve : Nat) (area : AreaDesc) (zones : List ZoneDesc) (retired : List Nat) :
    Laws.encoding.Statement (.format tag lgnCount reserve area zones retired) := by
  intro hw c t b h
  simp only [Instr.wf, Bool.and_eq_true] at hw
  cases h
  exact ⟨by decide, by simp_all [fits], by
    have hl : 16 + 16 * zones.length + 4 * retired.length ≤ Config.bodyLimit := by simpa using hw.2
    simp only [List.length_append, leBytes_length, zones_length, numbers_length]; omega⟩

theorem Sys2Proof.Laws.encoding.quiesce (tag : Nat) : Laws.encoding.Statement (.quiesce tag) := by
  intro hw c t b h
  simp only [Instr.wf] at hw
  cases h
  exact ⟨by decide, fits_one hw, by simp⟩

theorem Sys2Proof.Laws.encoding.resume (tag : Nat) : Laws.encoding.Statement (.resume tag) := by
  intro hw c t b h
  simp only [Instr.wf] at hw
  cases h
  exact ⟨by decide, fits_one hw, by simp⟩

theorem Sys2Proof.Laws.encoding.imageRead (tag index : Nat) : Laws.encoding.Statement (.imageRead tag index) := by
  intro hw c t b h
  simp only [Instr.wf, Bool.and_eq_true] at hw
  cases h
  exact ⟨by decide, by simp_all [fits], by simp [leBytes_length, Config.bodyLimit]⟩

theorem Sys2Proof.Laws.encoding.imageWrite (tag index : Nat) (chunk : Chunk) :
    Laws.encoding.Statement (.imageWrite tag index chunk) := by
  intro hw c t b h
  simp only [Instr.wf, Bool.and_eq_true] at hw
  cases h
  exact ⟨by decide, by simp_all [fits], by
    have hc : chunk.length = 65536 := of_decide_eq_true hw.2
    simp only [List.length_append, leBytes_length, hc, Config.bodyLimit]; omega⟩

theorem Sys2Proof.Laws.encoding.imageCommit (tag : Nat) : Laws.encoding.Statement (.imageCommit tag) := by
  intro hw c t b h
  simp only [Instr.wf] at hw
  cases h
  exact ⟨by decide, fits_one hw, by simp⟩

theorem Sys2Proof.Laws.encoding.mediaRestart (tag : Nat) : Laws.encoding.Statement (.mediaRestart tag) := by
  intro hw c t b h
  simp only [Instr.wf] at hw
  cases h
  exact ⟨by decide, fits_one hw, by simp⟩

theorem Sys2Proof.Laws.encoding.reset (tag : Nat) : Laws.encoding.Statement (.reset tag) := by
  intro hw c t b h
  simp only [Instr.wf] at hw
  cases h
  exact ⟨by decide, fits_one hw, by simp⟩

theorem Sys2Proof.Laws.encoding.badRequest (code tag : Nat) : Laws.encoding.Statement (.badRequest code tag) := by
  intro _ c t b h
  cases h

theorem Sys2Proof.Laws.encoding.badMarker : Laws.encoding.Statement .badMarker := by
  intro _ c t b h
  cases h

theorem Sys2Proof.Laws.encoding.overlength : Laws.encoding.Statement .overlength := by
  intro _ c t b h
  cases h

theorem Sys2Proof.Laws.encoding.badCheck : Laws.encoding.Statement .badCheck := by
  intro _ c t b h
  cases h

theorem Sys2Proof.Laws.encoding.frameLimitExpiry : Laws.encoding.Statement .frameLimitExpiry := by
  intro _ c t b h
  cases h

theorem Sys2Proof.Laws.encoding.frameSent : Laws.encoding.Statement .frameSent := by
  intro _ c t b h
  cases h

theorem Sys2Proof.Laws.encoding.deferredFrameTaken : Laws.encoding.Statement .deferredFrameTaken := by
  intro _ c t b h
  cases h

theorem Sys2Proof.Laws.encoding.watchNoticeTaken : Laws.encoding.Statement .watchNoticeTaken := by
  intro _ c t b h
  cases h

theorem Sys2Proof.Laws.encoding.holdExpiry : Laws.encoding.Statement .holdExpiry := by
  intro _ c t b h
  cases h

theorem Sys2Proof.Laws.encoding.pacerUnderflow : Laws.encoding.Statement .pacerUnderflow := by
  intro _ c t b h
  cases h

theorem Sys2Proof.Laws.encoding.claimLimitExpiry : Laws.encoding.Statement .claimLimitExpiry := by
  intro _ c t b h
  cases h

theorem Sys2Proof.Laws.encoding.reissueDelayExpiry : Laws.encoding.Statement .reissueDelayExpiry := by
  intro _ c t b h
  cases h

theorem Sys2Proof.Laws.encoding.completionLimitExpiry : Laws.encoding.Statement .completionLimitExpiry := by
  intro _ c t b h
  cases h

theorem Sys2Proof.Laws.encoding.abortLimitExpiry : Laws.encoding.Statement .abortLimitExpiry := by
  intro _ c t b h
  cases h

theorem Sys2Proof.Laws.encoding.probeLimitExpiry : Laws.encoding.Statement .probeLimitExpiry := by
  intro _ c t b h
  cases h

theorem Sys2Proof.Laws.encoding.accepted (order : Nat) : Laws.encoding.Statement (.accepted order) := by
  intro _ c t b h
  cases h

theorem Sys2Proof.Laws.encoding.defer (order : Nat) : Laws.encoding.Statement (.defer order) := by
  intro _ c t b h
  cases h

theorem Sys2Proof.Laws.encoding.finished (order status sectorsDone failing : Nat) :
    Laws.encoding.Statement (.finished order status sectorsDone failing) := by
  intro _ c t b h
  cases h

theorem Sys2Proof.Laws.encoding.data (order sector : Nat) (content : Sector) :
    Laws.encoding.Statement (.data order sector content) := by
  intro _ c t b h
  cases h

theorem Sys2Proof.Laws.encoding.headGrant : Laws.encoding.Statement .headGrant := by
  intro _ c t b h
  cases h

theorem Sys2Proof.Laws.encoding.requestStart : Laws.encoding.Statement .requestStart := by
  intro _ c t b h
  cases h

theorem Sys2Proof.Laws.encoding.pressureRelease : Laws.encoding.Statement .pressureRelease := by
  intro _ c t b h
  cases h

theorem Sys2Proof.Laws.encoding.logRelease : Laws.encoding.Statement .logRelease := by
  intro _ c t b h
  cases h

theorem Sys2Proof.Laws.encoding.openWaitGrant : Laws.encoding.Statement .openWaitGrant := by
  intro _ c t b h
  cases h

theorem Sys2Proof.Laws.encoding.bandReset : Laws.encoding.Statement .bandReset := by
  intro _ c t b h
  cases h

theorem Sys2Proof.Laws.encoding.quiesceComplete : Laws.encoding.Statement .quiesceComplete := by
  intro _ c t b h
  cases h

theorem Sys2Proof.Laws.encoding.foldChoice : Laws.encoding.Statement .foldChoice := by
  intro _ c t b h
  cases h

theorem Sys2Proof.Laws.encoding.victimChoice : Laws.encoding.Statement .victimChoice := by
  intro _ c t b h
  cases h

theorem Sys2Proof.Laws.encoding.batchStart : Laws.encoding.Statement .batchStart := by
  intro _ c t b h
  cases h

theorem Sys2Proof.Laws.encoding.markerFound : Laws.encoding.Statement .markerFound := by
  intro _ c t b h
  cases h
end

