-- ==== Sys2Proof/Laws/ReadData.lean ====
section
/-!
SUPPORT. Laws/ReadData.lean: what a DATA record can do, said once (R148, R204).
-/

namespace Sys2Proof.Machine

theorem MediaOp.placeOf?_eq_some {o : MediaOp} {x j : Nat} :
    o.placeOf? x = some j ↔
      o.isWrite = false ∧ o.first ≤ x ∧ x < o.first + o.count ∧ j = o.place + (x - o.first) := by
  unfold MediaOp.placeOf?
  split
  · next h => simp [h, eq_comm]
  · next h => exact ⟨nofun, fun ⟨a, b, c, _⟩ => absurd ⟨a, b, c⟩ h⟩

/-- A DATA record in RUNNING is placed where its sector has a place, whatever its order number. -/
theorem execData_placed {s : State} {o : MediaOp} {x j : Nat} (ho : s.mpt.op = some o) (hr : s.mpt.stage = .running)
    (hj : o.placeOf? x = some j) (n : Nat) (content : Sector) :
    execData n x content s = .next (s.placeSector o j content) := by
  simp [execData, ho, hr, hj]

/-- All a DATA record can do: it is placed in the buffer of the read in RUNNING, or it changes nothing. -/
theorem execData_cases {s t : State} {n x : Nat} {content : Sector} (h : execData n x content s = .next t) :
    (∃ o j, s.mpt.op = some o ∧ s.mpt.stage = .running ∧ o.placeOf? x = some j ∧ t = s.placeSector o j content)
    ∨ ((∀ o, s.mpt.op = some o → s.mpt.stage = .running → o.placeOf? x = none) ∧ t = s) := by
  unfold execData at h
  split at h
  · next o ho =>
    split at h
    · next hr =>
      split at h
      · next j hj => exact .inl ⟨o, j, ho, hr, hj, by simpa using h.symm⟩
      · next hj => exact .inr ⟨fun o' ho' _ => by cases ho.symm.trans ho'; exact hj, by simpa using h.symm⟩
    · next hr => exact .inr ⟨fun _ _ hr' => absurd hr' hr, by simpa using h.symm⟩
  · next ho => exact .inr ⟨fun o ho' => by simp [ho] at ho', by simpa using h.symm⟩

end Sys2Proof.Machine
end

