-- ==== Sys2Proof/Laws/Requests.lean ====
section
/-!
SUPPORT. Laws/Requests.lean: what the way of a request does, said once: a taken frame is judged, an admitted request has
its entry at the tail of the list, ending it brings the list back (R165, R167, R168).
-/

namespace Sys2Proof.Machine

/-- `s` with the assembler READY and holding nothing: what a taken frame's judgement is given (R163). -/
def State.ready (s : State) : State := { s with flu := { s.flu with assembler := .ready, held := [] } }

/-- A frame that is taken is judged with the assembler READY (R163, R165). -/
theorem State.arrive_of_takesFrames {s : State} (h : s.takesFrames = true) (i : Instr) (judge : State → State) :
    s.arrive i judge = judge s.ready := by
  simp [State.arrive, State.ready, h]

/-- A frame that is not taken waits (R165). -/
theorem State.arrive_of_not_takesFrames {s : State} (h : s.takesFrames = false) (i : Instr) (judge : State → State) :
    s.arrive i judge = { s with flu := { s.flu with
      assembler := .frame, held := if s.flu.waiting.isEmpty then [] else s.flu.held
      waiting := s.flu.waiting ++ [i] } } := by
  simp [State.arrive, h]

theorem State.entry?_none {s : State} {tag : Nat} (ht : ∀ e ∈ s.rqu.entries, e.tag ≠ tag) : s.entry? tag = none := by
  simp only [State.entry?, List.find?_eq_none, decide_eq_true_eq]; exact ht

/-- The judgement of an admitted request is its own (R167). -/
theorem State.judgeRequest_of_admits {s : State} {tag : Nat} (h : s.rqu.entries.length < Config.entryLimit)
    (ht : ∀ e ∈ s.rqu.entries, e.tag ≠ tag) (code : Nat) (own : State → State) :
    s.judgeRequest code tag own = own (s.admitRequest code tag) := by
  simp [State.judgeRequest, Nat.not_le.2 h, State.entry?_none ht]

/-- The whole way of an admitted request: its own judgement, of the state with its entry taken (R165, R167). -/
theorem State.arrive_admits {s : State} {tag : Nat} (h : s.admitsTag tag) (i : Instr) (code : Nat)
    (own : State → State) :
    (s.arrive i fun s => s.judgeRequest code tag own)
      = own (s.ready.admitRequest code tag) := by
  rw [State.arrive_of_takesFrames h.1, State.judgeRequest_of_admits (s := s.ready) h.2.1 h.2.2]

/-- The entry with a tag that no earlier entry has, at the tail of the list. -/
theorem State.entry?_last {t : State} {tag : Nat} {es : List Entry} {e : Entry} (hes : t.rqu.entries = es ++ [e])
    (ht : ∀ x ∈ es, x.tag ≠ tag) (he : e.tag = tag) : t.entry? tag = some e := by
  have : es.find? (fun e => decide (e.tag = tag)) = none := by
    simp only [List.find?_eq_none, decide_eq_true_eq]; exact ht
  simp [State.entry?, hes, List.find?_append, this, he]

/-- Ending the request whose entry stands at the tail (R168). -/
theorem State.finish_last {t : State} {tag : Nat} {es : List Entry} {e : Entry} (hes : t.rqu.entries = es ++ [e])
    (ht : ∀ x ∈ es, x.tag ≠ tag) (he : e.tag = tag) (st : Status) (fields : List Field) :
    t.finish tag st fields = { t with
      rqu := { t.rqu with entries := es, held := t.rqu.held.filter fun u => decide (u ≠ tag) }
      flu := { t.flu with outbound := t.flu.outbound ++ [replyFrame e.code tag e.clamped st fields] } } := by
  have hf : (es ++ [e]).filter (fun e => decide (e.tag ≠ tag)) = es := by
    rw [List.filter_append, List.filter_eq_self.2 (by simpa using ht)]; simp [he]
  simp only [State.finish, State.entry?_last hes ht he, State.freeEntry, State.reply, State.push, hes, hf]

/-- Changing the entry at the tail. -/
theorem State.updEntry_last {t : State} {tag : Nat} {es : List Entry} {e : Entry} (hes : t.rqu.entries = es ++ [e])
    (ht : ∀ x ∈ es, x.tag ≠ tag) (he : e.tag = tag) (f : Entry → Entry) :
    t.updEntry tag f = { t with rqu := { t.rqu with entries := es ++ [f e] } } := by
  have hm : es.map (fun e => if e.tag = tag then f e else e) = es := by
    conv_rhs => rw [← List.map_id es]
    exact List.map_congr_left fun x hx => by simp [ht x hx]
  simp [State.updEntry, hes, hm, he]

/-- A request refused or replied as soon as it is admitted (R167, R168). -/
theorem State.finish_admit {s : State} {tag : Nat} (ht : ∀ e ∈ s.rqu.entries, e.tag ≠ tag) (code : Nat) (st : Status)
    (fields : List Field) :
    (s.ready.admitRequest code tag).finish tag st fields
      = s.answered code tag false st fields := by
  rw [State.finish_last (t := s.ready.admitRequest code tag)
    (es := s.rqu.entries) (e := s.ready.newRequest code tag)
    rfl ht rfl]
  rfl

/-- A request refused or replied after its mark was set (R161, R168). -/
theorem State.finish_markClamped_admit {s : State} {tag : Nat} (ht : ∀ e ∈ s.rqu.entries, e.tag ≠ tag)
    (code : Nat) (c : Bool) (st : Status) (fields : List Field) :
    ((s.ready.admitRequest code tag).markClamped tag c).finish tag st
      fields = s.answered code tag c st fields := by
  rw [State.markClamped, State.updEntry_last (es := s.rqu.entries)
    (e := s.ready.newRequest code tag) rfl ht rfl]
  rw [State.finish_last (es := s.rqu.entries)
    (e := { s.ready.newRequest code tag with clamped := c })
    rfl ht rfl]
  rfl

end Sys2Proof.Machine
end

