-- ==== Sys2Proof/Laws/State.lean ====
section
/-!
SUPPORT. Laws/State.lean: one lemma per field per update of the state, each true by unfolding, so that no later proof
unfolds a record update.
-/

namespace Sys2Proof.Machine

variable (s : State)

/-! ### push -/
@[simp] theorem State.push_pending (f : OutFrame) : (s.push f).pending = s.pending := rfl
@[simp] theorem State.push_ctl (f : OutFrame) : (s.push f).ctl = s.ctl := rfl
@[simp] theorem State.push_flu (f : OutFrame) : (s.push f).flu = { s.flu with outbound := s.flu.outbound ++ [f] } := rfl
@[simp] theorem State.push_rqu (f : OutFrame) : (s.push f).rqu = s.rqu := rfl
@[simp] theorem State.push_gmu (f : OutFrame) : (s.push f).gmu = s.gmu := rfl
@[simp] theorem State.push_btu (f : OutFrame) : (s.push f).btu = s.btu := rfl
@[simp] theorem State.push_swr (f : OutFrame) : (s.push f).swr = s.swr := rfl
@[simp] theorem State.push_slu (f : OutFrame) : (s.push f).slu = s.slu := rfl
@[simp] theorem State.push_cle (f : OutFrame) : (s.push f).cle = s.cle := rfl
@[simp] theorem State.push_qen (f : OutFrame) : (s.push f).qen = s.qen := rfl
@[simp] theorem State.push_har (f : OutFrame) : (s.push f).har = s.har := rfl
@[simp] theorem State.push_mpt (f : OutFrame) : (s.push f).mpt = s.mpt := rfl
@[simp] theorem State.push_evu (f : OutFrame) : (s.push f).evu = s.evu := rfl
@[simp] theorem State.push_residue (f : OutFrame) : (s.push f).residue = s.residue := rfl

/-! ### reply -/
@[simp] theorem State.reply_pending (c t : Nat) (cl : Bool) (st : Status) (fs : List Field) :
    (s.reply c t cl st fs).pending = s.pending := rfl
@[simp] theorem State.reply_ctl (c t : Nat) (cl : Bool) (st : Status) (fs : List Field) :
    (s.reply c t cl st fs).ctl = s.ctl := rfl
@[simp] theorem State.reply_flu (c t : Nat) (cl : Bool) (st : Status) (fs : List Field) :
    (s.reply c t cl st fs).flu = { s.flu with outbound := s.flu.outbound ++ [replyFrame c t cl st fs] } := rfl
@[simp] theorem State.reply_rqu (c t : Nat) (cl : Bool) (st : Status) (fs : List Field) :
    (s.reply c t cl st fs).rqu = s.rqu := rfl
@[simp] theorem State.reply_gmu (c t : Nat) (cl : Bool) (st : Status) (fs : List Field) :
    (s.reply c t cl st fs).gmu = s.gmu := rfl
@[simp] theorem State.reply_btu (c t : Nat) (cl : Bool) (st : Status) (fs : List Field) :
    (s.reply c t cl st fs).btu = s.btu := rfl
@[simp] theorem State.reply_swr (c t : Nat) (cl : Bool) (st : Status) (fs : List Field) :
    (s.reply c t cl st fs).swr = s.swr := rfl
@[simp] theorem State.reply_slu (c t : Nat) (cl : Bool) (st : Status) (fs : List Field) :
    (s.reply c t cl st fs).slu = s.slu := rfl
@[simp] theorem State.reply_cle (c t : Nat) (cl : Bool) (st : Status) (fs : List Field) :
    (s.reply c t cl st fs).cle = s.cle := rfl
@[simp] theorem State.reply_qen (c t : Nat) (cl : Bool) (st : Status) (fs : List Field) :
    (s.reply c t cl st fs).qen = s.qen := rfl
@[simp] theorem State.reply_har (c t : Nat) (cl : Bool) (st : Status) (fs : List Field) :
    (s.reply c t cl st fs).har = s.har := rfl
@[simp] theorem State.reply_mpt (c t : Nat) (cl : Bool) (st : Status) (fs : List Field) :
    (s.reply c t cl st fs).mpt = s.mpt := rfl
@[simp] theorem State.reply_evu (c t : Nat) (cl : Bool) (st : Status) (fs : List Field) :
    (s.reply c t cl st fs).evu = s.evu := rfl
@[simp] theorem State.reply_residue (c t : Nat) (cl : Bool) (st : Status) (fs : List Field) :
    (s.reply c t cl st fs).residue = s.residue := rfl

/-! ### setAssembler -/
@[simp] theorem State.setAssembler_pending (a : Assembler) (held : List Byte) :
    (s.setAssembler a held).pending = s.pending := rfl
@[simp] theorem State.setAssembler_ctl (a : Assembler) (held : List Byte) :
    (s.setAssembler a held).ctl = s.ctl := rfl
@[simp] theorem State.setAssembler_flu (a : Assembler) (held : List Byte) :
    (s.setAssembler a held).flu = { s.flu with assembler := a, held := held } := rfl
@[simp] theorem State.setAssembler_rqu (a : Assembler) (held : List Byte) :
    (s.setAssembler a held).rqu = s.rqu := rfl
@[simp] theorem State.setAssembler_gmu (a : Assembler) (held : List Byte) :
    (s.setAssembler a held).gmu = s.gmu := rfl
@[simp] theorem State.setAssembler_btu (a : Assembler) (held : List Byte) :
    (s.setAssembler a held).btu = s.btu := rfl
@[simp] theorem State.setAssembler_swr (a : Assembler) (held : List Byte) :
    (s.setAssembler a held).swr = s.swr := rfl
@[simp] theorem State.setAssembler_slu (a : Assembler) (held : List Byte) :
    (s.setAssembler a held).slu = s.slu := rfl
@[simp] theorem State.setAssembler_cle (a : Assembler) (held : List Byte) :
    (s.setAssembler a held).cle = s.cle := rfl
@[simp] theorem State.setAssembler_qen (a : Assembler) (held : List Byte) :
    (s.setAssembler a held).qen = s.qen := rfl
@[simp] theorem State.setAssembler_har (a : Assembler) (held : List Byte) :
    (s.setAssembler a held).har = s.har := rfl
@[simp] theorem State.setAssembler_mpt (a : Assembler) (held : List Byte) :
    (s.setAssembler a held).mpt = s.mpt := rfl
@[simp] theorem State.setAssembler_evu (a : Assembler) (held : List Byte) :
    (s.setAssembler a held).evu = s.evu := rfl
@[simp] theorem State.setAssembler_residue (a : Assembler) (held : List Byte) :
    (s.setAssembler a held).residue = s.residue := rfl

/-! ### keepSending -/
@[simp] theorem State.keepSending_pending (q : List OutFrame) : (s.keepSending q).pending = s.pending := rfl
@[simp] theorem State.keepSending_ctl (q : List OutFrame) : (s.keepSending q).ctl = s.ctl := rfl
@[simp] theorem State.keepSending_flu (q : List OutFrame) : (s.keepSending q).flu = { s.flu with outbound := q } := rfl
@[simp] theorem State.keepSending_rqu (q : List OutFrame) : (s.keepSending q).rqu = s.rqu := rfl
@[simp] theorem State.keepSending_gmu (q : List OutFrame) : (s.keepSending q).gmu = s.gmu := rfl
@[simp] theorem State.keepSending_btu (q : List OutFrame) : (s.keepSending q).btu = s.btu := rfl
@[simp] theorem State.keepSending_swr (q : List OutFrame) : (s.keepSending q).swr = s.swr := rfl
@[simp] theorem State.keepSending_slu (q : List OutFrame) : (s.keepSending q).slu = s.slu := rfl
@[simp] theorem State.keepSending_cle (q : List OutFrame) : (s.keepSending q).cle = s.cle := rfl
@[simp] theorem State.keepSending_qen (q : List OutFrame) : (s.keepSending q).qen = s.qen := rfl
@[simp] theorem State.keepSending_har (q : List OutFrame) : (s.keepSending q).har = s.har := rfl
@[simp] theorem State.keepSending_mpt (q : List OutFrame) : (s.keepSending q).mpt = s.mpt := rfl
@[simp] theorem State.keepSending_evu (q : List OutFrame) : (s.keepSending q).evu = s.evu := rfl
@[simp] theorem State.keepSending_residue (q : List OutFrame) : (s.keepSending q).residue = s.residue := rfl

/-! ### updEntry -/
@[simp] theorem State.updEntry_pending (t : Nat) (f : Entry → Entry) : (s.updEntry t f).pending = s.pending := rfl
@[simp] theorem State.updEntry_ctl (t : Nat) (f : Entry → Entry) : (s.updEntry t f).ctl = s.ctl := rfl
@[simp] theorem State.updEntry_flu (t : Nat) (f : Entry → Entry) : (s.updEntry t f).flu = s.flu := rfl
@[simp] theorem State.updEntry_rqu (t : Nat) (f : Entry → Entry) :
    (s.updEntry t f).rqu = { s.rqu with entries := s.rqu.entries.map fun e => if e.tag = t then f e else e } := rfl
@[simp] theorem State.updEntry_gmu (t : Nat) (f : Entry → Entry) : (s.updEntry t f).gmu = s.gmu := rfl
@[simp] theorem State.updEntry_btu (t : Nat) (f : Entry → Entry) : (s.updEntry t f).btu = s.btu := rfl
@[simp] theorem State.updEntry_swr (t : Nat) (f : Entry → Entry) : (s.updEntry t f).swr = s.swr := rfl
@[simp] theorem State.updEntry_slu (t : Nat) (f : Entry → Entry) : (s.updEntry t f).slu = s.slu := rfl
@[simp] theorem State.updEntry_cle (t : Nat) (f : Entry → Entry) : (s.updEntry t f).cle = s.cle := rfl
@[simp] theorem State.updEntry_qen (t : Nat) (f : Entry → Entry) : (s.updEntry t f).qen = s.qen := rfl
@[simp] theorem State.updEntry_har (t : Nat) (f : Entry → Entry) : (s.updEntry t f).har = s.har := rfl
@[simp] theorem State.updEntry_mpt (t : Nat) (f : Entry → Entry) : (s.updEntry t f).mpt = s.mpt := rfl
@[simp] theorem State.updEntry_evu (t : Nat) (f : Entry → Entry) : (s.updEntry t f).evu = s.evu := rfl
@[simp] theorem State.updEntry_residue (t : Nat) (f : Entry → Entry) : (s.updEntry t f).residue = s.residue := rfl

/-! ### freeEntry -/
@[simp] theorem State.freeEntry_pending (t : Nat) : (s.freeEntry t).pending = s.pending := rfl
@[simp] theorem State.freeEntry_ctl (t : Nat) : (s.freeEntry t).ctl = s.ctl := rfl
@[simp] theorem State.freeEntry_flu (t : Nat) : (s.freeEntry t).flu = s.flu := rfl
@[simp] theorem State.freeEntry_rqu (t : Nat) :
    (s.freeEntry t).rqu = { s.rqu with
      entries := s.rqu.entries.filter (fun e => decide (e.tag ≠ t))
      held := s.rqu.held.filter (fun u => decide (u ≠ t)) } := rfl
@[simp] theorem State.freeEntry_gmu (t : Nat) : (s.freeEntry t).gmu = s.gmu := rfl
@[simp] theorem State.freeEntry_btu (t : Nat) : (s.freeEntry t).btu = s.btu := rfl
@[simp] theorem State.freeEntry_swr (t : Nat) : (s.freeEntry t).swr = s.swr := rfl
@[simp] theorem State.freeEntry_slu (t : Nat) : (s.freeEntry t).slu = s.slu := rfl
@[simp] theorem State.freeEntry_cle (t : Nat) : (s.freeEntry t).cle = s.cle := rfl
@[simp] theorem State.freeEntry_qen (t : Nat) : (s.freeEntry t).qen = s.qen := rfl
@[simp] theorem State.freeEntry_har (t : Nat) : (s.freeEntry t).har = s.har := rfl
@[simp] theorem State.freeEntry_mpt (t : Nat) : (s.freeEntry t).mpt = s.mpt := rfl
@[simp] theorem State.freeEntry_evu (t : Nat) : (s.freeEntry t).evu = s.evu := rfl
@[simp] theorem State.freeEntry_residue (t : Nat) : (s.freeEntry t).residue = s.residue := rfl

/-! ### setEntryOf -/
@[simp] theorem State.setEntryOf_pending (l : Nat) (e : MapEntry) : (s.setEntryOf l e).pending = s.pending := rfl
@[simp] theorem State.setEntryOf_ctl (l : Nat) (e : MapEntry) : (s.setEntryOf l e).ctl = s.ctl := rfl
@[simp] theorem State.setEntryOf_flu (l : Nat) (e : MapEntry) : (s.setEntryOf l e).flu = s.flu := rfl
@[simp] theorem State.setEntryOf_rqu (l : Nat) (e : MapEntry) : (s.setEntryOf l e).rqu = s.rqu := rfl
@[simp] theorem State.setEntryOf_gmu (l : Nat) (e : MapEntry) :
    (s.setEntryOf l e).gmu = { s.gmu with map := tablePut {} s.gmu.map l e } := rfl
@[simp] theorem State.setEntryOf_btu (l : Nat) (e : MapEntry) : (s.setEntryOf l e).btu = s.btu := rfl
@[simp] theorem State.setEntryOf_swr (l : Nat) (e : MapEntry) : (s.setEntryOf l e).swr = s.swr := rfl
@[simp] theorem State.setEntryOf_slu (l : Nat) (e : MapEntry) : (s.setEntryOf l e).slu = s.slu := rfl
@[simp] theorem State.setEntryOf_cle (l : Nat) (e : MapEntry) : (s.setEntryOf l e).cle = s.cle := rfl
@[simp] theorem State.setEntryOf_qen (l : Nat) (e : MapEntry) : (s.setEntryOf l e).qen = s.qen := rfl
@[simp] theorem State.setEntryOf_har (l : Nat) (e : MapEntry) : (s.setEntryOf l e).har = s.har := rfl
@[simp] theorem State.setEntryOf_mpt (l : Nat) (e : MapEntry) : (s.setEntryOf l e).mpt = s.mpt := rfl
@[simp] theorem State.setEntryOf_evu (l : Nat) (e : MapEntry) : (s.setEntryOf l e).evu = s.evu := rfl
@[simp] theorem State.setEntryOf_residue (l : Nat) (e : MapEntry) : (s.setEntryOf l e).residue = s.residue := rfl

/-! ### updBand -/
@[simp] theorem State.updBand_pending (b : Nat) (f : Band → Band) : (s.updBand b f).pending = s.pending := rfl
@[simp] theorem State.updBand_ctl (b : Nat) (f : Band → Band) : (s.updBand b f).ctl = s.ctl := rfl
@[simp] theorem State.updBand_flu (b : Nat) (f : Band → Band) : (s.updBand b f).flu = s.flu := rfl
@[simp] theorem State.updBand_rqu (b : Nat) (f : Band → Band) : (s.updBand b f).rqu = s.rqu := rfl
@[simp] theorem State.updBand_gmu (b : Nat) (f : Band → Band) : (s.updBand b f).gmu = s.gmu := rfl
@[simp] theorem State.updBand_btu (b : Nat) (f : Band → Band) :
    (s.updBand b f).btu = { s.btu with bands := s.btu.bands.modify b f } := rfl
@[simp] theorem State.updBand_swr (b : Nat) (f : Band → Band) : (s.updBand b f).swr = s.swr := rfl
@[simp] theorem State.updBand_slu (b : Nat) (f : Band → Band) : (s.updBand b f).slu = s.slu := rfl
@[simp] theorem State.updBand_cle (b : Nat) (f : Band → Band) : (s.updBand b f).cle = s.cle := rfl
@[simp] theorem State.updBand_qen (b : Nat) (f : Band → Band) : (s.updBand b f).qen = s.qen := rfl
@[simp] theorem State.updBand_har (b : Nat) (f : Band → Band) : (s.updBand b f).har = s.har := rfl
@[simp] theorem State.updBand_mpt (b : Nat) (f : Band → Band) : (s.updBand b f).mpt = s.mpt := rfl
@[simp] theorem State.updBand_evu (b : Nat) (f : Band → Band) : (s.updBand b f).evu = s.evu := rfl
@[simp] theorem State.updBand_residue (b : Nat) (f : Band → Band) : (s.updBand b f).residue = s.residue := rfl

/-! ### setStream -/
@[simp] theorem State.setStream_pending (n : Fin 9) (x : Stream) : (s.setStream n x).pending = s.pending := rfl
@[simp] theorem State.setStream_ctl (n : Fin 9) (x : Stream) : (s.setStream n x).ctl = s.ctl := rfl
@[simp] theorem State.setStream_flu (n : Fin 9) (x : Stream) : (s.setStream n x).flu = s.flu := rfl
@[simp] theorem State.setStream_rqu (n : Fin 9) (x : Stream) : (s.setStream n x).rqu = s.rqu := rfl
@[simp] theorem State.setStream_gmu (n : Fin 9) (x : Stream) : (s.setStream n x).gmu = s.gmu := rfl
@[simp] theorem State.setStream_btu (n : Fin 9) (x : Stream) : (s.setStream n x).btu = s.btu := rfl
@[simp] theorem State.setStream_swr (n : Fin 9) (x : Stream) :
    (s.setStream n x).swr = { s.swr with streams := s.swr.streams.set n.val x } := rfl
@[simp] theorem State.setStream_slu (n : Fin 9) (x : Stream) : (s.setStream n x).slu = s.slu := rfl
@[simp] theorem State.setStream_cle (n : Fin 9) (x : Stream) : (s.setStream n x).cle = s.cle := rfl
@[simp] theorem State.setStream_qen (n : Fin 9) (x : Stream) : (s.setStream n x).qen = s.qen := rfl
@[simp] theorem State.setStream_har (n : Fin 9) (x : Stream) : (s.setStream n x).har = s.har := rfl
@[simp] theorem State.setStream_mpt (n : Fin 9) (x : Stream) : (s.setStream n x).mpt = s.mpt := rfl
@[simp] theorem State.setStream_evu (n : Fin 9) (x : Stream) : (s.setStream n x).evu = s.evu := rfl
@[simp] theorem State.setStream_residue (n : Fin 9) (x : Stream) : (s.setStream n x).residue = s.residue := rfl

/-! ### updStream -/
@[simp] theorem State.updStream_pending (n : Fin 9) (f : Stream → Stream) : (s.updStream n f).pending = s.pending := rfl
@[simp] theorem State.updStream_ctl (n : Fin 9) (f : Stream → Stream) : (s.updStream n f).ctl = s.ctl := rfl
@[simp] theorem State.updStream_flu (n : Fin 9) (f : Stream → Stream) : (s.updStream n f).flu = s.flu := rfl
@[simp] theorem State.updStream_rqu (n : Fin 9) (f : Stream → Stream) : (s.updStream n f).rqu = s.rqu := rfl
@[simp] theorem State.updStream_gmu (n : Fin 9) (f : Stream → Stream) : (s.updStream n f).gmu = s.gmu := rfl
@[simp] theorem State.updStream_btu (n : Fin 9) (f : Stream → Stream) : (s.updStream n f).btu = s.btu := rfl
@[simp] theorem State.updStream_swr (n : Fin 9) (f : Stream → Stream) :
    (s.updStream n f).swr = { s.swr with streams := s.swr.streams.set n.val (f (s.stream n)) } := rfl
@[simp] theorem State.updStream_slu (n : Fin 9) (f : Stream → Stream) : (s.updStream n f).slu = s.slu := rfl
@[simp] theorem State.updStream_cle (n : Fin 9) (f : Stream → Stream) : (s.updStream n f).cle = s.cle := rfl
@[simp] theorem State.updStream_qen (n : Fin 9) (f : Stream → Stream) : (s.updStream n f).qen = s.qen := rfl
@[simp] theorem State.updStream_har (n : Fin 9) (f : Stream → Stream) : (s.updStream n f).har = s.har := rfl
@[simp] theorem State.updStream_mpt (n : Fin 9) (f : Stream → Stream) : (s.updStream n f).mpt = s.mpt := rfl
@[simp] theorem State.updStream_evu (n : Fin 9) (f : Stream → Stream) : (s.updStream n f).evu = s.evu := rfl
@[simp] theorem State.updStream_residue (n : Fin 9) (f : Stream → Stream) : (s.updStream n f).residue = s.residue := rfl

/-! ### updRecord -/
@[simp] theorem State.updRecord_pending (p : Nat) (f : Record → Record) : (s.updRecord p f).pending = s.pending := rfl
@[simp] theorem State.updRecord_ctl (p : Nat) (f : Record → Record) : (s.updRecord p f).ctl = s.ctl := rfl
@[simp] theorem State.updRecord_flu (p : Nat) (f : Record → Record) : (s.updRecord p f).flu = s.flu := rfl
@[simp] theorem State.updRecord_rqu (p : Nat) (f : Record → Record) : (s.updRecord p f).rqu = s.rqu := rfl
@[simp] theorem State.updRecord_gmu (p : Nat) (f : Record → Record) : (s.updRecord p f).gmu = s.gmu := rfl
@[simp] theorem State.updRecord_btu (p : Nat) (f : Record → Record) : (s.updRecord p f).btu = s.btu := rfl
@[simp] theorem State.updRecord_swr (p : Nat) (f : Record → Record) : (s.updRecord p f).swr = s.swr := rfl
@[simp] theorem State.updRecord_slu (p : Nat) (f : Record → Record) :
    (s.updRecord p f).slu = { s.slu with dir := s.slu.dir.map fun r => if r.pos = p then f r else r } := rfl
@[simp] theorem State.updRecord_cle (p : Nat) (f : Record → Record) : (s.updRecord p f).cle = s.cle := rfl
@[simp] theorem State.updRecord_qen (p : Nat) (f : Record → Record) : (s.updRecord p f).qen = s.qen := rfl
@[simp] theorem State.updRecord_har (p : Nat) (f : Record → Record) : (s.updRecord p f).har = s.har := rfl
@[simp] theorem State.updRecord_mpt (p : Nat) (f : Record → Record) : (s.updRecord p f).mpt = s.mpt := rfl
@[simp] theorem State.updRecord_evu (p : Nat) (f : Record → Record) : (s.updRecord p f).evu = s.evu := rfl
@[simp] theorem State.updRecord_residue (p : Nat) (f : Record → Record) : (s.updRecord p f).residue = s.residue := rfl

/-! ### takeBuffer -/
@[simp] theorem State.takeBuffer_pending : (s.takeBuffer).pending = s.pending := rfl
@[simp] theorem State.takeBuffer_ctl : (s.takeBuffer).ctl = s.ctl := rfl
@[simp] theorem State.takeBuffer_flu : (s.takeBuffer).flu = s.flu := rfl
@[simp] theorem State.takeBuffer_rqu : (s.takeBuffer).rqu = s.rqu := rfl
@[simp] theorem State.takeBuffer_gmu : (s.takeBuffer).gmu = s.gmu := rfl
@[simp] theorem State.takeBuffer_btu : (s.takeBuffer).btu = s.btu := rfl
@[simp] theorem State.takeBuffer_swr : (s.takeBuffer).swr = s.swr := rfl
@[simp] theorem State.takeBuffer_slu : (s.takeBuffer).slu = s.slu := rfl
@[simp] theorem State.takeBuffer_cle : (s.takeBuffer).cle = s.cle := rfl
@[simp] theorem State.takeBuffer_qen : (s.takeBuffer).qen = s.qen := rfl
@[simp] theorem State.takeBuffer_har : (s.takeBuffer).har = s.har := rfl
@[simp] theorem State.takeBuffer_mpt : (s.takeBuffer).mpt = s.mpt := rfl
@[simp] theorem State.takeBuffer_evu : (s.takeBuffer).evu = s.evu := rfl
@[simp] theorem State.takeBuffer_residue : (s.takeBuffer).residue = s.residue + 1 := rfl

/-! ### setStage -/
@[simp] theorem State.setStage_pending (g : CleanStage) : (s.setStage g).pending = s.pending := rfl
@[simp] theorem State.setStage_ctl (g : CleanStage) : (s.setStage g).ctl = s.ctl := rfl
@[simp] theorem State.setStage_flu (g : CleanStage) : (s.setStage g).flu = s.flu := rfl
@[simp] theorem State.setStage_rqu (g : CleanStage) : (s.setStage g).rqu = s.rqu := rfl
@[simp] theorem State.setStage_gmu (g : CleanStage) : (s.setStage g).gmu = s.gmu := rfl
@[simp] theorem State.setStage_btu (g : CleanStage) : (s.setStage g).btu = s.btu := rfl
@[simp] theorem State.setStage_swr (g : CleanStage) : (s.setStage g).swr = s.swr := rfl
@[simp] theorem State.setStage_slu (g : CleanStage) : (s.setStage g).slu = s.slu := rfl
@[simp] theorem State.setStage_cle (g : CleanStage) : (s.setStage g).cle = { s.cle with stage := g } := rfl
@[simp] theorem State.setStage_qen (g : CleanStage) : (s.setStage g).qen = s.qen := rfl
@[simp] theorem State.setStage_har (g : CleanStage) : (s.setStage g).har = s.har := rfl
@[simp] theorem State.setStage_mpt (g : CleanStage) : (s.setStage g).mpt = s.mpt := rfl
@[simp] theorem State.setStage_evu (g : CleanStage) : (s.setStage g).evu = s.evu := rfl
@[simp] theorem State.setStage_residue (g : CleanStage) : (s.setStage g).residue = s.residue := rfl

/-! ### setVictim -/
@[simp] theorem State.setVictim_pending (v : Victim) : (s.setVictim v).pending = s.pending := rfl
@[simp] theorem State.setVictim_ctl (v : Victim) : (s.setVictim v).ctl = s.ctl := rfl
@[simp] theorem State.setVictim_flu (v : Victim) : (s.setVictim v).flu = s.flu := rfl
@[simp] theorem State.setVictim_rqu (v : Victim) : (s.setVictim v).rqu = s.rqu := rfl
@[simp] theorem State.setVictim_gmu (v : Victim) : (s.setVictim v).gmu = s.gmu := rfl
@[simp] theorem State.setVictim_btu (v : Victim) : (s.setVictim v).btu = s.btu := rfl
@[simp] theorem State.setVictim_swr (v : Victim) : (s.setVictim v).swr = s.swr := rfl
@[simp] theorem State.setVictim_slu (v : Victim) : (s.setVictim v).slu = s.slu := rfl
@[simp] theorem State.setVictim_cle (v : Victim) : (s.setVictim v).cle = { s.cle with victim := some v } := rfl
@[simp] theorem State.setVictim_qen (v : Victim) : (s.setVictim v).qen = s.qen := rfl
@[simp] theorem State.setVictim_har (v : Victim) : (s.setVictim v).har = s.har := rfl
@[simp] theorem State.setVictim_mpt (v : Victim) : (s.setVictim v).mpt = s.mpt := rfl
@[simp] theorem State.setVictim_evu (v : Victim) : (s.setVictim v).evu = s.evu := rfl
@[simp] theorem State.setVictim_residue (v : Victim) : (s.setVictim v).residue = s.residue := rfl

/-! ### setPacer -/
@[simp] theorem State.setPacer_pending (p : Pacer) : (s.setPacer p).pending = s.pending := rfl
@[simp] theorem State.setPacer_ctl (p : Pacer) : (s.setPacer p).ctl = s.ctl := rfl
@[simp] theorem State.setPacer_flu (p : Pacer) : (s.setPacer p).flu = s.flu := rfl
@[simp] theorem State.setPacer_rqu (p : Pacer) : (s.setPacer p).rqu = s.rqu := rfl
@[simp] theorem State.setPacer_gmu (p : Pacer) : (s.setPacer p).gmu = s.gmu := rfl
@[simp] theorem State.setPacer_btu (p : Pacer) : (s.setPacer p).btu = s.btu := rfl
@[simp] theorem State.setPacer_swr (p : Pacer) : (s.setPacer p).swr = s.swr := rfl
@[simp] theorem State.setPacer_slu (p : Pacer) : (s.setPacer p).slu = s.slu := rfl
@[simp] theorem State.setPacer_cle (p : Pacer) : (s.setPacer p).cle = { s.cle with pacer := p } := rfl
@[simp] theorem State.setPacer_qen (p : Pacer) : (s.setPacer p).qen = s.qen := rfl
@[simp] theorem State.setPacer_har (p : Pacer) : (s.setPacer p).har = s.har := rfl
@[simp] theorem State.setPacer_mpt (p : Pacer) : (s.setPacer p).mpt = s.mpt := rfl
@[simp] theorem State.setPacer_evu (p : Pacer) : (s.setPacer p).evu = s.evu := rfl
@[simp] theorem State.setPacer_residue (p : Pacer) : (s.setPacer p).residue = s.residue := rfl

/-! ### setQual -/
@[simp] theorem State.setQual_pending (q : Qual) : (s.setQual q).pending = s.pending := rfl
@[simp] theorem State.setQual_ctl (q : Qual) : (s.setQual q).ctl = s.ctl := rfl
@[simp] theorem State.setQual_flu (q : Qual) : (s.setQual q).flu = s.flu := rfl
@[simp] theorem State.setQual_rqu (q : Qual) : (s.setQual q).rqu = s.rqu := rfl
@[simp] theorem State.setQual_gmu (q : Qual) : (s.setQual q).gmu = s.gmu := rfl
@[simp] theorem State.setQual_btu (q : Qual) : (s.setQual q).btu = s.btu := rfl
@[simp] theorem State.setQual_swr (q : Qual) : (s.setQual q).swr = s.swr := rfl
@[simp] theorem State.setQual_slu (q : Qual) : (s.setQual q).slu = s.slu := rfl
@[simp] theorem State.setQual_cle (q : Qual) : (s.setQual q).cle = s.cle := rfl
@[simp] theorem State.setQual_qen (q : Qual) : (s.setQual q).qen = { s.qen with qual := some q } := rfl
@[simp] theorem State.setQual_har (q : Qual) : (s.setQual q).har = s.har := rfl
@[simp] theorem State.setQual_mpt (q : Qual) : (s.setQual q).mpt = s.mpt := rfl
@[simp] theorem State.setQual_evu (q : Qual) : (s.setQual q).evu = s.evu := rfl
@[simp] theorem State.setQual_residue (q : Qual) : (s.setQual q).residue = s.residue := rfl

/-! ### spendIds -/
@[simp] theorem State.spendIds_pending (n : Nat) : (s.spendIds n).pending = s.pending := rfl
@[simp] theorem State.spendIds_ctl (n : Nat) : (s.spendIds n).ctl = s.ctl := rfl
@[simp] theorem State.spendIds_flu (n : Nat) : (s.spendIds n).flu = s.flu := rfl
@[simp] theorem State.spendIds_rqu (n : Nat) : (s.spendIds n).rqu = s.rqu := rfl
@[simp] theorem State.spendIds_gmu (n : Nat) : (s.spendIds n).gmu = s.gmu := rfl
@[simp] theorem State.spendIds_btu (n : Nat) : (s.spendIds n).btu = s.btu := rfl
@[simp] theorem State.spendIds_swr (n : Nat) : (s.spendIds n).swr = s.swr := rfl
@[simp] theorem State.spendIds_slu (n : Nat) : (s.spendIds n).slu = s.slu := rfl
@[simp] theorem State.spendIds_cle (n : Nat) : (s.spendIds n).cle = s.cle := rfl
@[simp] theorem State.spendIds_qen (n : Nat) : (s.spendIds n).qen = s.qen := rfl
@[simp] theorem State.spendIds_har (n : Nat) :
    (s.spendIds n).har = { s.har with nextId := Nat.repeat nextOpId n s.har.nextId } := rfl
@[simp] theorem State.spendIds_mpt (n : Nat) : (s.spendIds n).mpt = s.mpt := rfl
@[simp] theorem State.spendIds_evu (n : Nat) : (s.spendIds n).evu = s.evu := rfl
@[simp] theorem State.spendIds_residue (n : Nat) : (s.spendIds n).residue = s.residue := rfl

/-! ### requeueHead -/
@[simp] theorem State.requeueHead_pending (o : MediaOp) : (s.requeueHead o).pending = s.pending := rfl
@[simp] theorem State.requeueHead_ctl (o : MediaOp) : (s.requeueHead o).ctl = s.ctl := rfl
@[simp] theorem State.requeueHead_flu (o : MediaOp) : (s.requeueHead o).flu = s.flu := rfl
@[simp] theorem State.requeueHead_rqu (o : MediaOp) : (s.requeueHead o).rqu = s.rqu := rfl
@[simp] theorem State.requeueHead_gmu (o : MediaOp) : (s.requeueHead o).gmu = s.gmu := rfl
@[simp] theorem State.requeueHead_btu (o : MediaOp) : (s.requeueHead o).btu = s.btu := rfl
@[simp] theorem State.requeueHead_swr (o : MediaOp) : (s.requeueHead o).swr = s.swr := rfl
@[simp] theorem State.requeueHead_slu (o : MediaOp) : (s.requeueHead o).slu = s.slu := rfl
@[simp] theorem State.requeueHead_cle (o : MediaOp) : (s.requeueHead o).cle = s.cle := rfl
@[simp] theorem State.requeueHead_qen (o : MediaOp) : (s.requeueHead o).qen = s.qen := rfl
@[simp] theorem State.requeueHead_har (o : MediaOp) :
    (s.requeueHead o).har = s.har.setQueue o.cls (o :: s.har.queue o.cls) := rfl
@[simp] theorem State.requeueHead_mpt (o : MediaOp) : (s.requeueHead o).mpt = s.mpt := rfl
@[simp] theorem State.requeueHead_evu (o : MediaOp) : (s.requeueHead o).evu = s.evu := rfl
@[simp] theorem State.requeueHead_residue (o : MediaOp) : (s.requeueHead o).residue = s.residue := rfl

/-! ### sendOrder -/
@[simp] theorem State.sendOrder_pending (o : MediaOrder) : (s.sendOrder o).pending = s.pending := rfl
@[simp] theorem State.sendOrder_ctl (o : MediaOrder) : (s.sendOrder o).ctl = s.ctl := rfl
@[simp] theorem State.sendOrder_flu (o : MediaOrder) : (s.sendOrder o).flu = s.flu := rfl
@[simp] theorem State.sendOrder_rqu (o : MediaOrder) : (s.sendOrder o).rqu = s.rqu := rfl
@[simp] theorem State.sendOrder_gmu (o : MediaOrder) : (s.sendOrder o).gmu = s.gmu := rfl
@[simp] theorem State.sendOrder_btu (o : MediaOrder) : (s.sendOrder o).btu = s.btu := rfl
@[simp] theorem State.sendOrder_swr (o : MediaOrder) : (s.sendOrder o).swr = s.swr := rfl
@[simp] theorem State.sendOrder_slu (o : MediaOrder) : (s.sendOrder o).slu = s.slu := rfl
@[simp] theorem State.sendOrder_cle (o : MediaOrder) : (s.sendOrder o).cle = s.cle := rfl
@[simp] theorem State.sendOrder_qen (o : MediaOrder) : (s.sendOrder o).qen = s.qen := rfl
@[simp] theorem State.sendOrder_har (o : MediaOrder) : (s.sendOrder o).har = s.har := rfl
@[simp] theorem State.sendOrder_mpt (o : MediaOrder) :
    (s.sendOrder o).mpt = { s.mpt with wire := s.mpt.wire ++ [o.bytes], orderNo := nextOrderNo s.mpt.orderNo } := rfl
@[simp] theorem State.sendOrder_evu (o : MediaOrder) : (s.sendOrder o).evu = s.evu := rfl
@[simp] theorem State.sendOrder_residue (o : MediaOrder) : (s.sendOrder o).residue = s.residue := rfl

/-! ### setOp -/
@[simp] theorem State.setOp_pending (o : MediaOp) : (s.setOp o).pending = s.pending := rfl
@[simp] theorem State.setOp_ctl (o : MediaOp) : (s.setOp o).ctl = s.ctl := rfl
@[simp] theorem State.setOp_flu (o : MediaOp) : (s.setOp o).flu = s.flu := rfl
@[simp] theorem State.setOp_rqu (o : MediaOp) : (s.setOp o).rqu = s.rqu := rfl
@[simp] theorem State.setOp_gmu (o : MediaOp) : (s.setOp o).gmu = s.gmu := rfl
@[simp] theorem State.setOp_btu (o : MediaOp) : (s.setOp o).btu = s.btu := rfl
@[simp] theorem State.setOp_swr (o : MediaOp) : (s.setOp o).swr = s.swr := rfl
@[simp] theorem State.setOp_slu (o : MediaOp) : (s.setOp o).slu = s.slu := rfl
@[simp] theorem State.setOp_cle (o : MediaOp) : (s.setOp o).cle = s.cle := rfl
@[simp] theorem State.setOp_qen (o : MediaOp) : (s.setOp o).qen = s.qen := rfl
@[simp] theorem State.setOp_har (o : MediaOp) : (s.setOp o).har = s.har := rfl
@[simp] theorem State.setOp_mpt (o : MediaOp) : (s.setOp o).mpt = { s.mpt with op := some o } := rfl
@[simp] theorem State.setOp_evu (o : MediaOp) : (s.setOp o).evu = s.evu := rfl
@[simp] theorem State.setOp_residue (o : MediaOp) : (s.setOp o).residue = s.residue := rfl

/-! ### portIdle -/
@[simp] theorem State.portIdle_pending : (s.portIdle).pending = s.pending := rfl
@[simp] theorem State.portIdle_ctl : (s.portIdle).ctl = s.ctl := rfl
@[simp] theorem State.portIdle_flu : (s.portIdle).flu = s.flu := rfl
@[simp] theorem State.portIdle_rqu : (s.portIdle).rqu = s.rqu := rfl
@[simp] theorem State.portIdle_gmu : (s.portIdle).gmu = s.gmu := rfl
@[simp] theorem State.portIdle_btu : (s.portIdle).btu = s.btu := rfl
@[simp] theorem State.portIdle_swr : (s.portIdle).swr = s.swr := rfl
@[simp] theorem State.portIdle_slu : (s.portIdle).slu = s.slu := rfl
@[simp] theorem State.portIdle_cle : (s.portIdle).cle = s.cle := rfl
@[simp] theorem State.portIdle_qen : (s.portIdle).qen = s.qen := rfl
@[simp] theorem State.portIdle_har : (s.portIdle).har = s.har := rfl
@[simp] theorem State.portIdle_mpt : (s.portIdle).mpt = { s.mpt with stage := .idle, op := none } := rfl
@[simp] theorem State.portIdle_evu : (s.portIdle).evu = s.evu := rfl
@[simp] theorem State.portIdle_residue : (s.portIdle).residue = s.residue := rfl

/-! ### countFailure -/
@[simp] theorem State.countFailure_pending (c : Cause) : (s.countFailure c).pending = s.pending := rfl
@[simp] theorem State.countFailure_ctl (c : Cause) : (s.countFailure c).ctl = s.ctl := rfl
@[simp] theorem State.countFailure_flu (c : Cause) : (s.countFailure c).flu = s.flu := rfl
@[simp] theorem State.countFailure_rqu (c : Cause) : (s.countFailure c).rqu = s.rqu := rfl
@[simp] theorem State.countFailure_gmu (c : Cause) : (s.countFailure c).gmu = s.gmu := rfl
@[simp] theorem State.countFailure_btu (c : Cause) : (s.countFailure c).btu = s.btu := rfl
@[simp] theorem State.countFailure_swr (c : Cause) : (s.countFailure c).swr = s.swr := rfl
@[simp] theorem State.countFailure_slu (c : Cause) : (s.countFailure c).slu = s.slu := rfl
@[simp] theorem State.countFailure_cle (c : Cause) : (s.countFailure c).cle = s.cle := rfl
@[simp] theorem State.countFailure_qen (c : Cause) : (s.countFailure c).qen = s.qen := rfl
@[simp] theorem State.countFailure_har (c : Cause) : (s.countFailure c).har = s.har := rfl
@[simp] theorem State.countFailure_mpt (c : Cause) :
    (s.countFailure c).mpt = { s.mpt with failures := min (s.mpt.failures + 1) 3, causes := s.mpt.causes ||| c.bit } := rfl
@[simp] theorem State.countFailure_evu (c : Cause) : (s.countFailure c).evu = s.evu := rfl
@[simp] theorem State.countFailure_residue (c : Cause) : (s.countFailure c).residue = s.residue := rfl

/-! ### countSuccess -/
@[simp] theorem State.countSuccess_pending : (s.countSuccess).pending = s.pending := rfl
@[simp] theorem State.countSuccess_ctl : (s.countSuccess).ctl = s.ctl := rfl
@[simp] theorem State.countSuccess_flu : (s.countSuccess).flu = s.flu := rfl
@[simp] theorem State.countSuccess_rqu : (s.countSuccess).rqu = s.rqu := rfl
@[simp] theorem State.countSuccess_gmu : (s.countSuccess).gmu = s.gmu := rfl
@[simp] theorem State.countSuccess_btu : (s.countSuccess).btu = s.btu := rfl
@[simp] theorem State.countSuccess_swr : (s.countSuccess).swr = s.swr := rfl
@[simp] theorem State.countSuccess_slu : (s.countSuccess).slu = s.slu := rfl
@[simp] theorem State.countSuccess_cle : (s.countSuccess).cle = s.cle := rfl
@[simp] theorem State.countSuccess_qen : (s.countSuccess).qen = s.qen := rfl
@[simp] theorem State.countSuccess_har : (s.countSuccess).har = s.har := rfl
@[simp] theorem State.countSuccess_mpt : (s.countSuccess).mpt = { s.mpt with failures := 0, causes := 0 } := rfl
@[simp] theorem State.countSuccess_evu : (s.countSuccess).evu = s.evu := rfl
@[simp] theorem State.countSuccess_residue : (s.countSuccess).residue = s.residue := rfl

/-! ### claim -/
@[simp] theorem State.claim_pending (o : MediaOp) : (s.claim o).pending = s.pending := rfl
@[simp] theorem State.claim_ctl (o : MediaOp) : (s.claim o).ctl = s.ctl := rfl
@[simp] theorem State.claim_flu (o : MediaOp) : (s.claim o).flu = s.flu := rfl
@[simp] theorem State.claim_rqu (o : MediaOp) : (s.claim o).rqu = s.rqu := rfl
@[simp] theorem State.claim_gmu (o : MediaOp) : (s.claim o).gmu = s.gmu := rfl
@[simp] theorem State.claim_btu (o : MediaOp) : (s.claim o).btu = s.btu := rfl
@[simp] theorem State.claim_swr (o : MediaOp) : (s.claim o).swr = s.swr := rfl
@[simp] theorem State.claim_slu (o : MediaOp) : (s.claim o).slu = s.slu := rfl
@[simp] theorem State.claim_cle (o : MediaOp) : (s.claim o).cle = s.cle := rfl
@[simp] theorem State.claim_qen (o : MediaOp) : (s.claim o).qen = s.qen := rfl
@[simp] theorem State.claim_har (o : MediaOp) : (s.claim o).har = s.har := rfl
@[simp] theorem State.claim_mpt (o : MediaOp) :
    (s.claim o).mpt = { s.mpt with stage := .running, op := some { o with defers := 0 } } := rfl
@[simp] theorem State.claim_evu (o : MediaOp) : (s.claim o).evu = s.evu := rfl
@[simp] theorem State.claim_residue (o : MediaOp) : (s.claim o).residue = s.residue := rfl

/-! ### setEnables -/
@[simp] theorem State.setEnables_pending (e : BitVec 13) : (s.setEnables e).pending = s.pending := rfl
@[simp] theorem State.setEnables_ctl (e : BitVec 13) : (s.setEnables e).ctl = s.ctl := rfl
@[simp] theorem State.setEnables_flu (e : BitVec 13) : (s.setEnables e).flu = s.flu := rfl
@[simp] theorem State.setEnables_rqu (e : BitVec 13) : (s.setEnables e).rqu = s.rqu := rfl
@[simp] theorem State.setEnables_gmu (e : BitVec 13) : (s.setEnables e).gmu = s.gmu := rfl
@[simp] theorem State.setEnables_btu (e : BitVec 13) : (s.setEnables e).btu = s.btu := rfl
@[simp] theorem State.setEnables_swr (e : BitVec 13) : (s.setEnables e).swr = s.swr := rfl
@[simp] theorem State.setEnables_slu (e : BitVec 13) : (s.setEnables e).slu = s.slu := rfl
@[simp] theorem State.setEnables_cle (e : BitVec 13) : (s.setEnables e).cle = s.cle := rfl
@[simp] theorem State.setEnables_qen (e : BitVec 13) : (s.setEnables e).qen = s.qen := rfl
@[simp] theorem State.setEnables_har (e : BitVec 13) : (s.setEnables e).har = s.har := rfl
@[simp] theorem State.setEnables_mpt (e : BitVec 13) : (s.setEnables e).mpt = s.mpt := rfl
@[simp] theorem State.setEnables_evu (e : BitVec 13) : (s.setEnables e).evu = { s.evu with enables := e } := rfl
@[simp] theorem State.setEnables_residue (e : BitVec 13) : (s.setEnables e).residue = s.residue := rfl

/-! ### setMode -/
@[simp] theorem State.setMode_pending (m : Mode) : (s.setMode m).pending = s.pending := rfl
@[simp] theorem State.setMode_ctl (m : Mode) : (s.setMode m).ctl = { s.ctl with mode := m } := rfl
@[simp] theorem State.setMode_flu (m : Mode) : (s.setMode m).flu = s.flu := rfl
@[simp] theorem State.setMode_rqu (m : Mode) : (s.setMode m).rqu = s.rqu := rfl
@[simp] theorem State.setMode_gmu (m : Mode) : (s.setMode m).gmu = s.gmu := rfl
@[simp] theorem State.setMode_btu (m : Mode) : (s.setMode m).btu = s.btu := rfl
@[simp] theorem State.setMode_swr (m : Mode) : (s.setMode m).swr = s.swr := rfl
@[simp] theorem State.setMode_slu (m : Mode) : (s.setMode m).slu = s.slu := rfl
@[simp] theorem State.setMode_cle (m : Mode) : (s.setMode m).cle = s.cle := rfl
@[simp] theorem State.setMode_qen (m : Mode) : (s.setMode m).qen = s.qen := rfl
@[simp] theorem State.setMode_har (m : Mode) : (s.setMode m).har = s.har := rfl
@[simp] theorem State.setMode_mpt (m : Mode) : (s.setMode m).mpt = s.mpt := rfl
@[simp] theorem State.setMode_evu (m : Mode) : (s.setMode m).evu = s.evu := rfl
@[simp] theorem State.setMode_residue (m : Mode) : (s.setMode m).residue = s.residue := rfl

/-! ### setLoad -/
@[simp] theorem State.setLoad_pending (l : Option ImageLoad) : (s.setLoad l).pending = s.pending := rfl
@[simp] theorem State.setLoad_ctl (l : Option ImageLoad) : (s.setLoad l).ctl = { s.ctl with imageLoad := l } := rfl
@[simp] theorem State.setLoad_flu (l : Option ImageLoad) : (s.setLoad l).flu = s.flu := rfl
@[simp] theorem State.setLoad_rqu (l : Option ImageLoad) : (s.setLoad l).rqu = s.rqu := rfl
@[simp] theorem State.setLoad_gmu (l : Option ImageLoad) : (s.setLoad l).gmu = s.gmu := rfl
@[simp] theorem State.setLoad_btu (l : Option ImageLoad) : (s.setLoad l).btu = s.btu := rfl
@[simp] theorem State.setLoad_swr (l : Option ImageLoad) : (s.setLoad l).swr = s.swr := rfl
@[simp] theorem State.setLoad_slu (l : Option ImageLoad) : (s.setLoad l).slu = s.slu := rfl
@[simp] theorem State.setLoad_cle (l : Option ImageLoad) : (s.setLoad l).cle = s.cle := rfl
@[simp] theorem State.setLoad_qen (l : Option ImageLoad) : (s.setLoad l).qen = s.qen := rfl
@[simp] theorem State.setLoad_har (l : Option ImageLoad) : (s.setLoad l).har = s.har := rfl
@[simp] theorem State.setLoad_mpt (l : Option ImageLoad) : (s.setLoad l).mpt = s.mpt := rfl
@[simp] theorem State.setLoad_evu (l : Option ImageLoad) : (s.setLoad l).evu = s.evu := rfl
@[simp] theorem State.setLoad_residue (l : Option ImageLoad) : (s.setLoad l).residue = s.residue := rfl

/-! ### withPending -/
@[simp] theorem State.withPending_pending (is : List Instr) : (s.withPending is).pending = is := rfl
@[simp] theorem State.withPending_ctl (is : List Instr) : (s.withPending is).ctl = s.ctl := rfl
@[simp] theorem State.withPending_flu (is : List Instr) : (s.withPending is).flu = s.flu := rfl
@[simp] theorem State.withPending_rqu (is : List Instr) : (s.withPending is).rqu = s.rqu := rfl
@[simp] theorem State.withPending_gmu (is : List Instr) : (s.withPending is).gmu = s.gmu := rfl
@[simp] theorem State.withPending_btu (is : List Instr) : (s.withPending is).btu = s.btu := rfl
@[simp] theorem State.withPending_swr (is : List Instr) : (s.withPending is).swr = s.swr := rfl
@[simp] theorem State.withPending_slu (is : List Instr) : (s.withPending is).slu = s.slu := rfl
@[simp] theorem State.withPending_cle (is : List Instr) : (s.withPending is).cle = s.cle := rfl
@[simp] theorem State.withPending_qen (is : List Instr) : (s.withPending is).qen = s.qen := rfl
@[simp] theorem State.withPending_har (is : List Instr) : (s.withPending is).har = s.har := rfl
@[simp] theorem State.withPending_mpt (is : List Instr) : (s.withPending is).mpt = s.mpt := rfl
@[simp] theorem State.withPending_evu (is : List Instr) : (s.withPending is).evu = s.evu := rfl
@[simp] theorem State.withPending_residue (is : List Instr) : (s.withPending is).residue = s.residue := rfl

end Sys2Proof.Machine
end

