-- ==== Sys2Proof/Tests/Slice0.lean ====
section
/-!
SUPPORT. Tests/Slice0.lean: the smoke test of WellFormed, frames and records written out from the spec, one or two small
steps per command, and a witness for every obligation that has hypotheses.
-/

namespace Sys2Proof.Tests

set_option Elab.async false

open Sys2Proof Sys2Proof.Machine

/-! ### WellFormed: an ill-formed term for each check -/

/-- Operands past the width of their field, a tag past a byte first (R194 to R196). -/
theorem test_wf_refuses_data_operands :
    (Instr.store 256 0 0 0 0 []).wf = false ∧ (Instr.store 0 4294967296 0 0 0 []).wf = false
    ∧ (Instr.store 0 0 256 0 0 []).wf = false ∧ (Instr.store 0 0 0 256 0 []).wf = false
    ∧ (Instr.store 0 0 0 0 256 []).wf = false ∧ (Instr.store 0 0 0 0 0 (List.replicate 17 [])).wf = false
    ∧ (Instr.store 0 0 0 0 0 [[0]]).wf = false ∧ (Instr.fetch 256 0 0 0).wf = false
    ∧ (Instr.fetch 0 4294967296 0 0).wf = false ∧ (Instr.fetch 0 0 256 0).wf = false ∧ (Instr.fetch 0 0 0 256).wf = false
    ∧ (Instr.discard 256 0 0).wf = false ∧ (Instr.discard 0 4294967296 0).wf = false
    ∧ (Instr.discard 0 0 4294967296).wf = false := by decide +kernel

theorem test_wf_refuses_settings_operands :
    (Instr.fold 256 0).wf = false ∧ (Instr.fold 0 65536).wf = false ∧ (Instr.clean 256 0).wf = false
    ∧ (Instr.clean 0 4294967296).wf = false ∧ (Instr.qualify 256 0 0 0).wf = false
    ∧ (Instr.qualify 0 4294967296 0 0).wf = false ∧ (Instr.qualify 0 0 65536 0).wf = false
    ∧ (Instr.qualify 0 0 0 256).wf = false ∧ (Instr.qualifyStop 256).wf = false ∧ (Instr.streamSet 256 0 0 0).wf = false
    ∧ (Instr.streamSet 0 256 0 0).wf = false ∧ (Instr.streamSet 0 0 256 0).wf = false
    ∧ (Instr.streamSet 0 0 0 256).wf = false ∧ (Instr.pacerSet 256 0 0 0 0).wf = false
    ∧ (Instr.pacerSet 0 256 0 0 0).wf = false ∧ (Instr.pacerSet 0 0 256 0 0).wf = false
    ∧ (Instr.pacerSet 0 0 0 256 0).wf = false ∧ (Instr.pacerSet 0 0 0 0 65536).wf = false
    ∧ (Instr.maskSet 256 0 0 0).wf = false ∧ (Instr.maskSet 0 256 0 0).wf = false ∧ (Instr.maskSet 0 0 65536 0).wf = false
    ∧ (Instr.maskSet 0 0 0 4294967296).wf = false ∧ (Instr.watchSet 256 0 0 0 0).wf = false
    ∧ (Instr.watchSet 0 256 0 0 0).wf = false ∧ (Instr.watchSet 0 0 256 0 0).wf = false
    ∧ (Instr.watchSet 0 0 0 4294967296 0).wf = false ∧ (Instr.watchSet 0 0 0 0 4294967296).wf = false
    ∧ (Instr.watchClear 256 0).wf = false ∧ (Instr.watchClear 0 256).wf = false ∧ (Instr.eventEnable 256 0).wf = false
    ∧ (Instr.eventEnable 0 65536).wf = false ∧ (Instr.eventAck 256 0).wf = false ∧ (Instr.eventAck 0 65536).wf = false := by
  decide +kernel

theorem test_wf_refuses_inspect_operands :
    (Instr.inspectZone 256 0).wf = false ∧ (Instr.inspectZone 0 4294967296).wf = false
    ∧ (Instr.inspectBand 256 0).wf = false ∧ (Instr.inspectBand 0 4294967296).wf = false
    ∧ (Instr.inspectGranule 256 0).wf = false ∧ (Instr.inspectGranule 0 4294967296).wf = false
    ∧ (Instr.inspectStream 256 0).wf = false ∧ (Instr.inspectStream 0 4294967296).wf = false
    ∧ (Instr.inspectPool 256).wf = false ∧ (Instr.inspectLog 256).wf = false ∧ (Instr.inspectCleaner 256).wf = false
    ∧ (Instr.inspectQualification 256).wf = false ∧ (Instr.inspectPort 256).wf = false
    ∧ (Instr.inspectLink 256).wf = false ∧ (Instr.inspectEvent 256).wf = false
    ∧ (Instr.inspectController 256 12).wf = false ∧ (Instr.inspectController 0 256).wf = false
    ∧ (Instr.inspectController 0 1).wf = false ∧ (Instr.inspectController 0 11).wf = false := by decide +kernel

theorem test_wf_refuses_controller_operands :
    (Instr.format 256 0 0 ⟨0, 0, 0⟩ [] []).wf = false ∧ (Instr.format 0 4294967296 0 ⟨0, 0, 0⟩ [] []).wf = false
    ∧ (Instr.format 0 0 256 ⟨0, 0, 0⟩ [] []).wf = false ∧ (Instr.format 0 0 0 ⟨4294967296, 0, 0⟩ [] []).wf = false
    ∧ (Instr.format 0 0 0 ⟨0, 65536, 0⟩ [] []).wf = false ∧ (Instr.format 0 0 0 ⟨0, 0, 65536⟩ [] []).wf = false
    ∧ (Instr.format 0 0 0 ⟨0, 0, 0⟩ [⟨4294967296, 0, 0, 0, 0, 0⟩] []).wf = false
    ∧ (Instr.format 0 0 0 ⟨0, 0, 0⟩ [⟨0, 4294967296, 0, 0, 0, 0⟩] []).wf = false
    ∧ (Instr.format 0 0 0 ⟨0, 0, 0⟩ [⟨0, 0, 65536, 0, 0, 0⟩] []).wf = false
    ∧ (Instr.format 0 0 0 ⟨0, 0, 0⟩ [⟨0, 0, 0, 65536, 0, 0⟩] []).wf = false
    ∧ (Instr.format 0 0 0 ⟨0, 0, 0⟩ [⟨0, 0, 0, 0, 256, 0⟩] []).wf = false
    ∧ (Instr.format 0 0 0 ⟨0, 0, 0⟩ [⟨0, 0, 0, 0, 0, 256⟩] []).wf = false
    ∧ (Instr.format 0 0 0 ⟨0, 0, 0⟩ [] [4294967296]).wf = false
    ∧ (Instr.format 0 0 0 ⟨0, 0, 0⟩ (List.replicate 256 ⟨0, 0, 0, 0, 0, 0⟩) []).wf = false := by decide +kernel

theorem test_wf_refuses_other_operands :
    (Instr.quiesce 256).wf = false ∧ (Instr.resume 256).wf = false ∧ (Instr.imageRead 256 0).wf = false
    ∧ (Instr.imageRead 0 4294967296).wf = false ∧ (Instr.imageWrite 256 0 []).wf = false
    ∧ (Instr.imageWrite 0 0 [0]).wf = false ∧ (Instr.imageCommit 256).wf = false ∧ (Instr.mediaRestart 256).wf = false
    ∧ (Instr.reset 256).wf = false ∧ (Instr.badRequest 256 0).wf = false ∧ (Instr.badRequest 0 256).wf = false
    ∧ (Instr.accepted 65536).wf = false ∧ (Instr.defer 65536).wf = false ∧ (Instr.finished 65536 0 0 0).wf = false
    ∧ (Instr.finished 0 256 0 0).wf = false ∧ (Instr.finished 0 0 65536 0).wf = false
    ∧ (Instr.finished 0 0 0 65536).wf = false ∧ (Instr.data 65536 0 []).wf = false ∧ (Instr.data 0 65536 []).wf = false
    ∧ (Instr.data 0 0 [0]).wf = false := by decide +kernel

/-- A well-formed term of the same shapes passes. -/
theorem test_wf_accepts : (Instr.store 255 4294967295 255 255 255 []).wf = true ∧ (Instr.qualify 0 0 65535 255).wf = true
    ∧ (Instr.inspectController 0 12).wf = true ∧ (Instr.finished 65535 255 65535 65535).wf = true := by decide +kernel

/-! ### Frames and records, written out byte by byte from R194 to R196, R199, R204; the checks are a CRC-32 computed apart from
the model -/

/-- R162: the check of "123456789". -/
theorem test_crc_check_value : crc32 ([0x31, 0x32, 0x33, 0x34, 0x35, 0x36, 0x37, 0x38, 0x39] : List Byte) = 0xCBF43926#32 := by
  decide +kernel

/-- R163, R164, R194 to R199: a STORE with no sector. -/
theorem test_decode_store_without_payload : decodeFrame
    [0xA5, 0x3C, 0x01, 0x01, 0x07, 0x00, 0x08, 0x00, 0x00, 0x00, 0x04, 0x03, 0x02, 0x01, 0x05, 0x02, 0x03, 0x00,
    0x51, 0x36, 0x94, 0x42] =
    .store 7 0x01020304 5 2 3 [] := by decide +kernel

/-- R163, R164, R194 to R199: a FETCH. -/
theorem test_decode_fetch : decodeFrame
    [0xA5, 0x3C, 0x01, 0x02, 0x09, 0x00, 0x08, 0x00, 0x00, 0x00, 0x04, 0x03, 0x02, 0x01, 0x05, 0x02, 0x00, 0x00,
    0x6B, 0x5A, 0x5F, 0xB3] =
    .fetch 9 0x01020304 5 2 := by decide +kernel

/-- R163, R164, R194 to R199: a DISCARD. -/
theorem test_decode_discard : decodeFrame
    [0xA5, 0x3C, 0x01, 0x03, 0xFF, 0x00, 0x08, 0x00, 0x00, 0x00, 0xFE, 0xFF, 0x00, 0x00, 0x00, 0x00, 0x01, 0x00,
    0x1B, 0x53, 0xE6, 0x0B] =
    .discard 255 0xFFFE 0x10000 := by decide +kernel

/-- R163, R164, R194 to R199: a FOLD. -/
theorem test_decode_fold : decodeFrame
    [0xA5, 0x3C, 0x01, 0x04, 0x01, 0x00, 0x04, 0x00, 0x00, 0x00, 0x00, 0x04, 0x00, 0x00, 0x9A, 0x34, 0x28, 0x3C] =
    .fold 1 1024 := by decide +kernel

/-- R163, R164, R194 to R199: a CLEAN. -/
theorem test_decode_clean : decodeFrame
    [0xA5, 0x3C, 0x01, 0x05, 0x02, 0x00, 0x04, 0x00, 0x00, 0x00, 0x04, 0x03, 0x02, 0x01, 0x9F, 0x83, 0x8D, 0xD9] =
    .clean 2 0x01020304 := by decide +kernel

/-- R163, R164, R194 to R199: a QUALIFY with its threshold. -/
theorem test_decode_qualify : decodeFrame
    [0xA5, 0x3C, 0x01, 0x06, 0x03, 0x00, 0x08, 0x00, 0x00, 0x00, 0x06, 0x00, 0x00, 0x00, 0x34, 0x12, 0x01, 0x00,
    0x3D, 0x7D, 0xDB, 0xA5] =
    .qualify 3 6 0x1234 1 := by decide +kernel

/-- R163, R164, R194 to R199: a STREAM_SET. -/
theorem test_decode_stream_set : decodeFrame
    [0xA5, 0x3C, 0x01, 0x08, 0x04, 0x00, 0x04, 0x00, 0x00, 0x00, 0x07, 0x01, 0x1F, 0x00, 0xD5, 0x99, 0x5D, 0x86] =
    .streamSet 4 7 1 31 := by decide +kernel

/-- R163, R164, R194 to R199: a PACER_SET. -/
theorem test_decode_pacer_set : decodeFrame
    [0xA5, 0x3C, 0x01, 0x09, 0x05, 0x00, 0x08, 0x00, 0x00, 0x00, 0x01, 0x01, 0x00, 0x00, 0xE8, 0x03, 0x00, 0x00,
    0x9C, 0x09, 0x5E, 0xCD] =
    .pacerSet 5 1 1 0 1000 := by decide +kernel

/-- R163, R164, R194 to R199: a MASK_SET. -/
theorem test_decode_mask_set : decodeFrame
    [0xA5, 0x3C, 0x01, 0x0A, 0x06, 0x00, 0x08, 0x00, 0x00, 0x00, 0x1C, 0x00, 0x00, 0x02, 0xD0, 0x07, 0x00, 0x00,
    0x82, 0x42, 0xDD, 0xA9] =
    .maskSet 6 28 512 2000 := by decide +kernel

/-- R163, R164, R194 to R199: a WATCH_SET. -/
theorem test_decode_watch_set : decodeFrame
    [0xA5, 0x3C, 0x01, 0x0B, 0x06, 0x00, 0x0C, 0x00, 0x00, 0x00, 0x07, 0x02, 0x00, 0x00, 0x10, 0x00, 0x00, 0x00,
    0x1F, 0x00, 0x00, 0x00, 0x06, 0x72, 0x2E, 0x31] =
    .watchSet 6 7 2 16 31 := by decide +kernel

/-- R163, R164, R194 to R199: an EVENT_ACK. -/
theorem test_decode_event_ack : decodeFrame
    [0xA5, 0x3C, 0x01, 0x0E, 0x06, 0x00, 0x04, 0x00, 0x00, 0x00, 0x01, 0x10, 0x00, 0x00, 0xAE, 0x1B, 0xC8, 0x9F] =
    .eventAck 6 0x1001 := by decide +kernel

/-- R163, R164, R194 to R199: an INSPECT of a stream. -/
theorem test_decode_inspect_stream : decodeFrame
    [0xA5, 0x3C, 0x01, 0x0F, 0x06, 0x00, 0x08, 0x00, 0x00, 0x00, 0x05, 0x00, 0x00, 0x00, 0x08, 0x00, 0x00, 0x00,
    0x9A, 0x02, 0xC1, 0x65] =
    .inspectStream 6 8 := by decide +kernel

/-- R163, R164, R194 to R199: a FORMAT with one zone and one retired band. -/
theorem test_decode_format : decodeFrame
    [0xA5, 0x3C, 0x01, 0x10, 0x06, 0x00, 0x24, 0x00, 0x00, 0x00, 0x64, 0x00, 0x00, 0x00, 0x02, 0x01, 0x01, 0x00,
    0x00, 0x00, 0x00, 0x00, 0x00, 0x01, 0x00, 0x01, 0x00, 0x10, 0x00, 0x00, 0xCC, 0x00, 0x00, 0x00, 0x00, 0x01,
    0x10, 0x00, 0x01, 0x01, 0x00, 0x00, 0x03, 0x00, 0x00, 0x00, 0xF6, 0x09, 0x58, 0xD5] =
    .format 6 100 2 ⟨0, 256, 256⟩ [⟨4096, 204, 256, 16, 1, 1⟩] [3] := by decide +kernel

/-- R163, R164, R194 to R199: an IMAGE_READ. -/
theorem test_decode_image_read : decodeFrame
    [0xA5, 0x3C, 0x01, 0x13, 0x06, 0x00, 0x04, 0x00, 0x00, 0x00, 0x01, 0x00, 0x00, 0x00, 0x12, 0x31, 0x8C, 0xE6] =
    .imageRead 6 1 := by decide +kernel

/-- R163, R164, R194 to R199: a RESET. -/
theorem test_decode_reset : decodeFrame
    [0xA5, 0x3C, 0x01, 0x17, 0x06, 0x00, 0x00, 0x00, 0x00, 0x00, 0xAA, 0x9E, 0xA8, 0xDD] =
    .reset 6 := by decide +kernel

/-- R163, R164, R194 to R199: bytes in READY that are no marker. -/
theorem test_decode_bad_marker : decodeFrame
    [0x3C, 0xA5] =
    .badMarker := by decide +kernel

/-- R163, R164, R194 to R199: a body length of 65,601. -/
theorem test_decode_overlength : decodeFrame
    [0xA5, 0x3C, 0x01, 0x02, 0x09, 0x00, 0x41, 0x00, 0x01, 0x00, 0x0F, 0x91, 0xAB, 0x23] =
    .overlength := by decide +kernel

/-- R163, R164, R194 to R199: a FETCH with one bit of its body changed. -/
theorem test_decode_bad_check : decodeFrame
    [0xA5, 0x3C, 0x01, 0x02, 0x09, 0x00, 0x08, 0x00, 0x00, 0x00, 0x04, 0x03, 0x03, 0x01, 0x05, 0x02, 0x00, 0x00,
    0x6B, 0x5A, 0x5F, 0xB3] =
    .badCheck := by decide +kernel

/-- R163, R164, R194 to R199: a frame that stops short of its last byte. -/
theorem test_decode_short_frame : decodeFrame
    [0xA5, 0x3C, 0x01, 0x11, 0x09, 0x00, 0x00, 0x00, 0x00, 0x00, 0x45, 0x19, 0x2E] =
    .frameLimitExpiry := by decide +kernel

/-- R163, R164, R194 to R199: a FETCH with a body of 4 bytes. -/
theorem test_decode_bad_length : decodeFrame
    [0xA5, 0x3C, 0x01, 0x02, 0x09, 0x00, 0x04, 0x00, 0x00, 0x00, 0x01, 0x00, 0x00, 0x00, 0x94, 0x71, 0xFF, 0x78] =
    .badRequest 2 9 := by decide +kernel

/-- R163, R164, R194 to R199: a QUIESCE with a flag set. -/
theorem test_decode_bad_flags : decodeFrame
    [0xA5, 0x3C, 0x01, 0x11, 0x09, 0x01, 0x00, 0x00, 0x00, 0x00, 0xF5, 0x30, 0x4E, 0x72] =
    .badRequest 17 9 := by decide +kernel

/-- R163, R164, R194 to R199: a frame of kind NOTICE. -/
theorem test_decode_bad_kind : decodeFrame
    [0xA5, 0x3C, 0x03, 0x40, 0x00, 0x00, 0x00, 0x00, 0x00, 0x00, 0xF3, 0xAD, 0xA6, 0xAF] =
    .badRequest 64 0 := by decide +kernel

/-- R163, R164, R194 to R199: a request code past 23. -/
theorem test_decode_unknown_code : decodeFrame
    [0xA5, 0x3C, 0x01, 0x18, 0x09, 0x00, 0x00, 0x00, 0x00, 0x00, 0x96, 0x5C, 0xB6, 0xDA] =
    .badRequest 24 9 := by decide +kernel

/-- R204: a FINISHED record, status STOPPED, order 400, 3 sectors done. -/
theorem test_decode_finished : decodeAnswer [0x83, 1, 0x90, 1, 3, 0, 0xFF, 0xFF] = some (.finished 400 1 3 65535) := by decide +kernel

/-- R204: ACCEPTED and DEFER records. -/
theorem test_decode_accepted_defer : decodeAnswer [0x81, 0, 2, 1] = some (.accepted 258)
    ∧ decodeAnswer [0x82, 0, 0xFF, 0xFF] = some (.defer 65535) := by decide +kernel

/-- R204: a record of no listed type, or of no listed status, is discarded. -/
theorem test_decode_unknown_record : decodeAnswer [0x85, 0, 1, 0] = none
    ∧ decodeAnswer [0x83, 5, 1, 0, 0, 0, 0, 0] = none := by decide +kernel

/-- The opcode table gives its rows no bits. -/
theorem test_no_table_word : decodeTableWord 0 0 = none ∧ (State.reset.withFetchWord 0 0) = State.reset := by decide +kernel

/-! ### A small part -/

/-- One zone of twelve bands of 16 tracks of 256 sectors, capacity 256 slots. -/
def zone : ZoneDesc := ⟨4096, 204, 256, 16, 1, 1⟩
/-- The smallest staging area. -/
def area : AreaDesc := ⟨0, 256, 256⟩
/-- Twelve EMPTY bands. -/
def emptyBands : List Band := (List.range 12).map fun i => { number := i, zone := 0 }

/-- A part in ONLINE, just formatted. -/
def part : State :=
  { ctl := { mode := .online }
    btu := { zones := [zone], bands := emptyBands, reserve := 2, closeOrder := 1 }
    gmu := { lgnCount := 40, sequence := 1 }, slu := { area := area } }

/-- The part in another controller state. -/
def partIn (m : Mode) : State := { part with ctl := { part.ctl with mode := m } }

/-- The part with band `b` changed. -/
def partBand (b : Nat) (f : Band → Band) : State := part.updBand b f

/-- A buffer. -/
def buffer : Granule := Vector.replicate 16 []

/-- A sector of one byte value. -/
def sectorOf (v : Nat) : Sector := List.replicate 4096 (BitVec.ofNat 8 v)

/-- A STORE's entry, whole granule, stream 2. -/
def storeEntry : Entry :=
  { tag := 7, code := codeStore, admission := 0, lgns := some (3, 3), range := some (0, 16), sequence := some 5, stream := 2
    phase := .waiting, buffer := buffer }

/-- A partial STORE's entry. -/
def partialEntry : Entry := { storeEntry with range := some (2, 3) }

/-- A FETCH's entry. -/
def fetchEntry : Entry := { storeEntry with code := codeFetch, range := some (15, 1), sequence := none }

/-- A held STORE's entry. -/
def heldEntry (why : HoldReason) : Entry :=
  { partialEntry with phase := .held, holdReason := some why, holdTimer := some 0 }

/-- The part with entries. -/
def partWith (es : List Entry) : State := { part with rqu := { part.rqu with entries := es } }

/-- An operation that reads band 0 for a FETCH. -/
def readOp : MediaOp :=
  { id := 4, cls := .read, isWrite := false, target := .band 0, track := 4096, first := 10, count := 6, place := 2
    origin := .fetchBand, tag := some 7 }

/-- An operation that writes the first slot of stream 2's band 0. -/
def writeOp : MediaOp :=
  { id := 4, cls := .write, isWrite := true, target := .band 0, track := 4096, first := 0, count := 16, place := 0
    origin := .stream 2, tag := some 7 }

/-- The part with an operation in progress in a stage, its whole run outstanding as order 9. -/
def partPort (stage : PortStage) (o : MediaOp) : State :=
  { part with mpt := { part.mpt with stage := stage, op := some o, order := ⟨9, o.first, o.count⟩, orderNo := 10 } }

/-- A STORE's work item. -/
def storeItem : Item := { work := .store 7 5, lgn := 3, content := buffer }

/-- The part with band 0 open for stream 2 and stream 2 changed. -/
def partStream (x : Stream) : State :=
  (partBand 0 fun bd => { bd with state := .opened, stream := some 2 }).setStream 2 { x with openBand := some 0 }

/-- The part writing the STORE of tag 7 into slot 0 of band 0. -/
def partWriting : State :=
  { partStream { fifo := [storeItem], writing := some 0 } with
    mpt := (partPort .running writeOp).mpt
    rqu := { part.rqu with entries := [{ storeEntry with phase := .active }] } }

/-- A FETCH of a granule with its lost flag set. -/
def partLost : State := (partWith [fetchEntry]).setEntryOf 3 { base := 1, lost := true }

/-- The part with one operation queued. -/
def partQueued (skip : Nat) : State :=
  { part with har := { part.har with
      queues := part.har.queues.set 3 [{ readOp with cls := .clean }], skips := part.har.skips.set 3 skip } }

/-- The state after a command. -/
def after (i : Instr) (s : State) : State :=
  match exec i s with
  | .next t => t
  | .fault f => nomatch f
  | .refused _ => s

/-- The status of the newest outbound frame: the first field of its body. -/
def lastStatus (s : State) : Option Field := s.flu.outbound.getLast?.bind fun f => f.body.head?

/-- Bands that are sound one by one are sound. -/
theorem bandsSound_of {s : State} (h : ∀ i : Fin s.btu.bands.length, (s.btu.bands[i]).Sound i.val) : s.BandsSound := by
  intro i bd hb
  obtain ⟨hi, rfl⟩ := List.getElem?_eq_some_iff.1 hb
  exact h ⟨i, hi⟩

/-- Band 0 is what an open takes where it is EMPTY and the first band of the stream's zone range. -/
theorem openTakes_first {s : State} {n : Fin 9} {bd : Band}
    (h : s.band? 0 = some bd ∧ bd.state = .empty ∧ firstBand s.btu.zones (s.stream n).lo ≤ 0
      ∧ 0 < firstBand s.btu.zones ((s.stream n).hi + 1)) : s.OpenTakes n 0 bd :=
  ⟨h.1, h.2.1, .inl ⟨h.2.2.1, h.2.2.2, fun k _ _ hk => absurd hk (Nat.not_lt_zero k)⟩⟩

/-- Band 0 is what an open takes where it is EMPTY and the stream's zone range holds no band. -/
theorem openTakes_spill {s : State} {n : Fin 9} {bd : Band}
    (h : s.band? 0 = some bd ∧ bd.state = .empty
      ∧ firstBand s.btu.zones ((s.stream n).hi + 1) ≤ firstBand s.btu.zones (s.stream n).lo) : s.OpenTakes n 0 bd :=
  ⟨h.1, h.2.1, .inr ⟨fun _ _ hl hh => absurd (Nat.lt_of_le_of_lt hl hh) (Nat.not_lt.2 h.2.2),
    fun k _ hk => absurd hk (Nat.not_lt_zero k)⟩⟩

/-! ### Small steps, each against the rule it names -/

/-- R44, R170: a STORE takes the placement sequence and waits; a later one to a full set of entries is refused. -/
theorem test_store_takes_sequence :
    (after (.store 1 39 15 255 7 [[]]) part).gmu.sequence = 2
    ∧ (after (.store 1 39 15 255 7 [[]]) part).rqu.entries.map (fun e => (e.range, e.clamped)) = [(some (15, 1), true)] := by
  decide +kernel

/-- R169: a STORE past the last LGN is refused BAD_ARGUMENT, status 4. -/
theorem test_store_past_last_lgn : lastStatus (after (.store 1 40 0 16 0 []) part) = some (.num 4 4) := by decide +kernel

/-- R185: a FETCH in QUIESCED is refused WRONG_STATE, status 5. -/
theorem test_fetch_wrong_state : lastStatus (after (.fetch 1 0 0 1) (partIn .quiesced)) = some (.num 4 5) := by decide +kernel

/-- R169: a DISCARD past the last LGN is clamped to it. -/
theorem test_discard_clamped :
    (after (.discard 1 39 65536) part).rqu.entries.map (fun e => (e.lgns, e.clamped)) = [(some (39, 39), true)] := by
  decide +kernel

/-- R101: a FOLD with no LIVE record is DONE at once. -/
theorem test_fold_nothing_live : lastStatus (after (.fold 1 5) part) = some (.num 4 0)
    ∧ (after (.fold 1 5) part).slu.foldReqs = [] := by decide +kernel

/-- R128: a CLEAN of an EMPTY band is refused WRONG_STATE. -/
theorem test_clean_empty_band : lastStatus (after (.clean 1 0) part) = some (.num 4 5) := by decide +kernel

/-- R134: a QUALIFY of a band past the table is refused BAD_ARGUMENT. -/
theorem test_qualify_past_table : lastStatus (after (.qualify 1 12 0 0) part) = some (.num 4 4) := by decide +kernel

/-- R138: a QUALIFY_STOP of an idle engine is refused WRONG_STATE. -/
theorem test_qualify_stop_idle : lastStatus (after (.qualifyStop 1) part) = some (.num 4 5) := by decide +kernel

/-- R62: a STREAM_SET stores its range as given. -/
theorem test_stream_set : ((after (.streamSet 1 7 31 31) part).stream 7).lo = 31 := by decide +kernel

/-- R125: without the reset option the count is kept; a reload of 0 is 1. -/
theorem test_pacer_set_keeps_count : (after (.pacerSet 1 1 1 0 0) part).cle.pacer = ⟨.event, 1, 1000, true, 0⟩ := by
  decide +kernel

/-- R146: a mask naming READ is refused and nothing of the request is taken. -/
theorem test_mask_set_read : (after (.maskSet 1 1 9 500) part).rqu.holdTimeout = 2000
    ∧ (after (.maskSet 1 1 9 500) part).cle.threshold = 512 := by decide +kernel

/-- R180: a WATCH_SET whose range ends past the last LGN is ended there; a mode byte that names none is refused. -/
theorem test_watch_set : (after (.watchSet 1 7 2 0 100) part).evu.windows[7] = some ⟨0, 39, .hold, false⟩
    ∧ lastStatus (after (.watchSet 1 7 3 0 1) part) = some (.num 4 4) := by decide +kernel

/-- R182, R183, R196: the reply to a WATCH_CLEAR of a window whose mark was set shows it clear. -/
theorem test_watch_clear_mark : (after (.watchClear 1 7) { part with evu := { part.evu with
      windows := part.evu.windows.set 7 (some ⟨2, 3, .all, true⟩) } }).flu.outbound.map (fun f => bodyBytes f.body) =
    [[0, 0, 0, 0, 7, 0, 0xFF, 0, 0xFF, 0xFF, 0xFF, 0xFF, 0xFF, 0xFF, 0xFF, 0xFF]] := by decide +kernel

/-- R180: WATCH_CLEAR of window 8 is refused. -/
theorem test_watch_clear_past_last : lastStatus (after (.watchClear 1 8) part) = some (.num 4 4) := by decide +kernel

/-- R178: enabling a set flag gives the reply, then one notice. -/
theorem test_event_enable_notice :
    (after (.eventEnable 1 16) (part.raise .bandFatigued 3)).flu.outbound.map (fun f => (f.kind, f.code)) =
      [(.reply, 13), (.notice, 64)] := by decide +kernel

/-- R179: an acknowledged flag is clear and the details stay. -/
theorem test_event_ack_keeps_detail : (after (.eventAck 1 16) (part.raise .bandFatigued 3)).evu.flags = 0
    ∧ (after (.eventAck 1 16) (part.raise .bandFatigued 3)).evu.details[4] = 3 := by decide +kernel

/-- R189: INSPECT of the tables is refused in UNFORMATTED, and of the port is not. -/
theorem test_inspect_unformatted : lastStatus (after (.inspectPool 1) State.reset) = some (.num 4 5)
    ∧ lastStatus (after (.inspectPort 1) State.reset) = some (.num 4 0) := by decide +kernel

/-- R189: an INSPECT of an unknown kind is refused BAD_ARGUMENT. -/
theorem test_inspect_unknown_kind : lastStatus (after (.inspectController 1 13) part) = some (.num 4 4) := by decide +kernel

/-- R186: FORMAT of a part just reset, band 3 retired: eleven bands EMPTY, R taken as 8 would ask for 18. -/
theorem test_format : (after (.format 1 100 2 area [⟨4096, 221, 256, 16, 1, 1⟩] [3]) State.reset).freeCount = 12
    ∧ lastStatus (after (.format 1 100 0 area [⟨4096, 221, 256, 16, 1, 1⟩] [3]) State.reset) = some (.num 4 4) := by
  decide +kernel

/-- R187: a quiet part is QUIESCED at once, and a RESUME takes it back. -/
theorem test_quiesce_resume : (after (.quiesce 1) part).ctl.mode = .quiesced
    ∧ (after (.resume 2) (after (.quiesce 1) part)).ctl.mode = .online := by decide +kernel

/-- R190: a part of 40 LGNs and 12 empty bands has an image of one chunk. -/
theorem test_image_length : part.imageLength = 64 + 16 + 12 * 32 + 72 + 24 * 40
    ∧ lastStatus (after (.imageRead 1 1) (partIn .quiesced)) = some (.num 4 4) := by decide +kernel

/-- R192: a commit with no load is refused IMAGE_BAD, status 11. -/
theorem test_commit_without_load : lastStatus (after (.imageCommit 1) State.reset) = some (.num 4 11) := by decide +kernel

/-- R159: a MEDIA_RESTART of a DOWN port sends a PROBE. -/
theorem test_media_restart_probes :
    (after (.mediaRestart 1) { part with mpt := { part.mpt with up := false, failures := 3 } }).mpt.wire = [[4, 0, 1, 0]] := by
  decide +kernel

/-- R175: a RESET is carried out with a tag in use, and answers the entries it found. -/
theorem test_reset_with_tag_in_use : (after (.reset 7) (partWith [storeEntry])).rqu.entries = []
    ∧ ((after (.reset 7) (partWith [storeEntry])).flu.outbound.map OutFrame.body) =
      [[.num 4 0, .num 1 1, .num 3 0]] := by decide +kernel

/-- R163: an overlength frame in READY is an error and leaves the assembler in SEEK. -/
theorem test_overlength : (after .overlength part).flu.errors = 1 ∧ (after .overlength part).flu.assembler = .seek := by
  decide +kernel

/-- R171, R173: a tick does not pass 0; the expired STORE is replied NO_SPACE, status 6. -/
theorem test_hold_expiry :
    lastStatus (after .holdExpiry (after .msTick { partWith [heldEntry .pressure] with
      rqu := { (partWith [heldEntry .pressure]).rqu with held := [7] } })) = some (.num 4 6) := by decide +kernel

/-- R126: an underflow with 8 credits leaves 8. -/
theorem test_pacer_underflow_saturates :
    (after .pacerUnderflow { part with cle := { part.cle with pacer := ⟨.time, 7, 1, true, 8⟩ } }).cle.pacer =
      ⟨.time, 7, 7, true, 8⟩ := by decide +kernel

/-- R149: an answer outside CLAIMING is discarded, one in CLAIMING starts the run. -/
theorem test_accepted : after (.accepted 9) (partPort .running readOp) = partPort .running readOp
    ∧ (after (.accepted 9) (partPort .claiming readOp)).mpt.stage = .running := by decide +kernel

/-- R150: the fifth DEFER ends the operation with cause bit 1. -/
theorem test_fifth_defer : (after (.defer 9) (partPort .claiming { readOp with defers := 4 })).mpt.causes = 2#4 := by
  decide +kernel

/-- R151: the completion limit sends ABORT for order 9, record type 3. -/
theorem test_completion_limit : (after .completionLimitExpiry (partPort .running readOp)).mpt.wire = [[3, 0, 9, 0]] := by
  decide +kernel

/-- R153: an UNRECOVERED at sector 13 of a run from 10 re-issues from 13, three sectors left. -/
theorem test_unrecovered_reissue :
    (after (.finished 9 2 0 13) (partPort .running readOp)).mpt.order = ⟨10, 13, 3⟩ := by decide +kernel

/-- R69, R70: the last run of a STORE's slot places it and replies DONE. -/
theorem test_store_placed : (after (.finished 9 0 0 0) partWriting).entryOf 3 = { home := some ⟨0, 0⟩, base := 5 }
    ∧ lastStatus (after (.finished 9 0 0 0) partWriting) = some (.num 4 0) := by decide +kernel

/-- R204: a sector read lands at its place, sector 12 of a run from 10 at place 2, and R204 places each DATA taken in
RUNNING: one that carries order 8 too, while order 9 is outstanding. -/
theorem test_data_lands :
    [8, 9].map (fun n => (after (.data n 12 [1]) { partPort .running readOp with
      rqu := { part.rqu with entries := [fetchEntry] } }).rqu.entries.map fun e => e.buffer[4]) = [[[1]], [[1]]] := by
  decide +kernel

/-- R170, R65: a whole-granule STORE that starts writes the first sectors of its stream's band. -/
theorem test_start_store :
    (after .requestStart { partStream {} with rqu := { part.rqu with entries := [storeEntry] } }).har.queue .write =
      [{ writeOp with id := 1 }] := by decide +kernel

/-- R90, R92: a partial STORE that starts takes a record at the tail. -/
theorem test_start_partial : (after .requestStart (partWith [partialEntry])).slu.used = 4
    ∧ ((after .requestStart (partWith [partialEntry])).entryOf 3).overlays = 1 := by decide +kernel

/-- R25, R27: a waiting open takes the lowest EMPTY band. -/
theorem test_open_wait : ((after .openWaitGrant { part with btu := { part.btu with openWait := [2] } }).stream 2).openBand =
    some 0 := by decide +kernel

/-! ### Witnesses: a state and operands that meet every hypothesis of each obligation, clause by clause; for those of many
clauses also what the step gives on these states, expected from the rules named (`…_conclusion`) -/

theorem witness_Step_runs_front_command :
    (part.withPending [.msTick, .headGrant]).pending = [.msTick, .headGrant] ∧ part.pending = [] := by decide +kernel

theorem witness_Step_keeps_map_canonical :
    partLost.MapCanonical ∧ ∃ t, step (partLost.withPending [.requestStart]) = .next t := ⟨by decide +kernel, _, rfl⟩

theorem witness_Step_keeps_port_sound :
    (partPort .claiming readOp).PortSound
    ∧ ∃ t, step ((partPort .claiming readOp).withPending [.claimLimitExpiry]) = .next t :=
  ⟨by decide +kernel, _, rfl⟩

theorem witness_Step_keeps_counters_in_range :
    part.CountersInRange ∧ ∃ t, step (part.withPending [.store 1 0 0 16 0 []]) = .next t := ⟨by decide +kernel, _, rfl⟩

/-- R125: a reload at the end of its range, and the count with it; a frame that waits is well formed. -/
theorem witness_Step_keeps_pacer_in_range :
    (∀ i ∈ (part.withPending [.pacerSet 1 0 1 1 65535]).pending.head?, i.wf = true)
    ∧ (part.withPending [.pacerSet 1 0 1 1 65535]).PacerInRange
    ∧ (after (.pacerSet 1 0 1 1 65535) part).cle.pacer = ⟨.time, 65535, 65535, true, 0⟩
    ∧ (∃ t, step (part.withPending [.pacerSet 1 0 1 1 65535]) = .next t) ∧ (Instr.quiesce 1).wf = true :=
  ⟨by decide +kernel, by decide +kernel, by decide +kernel, ⟨_, rfl⟩, by decide⟩

theorem witness_Step_keeps_bands_sound :
    (partStream {}).BandsSound ∧ ∃ t, step ((partStream {}).withPending [.headGrant]) = .next t :=
  ⟨bandsSound_of (by decide +kernel), _, rfl⟩

theorem witness_Work_changes_no_setting :
    isWork (.finished 9 0 0 0) = true ∧ part.ctl.resetWait = none ∧ ∃ t, exec (.finished 9 0 0 0) part = .next t :=
  ⟨by decide, by decide, _, rfl⟩

theorem witness_Decode_encode_request :
    (Instr.watchSet 255 255 255 4294967295 4294967295).wf = true
    ∧ (Instr.watchSet 255 255 255 4294967295 4294967295).requestParts.isSome = true := by decide +kernel

theorem witness_Decode_encode_answer : 65535 < 65536 ∧ 4 ≤ 4 ∧ (sectorOf 1).length = 4096 :=
  ⟨by decide, by decide, List.length_replicate⟩

theorem witness_Span_runs_cover : 0 < 256 ∧ cutSpan 256 250 16 = [⟨0, 250, 6, 0⟩, ⟨1, 0, 10, 6⟩] := by decide +kernel

theorem witness_Reclaim_ratio_range : 0 < 256 ∧ 256 ≤ 256 ∧ 0 ≤ 256 := by decide +kernel

theorem witness_Pattern_seeds_differ : 255 < 256 ∧ 0 ≠ 255 ∧ 0 < 65535 ∧ 65535 - 0 < 65536 := by decide +kernel

theorem witness_Store_arrival_result :
    part.admitsTag 1 ∧ part.ctl.mode = .online ∧ 39 < part.gmu.lgnCount ∧ 15 ≤ 15 ∧ 1 ≤ 255
    ∧ min 255 (16 - 15) ≤ [sectorOf 1].length ∧ part.gmu.sequence < Config.counterMax := by decide +kernel

/-- The part with its placement sequence at the end. -/
def partSpent : State := { part with gmu := { part.gmu with sequence := Config.counterMax } }

theorem witness_Store_arrival_refusals :
    part.admitsTag 1 ∧ part.ctl.mode = .online ∧ part.gmu.lgnCount ≤ 40 ∧ 8 ≤ 8 ∧ 15 < 16
    ∧ 39 < part.gmu.lgnCount ∧ 7 < 8 ∧ 15 ≤ 15 ∧ 1 ≤ 1 ∧ ([] : List Sector).length < min 1 (16 - 15)
    ∧ partSpent.admitsTag 1 ∧ partSpent.ctl.mode = .online ∧ 39 < partSpent.gmu.lgnCount
    ∧ min 1 (16 - 15) ≤ [sectorOf 1].length ∧ Config.counterMax ≤ partSpent.gmu.sequence := by decide +kernel

theorem witness_Fetch_discard_enter_ordering :
    part.admitsTag 255 ∧ part.ctl.mode = .online ∧ 39 < part.gmu.lgnCount ∧ 15 ≤ 15 ∧ 1 ≤ 65536 ∧ 65536 ≤ 65536
    ∧ part.gmu.sequence < Config.counterMax := by decide +kernel

theorem witness_Fetch_discard_refusals :
    part.admitsTag 255 ∧ part.ctl.mode = .online ∧ part.gmu.lgnCount ≤ 40 ∧ 15 < 16 ∧ 65536 < 65537
    ∧ partSpent.admitsTag 255 ∧ partSpent.ctl.mode = .online ∧ 39 < partSpent.gmu.lgnCount
    ∧ Config.counterMax ≤ partSpent.gmu.sequence := by decide +kernel

/-- R44, R169: BAD_ARGUMENT is status 4, WRONG_STATE 5; what is refused takes no sequence. -/
theorem witness_Fetch_discard_refusals_conclusion :
    (∀ i ∈ [Instr.fetch 1 40 0 1, .fetch 1 39 16 1, .fetch 1 39 0 0, .discard 1 40 1, .discard 1 39 0, .discard 1 0 65537],
      lastStatus (after i part) = some (.num 4 4) ∧ (after i part).gmu = part.gmu ∧ (after i part).rqu.entries = [])
    ∧ lastStatus (after (.discard 1 39 1) partSpent) = some (.num 4 5)
    ∧ (after (.discard 1 39 1) partSpent).gmu = partSpent.gmu := by decide +kernel

theorem witness_Admission_and_state_refusals :
    (Instr.quiesce 7).requestParts = some (17, 7, []) ∧ 17 ≠ codeReset
    ∧ (partWith (List.replicate 32 storeEntry)).takesFrames = true
    ∧ Config.entryLimit ≤ (partWith (List.replicate 32 storeEntry)).rqu.entries.length
    ∧ (partWith [storeEntry]).rqu.entries.length < Config.entryLimit
    ∧ (∃ e ∈ (partWith [storeEntry]).rqu.entries, e.tag = 7)
    ∧ (Instr.clean 1 0).requestParts = some (codeClean, 1, [0, 0, 0, 0]) ∧ (partIn .quiescing).admitsTag 1
    ∧ (partIn .quiescing).ctl.mode ≠ .online := by decide +kernel

/-- A request and a part whose controller state does not take it, one for each row of R185's table. -/
def wrongStates : List (Instr × State) :=
  [(.clean 1 0, partIn .quiescing), (.mediaRestart 1, State.reset), (.streamSet 1 0 0 0, partIn .quiesced),
    (.format 1 0 0 area [] [], part), (.imageRead 1 0, part), (.imageCommit 1, part)]

/-- R185: each is refused WRONG_STATE, status 5. -/
theorem witness_Admission_and_state_refusals_conclusion :
    ∀ p ∈ wrongStates, lastStatus (after p.1 p.2) = some (.num 4 5) := by decide +kernel

theorem witness_Start_never_overtakes :
    (after .requestStart (partWith [{ storeEntry with tag := 1, phase := .active }, storeEntry,
      { partialEntry with tag := 8, lgns := some (4, 4) }])).rqu.entries.map (fun e => (e.tag, e.phase)) =
      [(1, .active), (7, .waiting), (8, .active)]
    ∧ after .requestStart (partWith [{ storeEntry with tag := 1, phase := .active }, storeEntry]) =
      partWith [{ storeEntry with tag := 1, phase := .active }, storeEntry] := by decide +kernel

/-- A STORE about to start, its stream's band at its last slot. -/
def partStart : State :=
  { (partStream {}).updBand 0 fun bd => { bd with frontier := 4080, slots := List.replicate 255 .dead } with
    rqu := { part.rqu with entries := [storeEntry] } }

theorem witness_Store_start :
    partStart.startsGranule storeEntry 3
    ∧ (partStart.stream (streamOf 2)).fifo = [] ∧ (partStart.stream (streamOf 2)).openPending = false
    ∧ (partStart.stream (streamOf 2)).writing = none ∧ (partStart.stream (streamOf 2)).openBand = some 0
    ∧ partStart.frontier 0 = 16 * 255 := by decide +kernel

/-- The same STORE with no open band, R as given, PRESSURE set or clear, stream 2's zone range as given. -/
def partBare (reserve : Nat) (pressure : Bool) (lo hi : Nat) : State :=
  { partWith [storeEntry] with
    btu := { part.btu with reserve := reserve, pressure := pressure }, swr := (part.setStream 2 { lo := lo, hi := hi }).swr }

theorem witness_Store_open :
    (partBare 11 false 0 31).BandsSound ∧ (partBare 2 false 1 1).BandsSound
    ∧ (partBare 11 false 0 31).OpenTakes (streamOf 2) 0 { number := 0, zone := 0 }
    ∧ (partBare 2 false 1 1).OpenTakes (streamOf 2) 0 { number := 0, zone := 0 }
    ∧ (partBare 2 true 0 31).btu.pressure = true ∧ (partBare 11 false 0 31).btu.pressure = false
    ∧ (partBare 11 false 0 31).btu.openWait = []
    ∧ ∀ p ∈ [partBare 2 true 0 31, partBare 11 false 0 31, partBare 2 false 1 1],
      p.startsGranule storeEntry 3 ∧ p.Bare (streamOf 2) :=
  ⟨bandsSound_of (by decide +kernel), bandsSound_of (by decide +kernel), openTakes_first (by decide +kernel),
    openTakes_spill (by decide +kernel), by decide +kernel⟩

/-- R25 to R28, R66, R171: held for PRESSURE; or the band opened, PRESSURE set at R bands left, a spill reported. -/
theorem witness_Store_open_conclusion :
    after .requestStart (partBare 2 true 0 31) = { partBare 2 true 0 31 with rqu := { part.rqu with
      held := [7], entries := [{ storeEntry with
        phase := .held, holdReason := some .pressure, holdTimer := some 2000 }] } }
    ∧ (after .requestStart (partBare 11 false 0 31)).btu.pressure = true
    ∧ (after .requestStart (partBare 11 false 0 31)).evu.details[0] = 11
    ∧ (after .requestStart (partBare 2 false 1 1)).evu.flags = EventFlag.bit .streamSpill
    ∧ (after .requestStart (partBare 2 false 1 1)).freeCount = 11
    ∧ ((after .requestStart (partBare 2 false 1 1)).stream 2).writing = some 0
    ∧ ((after .requestStart (partBare 2 false 1 1)).har.queue .write).map (fun o => (o.track, o.first, o.count)) =
      [(4096, 0, 16)] := by decide +kernel

/-- A LIVE staged record of granule 3. -/
def liveRecord : Record :=
  { pos := 0, len := 4, lgn := 3, first := 2, count := 3, sequence := 4, stream := 2, state := .live }

/-- Granule 3 at home in slot 1 of band 11, a band in some state, with the staged record or none. -/
def partHome (st : BandState) (records : List Record) : State :=
  ({ (partBand 11 fun bd => { bd with state := st, frontier := 32, slots := [.dead, .live 3] }) with
    slu := { part.slu with dir := records, used := 4, tail := 4 } } : State).setEntryOf 3
      { home := some ⟨11, 1⟩, base := 1, overlays := records.length, newest := records.head?.map Record.pos }

/-- A DISCARD's entry. -/
def discardEntry (hi : Nat) : Entry := { storeEntry with code := codeDiscard, range := none, lgns := some (3, hi) }

/-- A DISCARD of granule 3 about to start. -/
def partDiscard : State := { partHome .full [liveRecord] with rqu := { part.rqu with entries := [discardEntry 3] } }

theorem witness_Discard_start :
    partDiscard.rqu.entries = [discardEntry 3] ∧ (discardEntry 3).phase = .waiting
    ∧ (discardEntry 3).code = codeDiscard ∧ (discardEntry 3).lgns = some (3, 3) ∧ (discardEntry 3).sequence = some 5
    ∧ partDiscard.MapCanonical ∧ (∀ q ∈ partDiscard.slu.foldReqs, q.tag ≠ 7)
    ∧ (partDiscard.entryOf 3).home = some ⟨11, 1⟩
    ∧ (partDiscard.band? 11).map (fun bd => (bd.state, bd.slots)) = some (.full, [.dead, .live 3])
    ∧ partDiscard.chain 3 = [liveRecord] ∧ (discardEntry 39).lgns = some (3, 39) ∧ 3 ≤ 39 := by decide +kernel

/-- R22, R46, R54: the home's slot is DEAD, the record gone from the head of the log, the sequence the granule's base.
-/
theorem witness_Discard_start_conclusion :
    (after .requestStart partDiscard).entryOf 3 = { base := 5 }
    ∧ ((after .requestStart partDiscard).band? 11).map Band.slots = some [.dead, .dead]
    ∧ (∀ x ∈ (after .requestStart partDiscard).slu.dir, x.state = .dead)
    ∧ lastStatus (after .requestStart partDiscard) = some (.num 4 0) := by decide +kernel

/-- A partial STORE about to start, its record filling the log to the soft limit. -/
def partStage : State :=
  { partWith [partialEntry] with slu := { part.slu with used := 57340 }, gmu := (part.setEntryOf 3 { overlays := 7 }).gmu }

theorem witness_Partial_store_append :
    partStage.rqu.entries = [partialEntry] ∧ partialEntry.phase = .waiting ∧ partialEntry.code = codeStore
    ∧ partialEntry.range = some (2, 3) ∧ (2, 3) ≠ (0, 16) ∧ partialEntry.lgns = some (3, 3)
    ∧ partialEntry.sequence = some 5 ∧ partStage.mpt.up = true ∧ partStage.MapCanonical
    ∧ (partStage.entryOf 3).overlays < 8 ∧ partStage.slu.logHeld = false
    ∧ partStage.slu.used + (3 + 1) = softLimit partStage.slu.area ∧ partStage.slu.dir.length < 14336
    ∧ partStage.record? partStage.slu.tail = none := by
  decide +kernel

/-- R92: a record of four sectors at the last two log positions starts with a run of the area's last two sectors. -/
theorem witness_Partial_store_append_conclusion :
    ((after .requestStart partStage).har.queue .write).map MediaOp.run = [⟨true, .staging, 0, 0, 4, 0, some 7⟩]
    ∧ ((after .requestStart { partStage with slu := { partStage.slu with tail := 65534 } }).har.queue .write).map
      MediaOp.run = [⟨true, .staging, 255, 254, 2, 0, some 7⟩] := by decide +kernel

/-- The last run of a WRITING record, the record, and a part about to complete it. -/
def stagedOp : MediaOp :=
  { writeOp with target := .staging, track := 0, count := 4, origin := .staged 0 }
def writingRecord : Record := { liveRecord with sequence := 5, state := .writing }
def partStaging : State :=
  { partHome .full [writingRecord] with
    mpt := (partPort .running stagedOp).mpt
    slu := { (partHome .full [writingRecord]).slu with writes := [⟨0, 7, false⟩] }
    rqu := { part.rqu with entries := [{ partialEntry with phase := .active }] } }

theorem witness_Partial_store_completion :
    partStaging.mpt.stage = .running ∧ partStaging.mpt.op = some stagedOp ∧ stagedOp.origin = .staged 0
    ∧ stagedOp.isWrite = true ∧ partStaging.record? 0 = some writingRecord
    ∧ partStaging.stagedWrite? 0 = some ⟨0, 7, false⟩ ∧ writingRecord.len ≤ stagedOp.place + stagedOp.count
    ∧ partStaging.entry? 7 = some { partialEntry with phase := .active } ∧ partialEntry.range = some (2, 3) := by
  decide +kernel

/-- R93: the record is LIVE and the STORE replied DONE with sectors 2 to 4 and its sequence. -/
theorem witness_Partial_store_completion_conclusion :
    ((after (.finished 9 0 0 0) partStaging).record? 0).map Record.state = some .live
    ∧ (after (.finished 9 0 0 0) partStaging).flu.outbound =
      [replyFrame codeStore 7 false .done [.num 1 2, .num 1 3, .num 2 0, .num 8 5]] := by decide +kernel

/-- The same writing the record at 4 behind a LIVE record of another granule, the record a re-append or not. -/
def partStagingFault (again : Bool) (used : Nat) : State :=
  { partStaging with
    mpt := (partPort .running { stagedOp with origin := .staged 4 }).mpt
    gmu := (part.setEntryOf 3 { base := 1, overlays := 2, newest := some 4 }).gmu
    slu := { part.slu with
      dir := [{ liveRecord with lgn := 9 }, { writingRecord with pos := 4, prev := some 2 }], used := used, tail := 8
      writes := [⟨4, 7, again⟩] } }

theorem witness_Staged_write_fault :
    ∀ p ∈ [(false, 65532), (false, 65533), (true, 8)], (partStagingFault p.1 p.2).mpt.stage = .running
      ∧ (partStagingFault p.1 p.2).mpt.op = some { stagedOp with origin := .staged 4 } ∧ stagedOp.isWrite = true
      ∧ (partStagingFault p.1 p.2).MapCanonical
      ∧ (partStagingFault p.1 p.2).record? 4 = some { writingRecord with pos := 4, prev := some 2 }
      ∧ (partStagingFault p.1 p.2).stagedWrite? 4 = some ⟨4, 7, p.1⟩ ∧ ((partStagingFault p.1 p.2).entry? 7).isSome = true
      ∧ (partStagingFault p.1 p.2).slu.foldReqs = [] ∧ liveRecord.pos ≠ 4 ∧ liveRecord.state ≠ .dead
      ∧ (partStagingFault p.1 p.2).record? (partStagingFault p.1 p.2).slu.tail = none
      ∧ (p.2 = 65532 ↔ p.1 = false ∧ p.2 + 4 ≤ areaCap (partStagingFault p.1 p.2).slu.area) := by decide +kernel

/-- The same with its write at a second SERVO_LOST, or at its completion limit. -/
def partStagingFaultAt (stage : PortStage) : State :=
  { partStagingFault true 8 with mpt := { (partStagingFault true 8).mpt with
      stage := stage, op := some { stagedOp with origin := .staged 4, servoUsed := true } } }

theorem witness_Staged_write_fault_ends :
    (partStagingFaultAt .running).writeFaults { stagedOp with origin := .staged 4, servoUsed := true }
      (.finished 9 4 1 0) 1 { (partStagingFaultAt .running).mpt with
        stage := .idle, op := none, failures := 1, causes := 8 }
    ∧ (partStagingFaultAt .aborting).writeFaults { stagedOp with origin := .staged 4, servoUsed := true }
      (.finished 9 1 1 0) 1 { (partStagingFaultAt .aborting).mpt with stage := .idle, op := none }
    ∧ (partStagingFaultAt .aborting).writeFaults { stagedOp with origin := .staged 4, servoUsed := true }
      .abortLimitExpiry 4 { (partStagingFaultAt .aborting).mpt with
        stage := .idle, op := none, failures := 1, causes := 4 }
    ∧ ((partStagingFaultAt .aborting).stagedWrite? 4 = some ⟨4, 7, true⟩) ∧ (partStagingFaultAt .claiming).mpt.stage = .claiming :=
  ⟨.inl ⟨by decide +kernel, 4, 1, 0, by decide +kernel⟩,
    .inr ⟨by decide +kernel, by decide +kernel, .inl ⟨1, 1, 0, by decide +kernel⟩⟩,
    .inr ⟨by decide +kernel, by decide +kernel, .inr (by decide +kernel)⟩, by decide +kernel⟩

/-- R94, R151, R155: each of the three makes the re-append DEAD, its previous field kept, and the STORE WRITE_FAILED. -/
theorem witness_Staged_write_fault_ends_conclusion :
    ∀ p ∈ [(Instr.finished 9 4 1 0, PortStage.running), (.finished 9 1 1 0, .aborting), (.abortLimitExpiry, .aborting),
        (.finished 9 3 0 0, .claiming)],
      ((after p.1 (partStagingFaultAt p.2)).record? 4).map (fun r => (r.state, r.prev)) = some (.dead, some 2)
      ∧ lastStatus (after p.1 (partStagingFaultAt p.2)) = lastStatus (after (.finished 9 3 0 0) (partStagingFault true 8))
      ∧ (after p.1 (partStagingFaultAt p.2)).rqu.entries = [] := by decide +kernel

/-- R94: with room to the last sector the record is appended again and its header's run is queued; with one sector too
few, or at a re-append, the STORE ends WRITE_FAILED, status 8, and the older record is the newest again. -/
theorem witness_Staged_write_fault_conclusion :
    (after (.finished 9 3 0 0) (partStagingFault false 65532)).slu.dir.map (fun r => (r.pos, r.state, r.prev)) =
      [(0, .live, none), (4, .dead, some 2), (8, .writing, some 2)]
    ∧ ((after (.finished 9 3 0 0) (partStagingFault false 65532)).har.queue .write).map MediaOp.run =
      [⟨true, .staging, 0, 8, 4, 0, some 7⟩]
    ∧ (after (.finished 9 3 0 0) (partStagingFault false 65532)).entryOf 3 = { base := 1, overlays := 2, newest := some 8 }
    ∧ (∀ p ∈ [(false, 65533), (true, 8)],
      (after (.finished 9 3 0 0) (partStagingFault p.1 p.2)).entryOf 3 = { base := 1, overlays := 1, newest := some 2 }
      ∧ lastStatus (after (.finished 9 3 0 0) (partStagingFault p.1 p.2)) = some (.num 4 8)) := by decide +kernel

theorem witness_Fetch_start_without_home :
    (partWith [fetchEntry]).startsFetch fetchEntry 3 15 1 ∧ ((partWith [fetchEntry]).entryOf 3).home = none
    ∧ ((partWith [fetchEntry]).entryOf 3).newest = none ∧ ((partWith [fetchEntry]).entryOf 3).lost = false
    ∧ partLost.startsFetch fetchEntry 3 15 1 ∧ (partLost.entryOf 3).home = none
    ∧ (partLost.entryOf 3).newest = none ∧ (partLost.entryOf 3).lost = true := by decide +kernel

/-- A FETCH of sectors `f` to `f + n - 1` of granule 3 about to start. -/
def fetchOf (f n : Nat) : Entry := { fetchEntry with range := some (f, n) }
def partFetch (records : List Record) (f n : Nat) : State :=
  { partHome .cleaning records with rqu := { part.rqu with entries := [fetchOf f n] } }

/-- The same, stream 2 still retaining the granule. -/
def partRetained : State := (partFetch [] 0 16).setStream 2 { openBand := some 11, exposed := [⟨1, 3, buffer⟩] }

theorem witness_Fetch_start_with_home :
    partRetained.startsFetch (fetchOf 0 16) 3 0 16 ∧ (partRetained.entryOf 3).home = some ⟨11, 1⟩
    ∧ (partRetained.entryOf 3).newest = none ∧ partRetained.heldCopy ⟨11, 1⟩ = some buffer
    ∧ (partFetch [] 15 1).startsFetch (fetchOf 15 1) 3 15 1 ∧ ((partFetch [] 15 1).entryOf 3).home = some ⟨11, 1⟩
    ∧ ((partFetch [] 15 1).entryOf 3).newest = none ∧ (partFetch [] 15 1).heldCopy ⟨11, 1⟩ = none
    ∧ (partFetch [] 15 1).mpt.up = true ∧ ((partFetch [] 15 1).band? 11).map Band.state = some .cleaning := by
  decide +kernel

theorem witness_Fetch_start_staged :
    (partFetch [liveRecord] 2 3).startsFetch (fetchOf 2 3) 3 2 3 ∧ (partFetch [liveRecord] 2 3).mpt.up = true
    ∧ ∀ j : Fin 16, 2 ≤ j.val → j.val < 2 + 3 → (((partFetch [liveRecord] 2 3).chain 3).find? fun x =>
      decide (x.state = .live) && (decide (x.first ≤ j.val) && decide (j.val < x.first + x.count))) =
        some liveRecord := by decide +kernel

/-- R49, R96: sector 15 of slot 1 is band sector 31; sectors 2 to 4 of the record at 0 are log positions 1 to 3. -/
theorem witness_Fetch_start_conclusion :
    ((after .requestStart (partFetch [] 15 1)).har.queue .read).map (fun o => (o.target, o.first, o.count, o.place)) =
      [(.band 11, 31, 1, 15)]
    ∧ ((after .requestStart (partFetch [liveRecord] 2 3)).har.queue .read).map
      (fun o => (o.target, o.track, o.first, o.count, o.place)) = [(.staging, 0, 1, 3, 2)]
    ∧ (after .requestStart (partFetch [liveRecord] 2 3)).slu.dir.map Record.readers = [1]
    ∧ lastStatus (after .requestStart partRetained) = some (.num 4 0) := by decide +kernel

/-- A part with window 7 on LGNs 2 to 3 in a mode, its overrun mark set or not. -/
def partWindow (m : WatchMode) (marked : Bool) : State :=
  { part with evu := { part.evu with windows := part.evu.windows.set 7 (some ⟨2, 3, m, marked⟩) } }

/-- The part writing an item into the last sectors of slot 0 of band 0, granule 3 at home in band 11. -/
def partItem (it : Item) (records : List Record) : State :=
  { ({ partHome .full records with mpt := partWriting.mpt, rqu := partWriting.rqu } : State).setStream 2
      { openBand := some 0, fifo := [it], writing := some 0 } with
    btu := (partHome .full records |>.updBand 0 fun bd => { bd with state := .opened, stream := some 2 }).btu }

/-- A fold's item of a generation, and an item that copies from a slot of band 11. -/
def foldItem (q : Nat) : Item := { work := .fold q [0], lgn := 3, content := buffer }
def cleanItem (slot : Nat) : Item := { work := .clean ⟨11, slot⟩, lgn := 3, content := buffer }

theorem witness_Item_completion_store :
    partWriting.BandsSound ∧ partWriting.MapCanonical
    ∧ (∀ bd, partWriting.band? 0 = some bd → partWriting.completesItem 2 writeOp storeItem [] 0 0 bd)
    ∧ storeItem.work = .store 7 5 ∧ (partWriting.entry? 7).isSome = true
    ∧ ∀ q ∈ partWriting.slu.foldReqs, q.tag ≠ 7 :=
  ⟨bandsSound_of (by decide +kernel), by decide +kernel, by rintro bd ⟨⟩; decide +kernel, by decide +kernel⟩

/-- The same with the pacer RUN in EVENT mode. -/
def partWritingPaced (count : Nat) : State :=
  { partWriting with cle := { part.cle with pacer := ⟨.event, 7, count, true, 8⟩ } }

theorem witness_Item_completion_pacer :
    (∀ bd, (partWritingPaced 1).band? 0 = some bd → (partWritingPaced 1).completesItem 2 writeOp storeItem [] 0 0 bd)
    ∧ (∀ src, storeItem.work ≠ .clean src) ∧ (2 : Fin 9) ≠ relocation ∧ (partWritingPaced 1).cle.pacer.running = true
    ∧ (partWritingPaced 1).cle.pacer.mode = .event ∧ (partWritingPaced 1).cle.pacer.count = 1
    ∧ 1 < (partWritingPaced 2).cle.pacer.count ∧ partWriting.cle.pacer.running = false :=
  ⟨by rintro bd ⟨⟩; decide +kernel, nofun, by decide +kernel⟩

/-- R70, R126: a placed granule is one decrease; at 1 the count is reloaded, the credits full already. -/
theorem witness_Item_completion_pacer_conclusion :
    (after (.finished 9 0 0 0) (partWritingPaced 2)).cle.pacer = ⟨.event, 7, 1, true, 8⟩
    ∧ (after (.finished 9 0 0 0) (partWritingPaced 1)).cle.pacer = ⟨.event, 7, 7, true, 8⟩ := by decide +kernel

theorem witness_Item_completion_fold :
    (partItem (foldItem 4) [liveRecord]).BandsSound ∧ (partItem (foldItem 4) [liveRecord]).MapCanonical
    ∧ (∀ bd, (partItem (foldItem 4) [liveRecord]).band? 0 = some bd →
      (partItem (foldItem 4) [liveRecord]).completesItem 2 writeOp (foldItem 4) [] 0 0 bd)
    ∧ (foldItem 4).work = .fold 4 [0] ∧ (partItem (foldItem 4) [liveRecord]).slu.overlayWait = []
    ∧ ((partItem (foldItem 4) [liveRecord]).entryOf 3).base < 4
    ∧ 1 ≤ ((partItem (foldItem 1) [liveRecord]).entryOf 3).base :=
  ⟨bandsSound_of (by decide +kernel), by decide +kernel, by rintro bd ⟨⟩; decide +kernel, by decide +kernel⟩

theorem witness_Item_completion_copy :
    (partItem (cleanItem 1) []).BandsSound ∧ (partItem (cleanItem 1) []).MapCanonical
    ∧ (∀ bd, (partItem (cleanItem 1) []).band? 0 = some bd →
      (partItem (cleanItem 1) []).completesItem 2 writeOp (cleanItem 1) [] 0 0 bd)
    ∧ (cleanItem 1).work = .clean ⟨11, 1⟩ ∧ ((partItem (cleanItem 1) []).entryOf 3).home = some ⟨11, 1⟩
    ∧ ((partItem (cleanItem 1) []).band? 11).map (fun bd => (bd.state, bd.slots[1]?)) = some (.full, some (.live 3))
    ∧ ((partItem (cleanItem 0) []).entryOf 3).home ≠ some ⟨11, 0⟩ :=
  ⟨bandsSound_of (by decide +kernel), by decide +kernel, by rintro bd ⟨⟩; decide +kernel, by decide +kernel⟩

/-- R46, R55, R56, R58: a fold above the base merges its record, one at the base leaves the granule; a copy of the home
moves it, one of another slot does not. -/
theorem witness_Item_completion_conclusion :
    (after (.finished 9 0 0 0) (partItem (foldItem 4) [liveRecord])).entryOf 3 = { home := some ⟨0, 0⟩, base := 4 }
    ∧ ((after (.finished 9 0 0 0) (partItem (foldItem 1) [liveRecord])).band? 0).map Band.slots = some [.dead]
    ∧ (after (.finished 9 0 0 0) (partItem (foldItem 1) [liveRecord])).slu.dir = [liveRecord]
    ∧ (after (.finished 9 0 0 0) (partItem (cleanItem 1) [])).entryOf 3 = { home := some ⟨0, 0⟩, base := 1 }
    ∧ ((after (.finished 9 0 0 0) (partItem (cleanItem 1) [])).band? 11).map Band.slots = some [.dead, .dead]
    ∧ ((after (.finished 9 0 0 0) (partItem (cleanItem 0) [])).band? 0).map Band.slots = some [.dead]
    ∧ ((after (.finished 9 0 0 0) partWriting).stream 2).exposed.map Exposed.slot = [0]
    ∧ (after (.finished 9 0 0 0) { partWriting with evu := (partWindow .all false).evu }).evu.watchQueue =
      [⟨3, 0x80#8, .store, none, some ⟨0, 0⟩⟩] := by decide +kernel

/-- The writing part with slot 0 of band 0 exposed, the STORE going to slot 1; with the pool empty if asked. -/
def partFaulting (pool : Bool) : State :=
  { (partWriting.setStream 2 { openBand := some 0, fifo := [storeItem], writing := some 1, exposed := [⟨0, 4, buffer⟩] }) with
    btu := { partWriting.btu with bands := emptyBands.map fun bd =>
      if bd.number = 0 then { bd with state := .opened, stream := some 2, frontier := 16, slots := [.dead] }
      else if pool then bd else { bd with state := .retired } } }

/-- The same with an open of stream 5 waiting though a band is EMPTY. -/
def partFaultingWaits : State :=
  { partFaulting true with btu := { (partFaulting true).btu with openWait := [5] } }

/-- The same at its completion limit, or at a second SERVO_LOST, two sectors of the run done before. -/
def partFaultingAt (stage : PortStage) : State :=
  { partFaulting true with mpt := { (partFaulting true).mpt with
      stage := stage, op := some { writeOp with sectorsDone := 2, servoUsed := true }, order := ⟨9, 2, 14⟩ } }

theorem witness_Write_fault_closes_band :
    (partFaulting true).BandsSound ∧ (partFaulting false).BandsSound ∧ partFaultingWaits.BandsSound
    ∧ partFaultingWaits.freeCount ≠ 0 ∧ partFaultingWaits.btu.openWait ≠ []
    ∧ ∀ p : Bool, (partFaulting p).mpt.op = some writeOp ∧ writeOp.isWrite = true
      ∧ ((partFaulting p).stream 2).writing = some 1 ∧ ((partFaulting p).stream 2).openPending = false
      ∧ ((partFaulting p).band? 0).map (fun bd => (bd.state, bd.frontier)) = some (.opened, 16) ∧ 16 ≤ 16 * 1 + 15
      ∧ (p = true ↔ (partFaulting p).freeCount ≠ 0) ∧ (partFaulting p).btu.openWait = [] :=
  ⟨bandsSound_of (by decide +kernel), bandsSound_of (by decide +kernel), bandsSound_of (by decide +kernel),
    by decide +kernel⟩

/-- The port a write fault leaves, so many counted failures more, of a cause. -/
def portAfter (s : State) (n : Nat) (cause : BitVec 4) : Mpt :=
  { s.mpt with stage := .idle, op := none, failures := s.mpt.failures + n, causes := s.mpt.causes ||| cause }

/-- The same with the exposed slot LIVE for its granule. -/
def partFaultingLive : State :=
  (partFaulting true).updBand 0 fun bd => { bd with slots := [.live 4] }

theorem witness_Write_fault_answers :
    (partFaulting true).writeFaults writeOp (.finished 9 3 0 15) 15 (portAfter (partFaulting true) 0 0)
    ∧ partFaultingWaits.writeFaults writeOp (.finished 9 2 0 15) 15 (portAfter partFaultingWaits 0 0)
    ∧ (partFaultingAt .running).writeFaults { writeOp with sectorsDone := 2, servoUsed := true } (.finished 9 4 20 0) 16
      (portAfter (partFaultingAt .running) 1 8)
    ∧ (partFaultingAt .aborting).writeFaults { writeOp with sectorsDone := 2, servoUsed := true } (.finished 9 1 13 0) 15
      (portAfter (partFaultingAt .aborting) 0 0)
    ∧ (partFaultingAt .aborting).writeFaults { writeOp with sectorsDone := 2, servoUsed := true } .abortLimitExpiry 16
      (portAfter (partFaultingAt .aborting) 1 4)
    ∧ partFaultingLive.BandsSound ∧ partFaultingLive.mpt.up = true
    ∧ partFaultingLive.writeFaults writeOp (.finished 9 3 0 15) 15 (portAfter partFaultingLive 0 0) :=
  ⟨.inl ⟨by decide +kernel, 3, 0, 15, by decide +kernel⟩, .inl ⟨by decide +kernel, 2, 0, 15, by decide +kernel⟩,
    .inl ⟨by decide +kernel, 4, 20, 0, by decide +kernel⟩,
    .inr ⟨by decide +kernel, by decide +kernel, .inl ⟨1, 13, 0, by decide +kernel⟩⟩,
    .inr ⟨by decide +kernel, by decide +kernel, .inr (by decide +kernel)⟩, bandsSound_of (by decide +kernel),
    by decide +kernel, .inl ⟨by decide +kernel, 3, 0, 15, by decide +kernel⟩⟩

/-- R79, R80: the frontier stops at the slot's last sector; a re-placement before the faulted item waits with the
open, and leaves at the grant where its slot is DEAD. -/
theorem witness_Write_fault_conclusion :
    ((after (.finished 9 3 0 15) (partFaulting false)).band? 0).map (fun bd => (bd.state, bd.frontier)) = some (.full, 31)
    ∧ ((after (.finished 9 3 0 15) (partFaulting false)).stream 2).fifo.map Item.lgn = [4, 3]
    ∧ (after (.finished 9 3 0 15) (partFaulting false)).btu.openWait = [2]
    ∧ ((after (.finished 9 3 0 15) (partFaulting true)).stream 2).fifo.map Item.lgn = [3]
    ∧ ((after (.finished 9 3 0 15) (partFaulting true)).stream 2).openBand = some 1
    ∧ (after (.finished 9 2 0 15) partFaultingWaits).btu.openWait = [5, 2]
    ∧ ((after (.finished 9 2 0 15) partFaultingWaits).stream 2).fifo.map Item.lgn = [4, 3]
    ∧ ((after (.finished 9 4 20 0) (partFaultingAt .running)).band? 0).map (fun bd => (bd.state, bd.frontier)) =
      some (.full, 31)
    ∧ ((after (.finished 9 1 10 0) (partFaultingAt .aborting)).band? 0).map (fun bd => (bd.state, bd.frontier)) =
      some (.full, 28)
    ∧ ((after .abortLimitExpiry (partFaultingAt .aborting)).band? 0).map (fun bd => (bd.state, bd.frontier)) =
      some (.full, 31)
    ∧ (after .abortLimitExpiry (partFaultingAt .aborting)).mpt = portAfter (partFaultingAt .aborting) 1 4
    ∧ ((after (.finished 9 3 0 15) partFaultingLive).stream 2).fifo.map Item.lgn = [4, 3]
    ∧ ((after (.finished 9 3 0 15) partFaultingLive).stream 2).writing = some 0 := by decide +kernel

/-- A part that holds one STORE. -/
def partHeld (why : HoldReason) : State :=
  { partWith [heldEntry why] with rqu := { (partWith [heldEntry why]).rqu with held := [7] } }

/-- A part with its pacer in RUN. -/
def partPacer (m : PacerMode) (count : Nat) : State :=
  { part with cle := { part.cle with pacer := ⟨m, 7, count, true, 8⟩ } }

theorem witness_Hold_expiry_tick_and_underflow :
    (partHeld .log).rqu.held.find? (partHeld .log).holdExpired = some 7 ∧ (partHeld .log).entry? 7 = some (heldEntry .log)
    ∧ part.cle.pacer.running = false ∧ (partPacer .event 1).cle.pacer.mode = .event
    ∧ (partPacer .time 2).cle.pacer.running = true ∧ (partPacer .time 2).cle.pacer.mode = .time
    ∧ 1 < (partPacer .time 2).cle.pacer.count ∧ (partPacer .time 1).cle.pacer.count = 1
    ∧ (partPacer .time 1).cle.pacer.running = true := by decide +kernel

/-- A STORE held for PRESSURE, its stream writing another item. -/
def partRelease : State := (partHeld .pressure).setStream 2 { writing := some 0 }

/-- A STORE held for LOG, the log used to a number of sectors. -/
def partLogHeld (used : Nat) : State := { partHeld .log with slu := { part.slu with used := used } }

theorem witness_Pressure_and_log_release :
    partRelease.btu.pressure = false ∧ partRelease.heldFor .pressure = [7]
    ∧ partRelease.rqu.entries = [heldEntry .pressure] ∧ (heldEntry .pressure).tag = 7
    ∧ (heldEntry .pressure).lgns = some (3, 3) ∧ partRelease.mpt.up = true
    ∧ (partRelease.stream (streamOf (heldEntry .pressure).stream)).writing.isSome = true
    ∧ (partLogHeld 57340).slu.logHeld = false ∧ (partLogHeld 57340).heldFor .log = [7]
    ∧ (partLogHeld 57340).rqu.entries = [heldEntry .log] ∧ (heldEntry .log).range = some (2, 3)
    ∧ (heldEntry .log).lgns = some (3, 3) ∧ (partLogHeld 57340).mpt.up = true
    ∧ ((partLogHeld 57340).entryOf 3).overlays < 8
    ∧ (partLogHeld 57340).slu.used + (3 + 1) ≤ softLimit (partLogHeld 57340).slu.area
    ∧ (partLogHeld 57340).slu.dir.length < 14336 ∧ (partLogHeld 57341).heldFor .log = [7]
    ∧ softLimit (partLogHeld 57341).slu.area < (partLogHeld 57341).slu.used + (3 + 1) := by decide +kernel

/-- Two STOREs held for PRESSURE, for streams 2 and 3 with no open band, R + 1 bands EMPTY. -/
def heldToo : Entry := { heldEntry .pressure with tag := 8, lgns := some (4, 4), stream := 3 }
def partReleases : State :=
  { part with
    btu := { part.btu with reserve := 11 }
    rqu := { part.rqu with entries := [heldToo, heldEntry .pressure], held := [8, 7] } }
def partReleaseOne : State := { partHeld .pressure with btu := { part.btu with reserve := 11 } }

theorem witness_Pressure_release_opens :
    partReleases.BandsSound ∧ partReleaseOne.BandsSound
    ∧ partReleaseOne.OpenTakes (streamOf 2) 0 { number := 0, zone := 0 }
    ∧ partReleases.OpenTakes (streamOf 3) 0 { number := 0, zone := 0 }
    ∧ partReleases.btu.pressure = false ∧ partReleases.btu.openWait = [] ∧ partReleases.mpt.up = true
    ∧ partReleases.heldFor .pressure = [8, 7] ∧ partReleases.freeCount = partReleases.btu.reserve + 1
    ∧ partReleases.Bare (streamOf 3) ∧ partReleases.Bare (streamOf 2) ∧ partReleaseOne.Bare (streamOf 2)
    ∧ partReleaseOne.heldFor .pressure = [7] ∧ partReleaseOne.rqu.entries = [heldEntry .pressure] :=
  ⟨bandsSound_of (by decide +kernel), bandsSound_of (by decide +kernel), openTakes_first (by decide +kernel),
    openTakes_first (by decide +kernel), by decide +kernel⟩

/-- R28, R66, R171: the first released STORE opens a band, which sets PRESSURE, and the second is held again. -/
theorem witness_Pressure_release_conclusion :
    (after .pressureRelease partReleases).rqu.entries.map (fun e => (e.tag, e.phase, e.holdTimer)) =
      [(8, .active, none), (7, .held, some 2000)]
    ∧ (after .pressureRelease partReleases).rqu.held = [7] ∧ (after .pressureRelease partReleases).btu.pressure = true
    ∧ ((after .pressureRelease partReleases).stream 3).fifo = [heldToo.placedItem 4]
    ∧ (after .pressureRelease partReleaseOne).evu.details[0] = 11
    ∧ (after .pressureRelease partReleaseOne).rqu.held = [] := by decide +kernel

theorem witness_Stream_set_result :
    part.admitsTag 1 ∧ part.ctl.mode = .online ∧ (partIn .quiescing).admitsTag 1 ∧ (partIn .quiescing).ctl.mode = .quiescing
    ∧ 7 < 8 ∧ 31 ≤ 31 ∧ 8 ≤ 8 ∧ 31 < 32 ∧ 30 < 31 := by decide +kernel

theorem witness_Pacer_set_result :
    (partIn .quiesced).admitsTag 1 ∧ (partIn .quiesced).ctl.mode ≠ .unformatted := by decide +kernel

/-- R196: a byte that is not listed is refused BAD_ARGUMENT, status 4, and no setting is changed. -/
theorem witness_Pacer_set_conclusion :
    ∀ i ∈ [Instr.pacerSet 1 2 1 1 9, .pacerSet 1 1 2 1 9, .pacerSet 1 1 1 2 9],
      lastStatus (after i part) = some (.num 4 4) ∧ (after i part).cle = part.cle := by decide +kernel

theorem witness_Mask_set_result :
    part.admitsTag 1 ∧ part.ctl.mode ≠ .unformatted ∧ 28 % 4 = 0 ∧ 28 < 32 ∧ 3 % 4 ≠ 0 ∧ 32 ≤ 32 := by decide +kernel

/-- R146: CLEAN resumes with its counter 0; unmasked before and after it keeps it; masked anew it is 0 (log entry 49). -/
theorem witness_Mask_set_conclusion :
    (after (.maskSet 1 4 0 100) { partQueued 5 with har := { (partQueued 5).har with mask := ⟨false, true, false⟩ } }).har.skip
      .clean = 0
    ∧ (after (.maskSet 1 4 0 100) (partQueued 5)).har.skip .clean = 5
    ∧ (after (.maskSet 1 12 0 100) (partQueued 5)).har.skip .clean = 0 := by decide +kernel

theorem witness_Watch_set_clear_result :
    part.admitsTag 1 ∧ part.ctl.mode ≠ .unformatted ∧ 7 < 8 ∧ 39 ≤ 39 ∧ 39 < part.gmu.lgnCount ∧ 8 ≤ 8 ∧ 38 < 39
    ∧ part.gmu.lgnCount ≤ 40 ∧ (WatchMode.moves.code ≠ 3 ∧ WatchMode.all.code ≠ 3 ∧ WatchMode.hold.code ≠ 3) := by
  decide +kernel

/-- R180, R196: window 8, mode 3, a range reversed, one past the last LGN. -/
theorem witness_Watch_set_clear_conclusion :
    ∀ i ∈ [Instr.watchSet 1 8 1 2 3, .watchSet 1 7 3 2 3, .watchSet 1 7 1 3 2, .watchSet 1 7 1 40 41, .watchClear 1 8],
      lastStatus (after i part) = some (.num 4 4) ∧ (after i part).evu = part.evu := by decide +kernel

theorem witness_Event_enable_and_ack_result :
    State.reset.admitsTag 1 ∧ 8191 < 8192 ∧ 8192 ≤ 8192 := by decide +kernel

/-- A part whose watch notice queue is full. -/
def partNotices : State :=
  { part with evu := { part.evu with watchQueue := List.replicate 64 ⟨0, 1#8, .fold, none, none⟩ } }

theorem witness_Watch_match_and_queue_result :
    part.evu.watchQueue.length < 64 ∧ 64 ≤ partNotices.evu.watchQueue.length ∧ partNotices.flu.waiting = [] := by
  decide +kernel

/-- R182: window 7 gets its mark at the overrun, window 0 had one; the detail is the set of both. -/
theorem witness_Watch_overrun_conclusion :
    (({ partNotices with evu := { partNotices.evu with windows :=
        (part.evu.windows.set 7 (some ⟨2, 3, .all, false⟩)).set 0 (some ⟨0, 1, .all, true⟩) } } : State).offerWatch
      ⟨3, 0x80#8, .store, none, none⟩).evu.details[12] = 0x81 := by decide +kernel

/-- R181: the window's bit is set where its range holds the LGN, its mode accepts the cause and its mark is clear. -/
theorem witness_Watch_match :
    (∀ w ∈ allWindows, (0x80#8).getLsbD w.val = true ↔ ∃ x, (partWindow .all false).evu.windows[w.val] = some x ∧ x.lo ≤ 3
      ∧ 3 ≤ x.hi ∧ (x.mode = .all ∨ HomeCause.store = .fold ∨ HomeCause.store = .clean ∨ HomeCause.store = .replace)
      ∧ x.overrun = false)
    ∧ ((partWindow .all false).homeChange 3 .store none none).evu.watchQueue = [⟨3, 0x80#8, .store, none, none⟩]
    ∧ ((partWindow .hold false).homeChange 3 .store none none) = partWindow .hold false
    ∧ ((partWindow .all true).homeChange 3 .store none none) = partWindow .all true := by
  refine ⟨?_, by decide +kernel⟩
  intro w _
  match w with
  | 0 | 1 | 2 | 3 | 4 | 5 | 6 => simp [partWindow, part]
  | 7 => simp [partWindow, part]

theorem witness_Inspect_result :
    part.admitsTag 1 ∧ part.ctl.mode ≠ .unformatted ∧ (part.reportZone 0).isSome = true ∧ part.btu.zones.length ≤ 1
    ∧ (part.reportBand 11).isSome = true ∧ part.btu.bands.length ≤ 12 ∧ (part.reportGranule 39).isSome = true
    ∧ part.gmu.lgnCount ≤ 40 ∧ (part.reportStream 8).isSome = true ∧ 8 < 9 ∧ State.reset.admitsTag 1
    ∧ State.reset.ctl.mode = .unformatted ∧ 13 ≠ 12 := by
  decide +kernel

theorem witness_Inspect_reply_layout :
    (part.reportZone 0).isSome = true ∧ part.btu.zones[0]? = some zone ∧ (part.reportBand 11).isSome = true
    ∧ (part.band? 11).isSome = true ∧ (part.reportGranule 39).isSome = true ∧ (part.reportStream 8).isSome = true
    ∧ (partWindow .hold true).evu.windows[7] = some ⟨2, 3, .hold, true⟩ ∧ (partWindow .hold true).evu.windows[6] = none := by
  decide +kernel

/-- R197: an OPEN band of stream 8 with a TORN slot; R198: windows 6, free, and 7, in HOLD mode, overrun. -/
theorem witness_Inspect_reply_layout_conclusion :
    ((partBand 1 fun bd => { bd with
      state := .opened, stream := some 8, frontier := 17, slots := [.live 4, .torn], retry := 5 }).reportBand 1).map
        (fun fs => bodyBytes (replyBody .done fs)) =
      some [0, 0, 0, 0, 1, 0, 0, 0, 0, 1, 8, 0xFF, 17, 0, 0, 0, 0, 1, 1, 0, 0, 0, 1, 0, 0, 0, 5, 0, 0, 0xFF, 0, 0,
        0, 0, 0, 0, 0, 0, 0, 0]
    ∧ (bodyBytes (replyBody .done (partWindow .hold true).reportEvent)).drop 136 =
      [0, 0xFF, 0, 0, 0xFF, 0xFF, 0xFF, 0xFF, 0xFF, 0xFF, 0xFF, 0xFF, 1, 2, 1, 0, 2, 0, 0, 0, 3, 0, 0, 0] := by
  decide +kernel

theorem witness_Effective_order_table : (partQueued 0).mpt.up = true ∧ (partQueued 0).mpt.stage = .idle
    ∧ (partQueued 0).har.choose (effectiveOrder (partQueued 0).btu.pressure (partQueued 0).slu.logHeld) = some .clean
    ∧ (partQueued 0).har.queue .clean = [{ readOp with cls := .clean }] := by decide +kernel

/-- The part with a LIVE record and a FOLD request outstanding. -/
def partLog : State :=
  { part with slu := { part.slu with dir := [liveRecord], used := 4, tail := 4, foldReqs := [⟨9, 1, 0, 0, 0⟩] } }

/-- A FULL band 11 of two slots no longer live, and a CLEAN of it listed. -/
def partFull : State :=
  { (partBand 11 fun bd => { bd with
      state := .full, frontier := 32, slots := [.dead, .torn], closeOrder := some 1, closeReason := some .capacity }) with
    cle := { part.cle with hostList := [(7, 11)] } }

/-- The same with nothing listed, the port UP or DOWN. -/
def partShut (up : Bool) : State :=
  { partFull with cle := part.cle, mpt := { part.mpt with up := up, failures := if up then 0 else 3 } }

theorem witness_Fold_and_clean_request_result :
    partLog.admitsTag 1 ∧ partLog.ctl.mode = .online ∧ 1 ≤ 65535 ∧ partLog.anyLiveRecord = true
    ∧ part.admitsTag 1 ∧ part.slu.fold = none ∧ part.anyLiveRecord = false ∧ part.band? 12 = none
    ∧ partFull.admitsTag 1 ∧ partFull.ctl.mode = .online ∧ (partFull.band? 11).map Band.state = some .full
    ∧ (∃ e ∈ partFull.cle.hostList, e.2 = 11) ∧ (part.band? 11).map Band.state = some .empty
    ∧ (∀ e ∈ part.cle.hostList, e.2 ≠ 11) ∧ (partShut true).admitsTag 1 ∧ (partShut true).ctl.mode = .online
    ∧ ((partShut true).band? 11).map Band.state = some .full ∧ (∀ e ∈ (partShut true).cle.hostList, e.2 ≠ 11)
    ∧ (partShut true).mpt.up = true ∧ (partShut false).admitsTag 1 ∧ (partShut false).mpt.up = false := by decide +kernel

/-- R101: a FOLD of count 0 is refused, status 4, and joins no list. -/
theorem witness_Fold_request_conclusion :
    lastStatus (after (.fold 1 0) partLog) = some (.num 4 4) ∧ (after (.fold 1 0) partLog).slu = partLog.slu := by
  decide +kernel

/-- A part with R + 2 EMPTY bands, and one whose last band is RETIRED. -/
def partSpare : State := { part with btu := { part.btu with reserve := 10 } }
def partRetired : State := partBand 11 fun bd => { bd with state := .retired }
/-- A part with R + 1 EMPTY bands. -/
def partTight : State := { part with btu := { part.btu with reserve := 11 } }

theorem witness_Qualify_accepted :
    partSpare.admitsTag 1 ∧ partSpare.ctl.mode = .online
    ∧ (partSpare.band? 11).map (fun bd => (bd.number, bd.state)) = some (11, .empty) ∧ partSpare.qen.qual = none
    ∧ partSpare.mpt.up = true ∧ partSpare.btu.reserve + 2 = partSpare.freeCount ∧ partRetired.admitsTag 1
    ∧ partRetired.ctl.mode = .online ∧ partRetired.qen.qual = none ∧ partRetired.mpt.up = true
    ∧ (partRetired.band? 11).map (fun bd => (bd.number, bd.state)) = some (11, .retired) := by decide +kernel

/-- A qualification, and its run. -/
def qual : Qual := { band := 11, threshold := 3 }
def qualOp : MediaOp := { readOp with cls := .qualify, origin := .qual, tag := none }

/-- A part that qualifies band 11, its run in progress or not. -/
def partQual (q : Qual) (stage : PortStage) : State :=
  { (if stage = .idle then part else partPort stage qualOp) with qen := { part.qen with qual := some q } }

/-- A part with a qualification's run queued while a read of another owner is in progress. -/
def partQualQueued : State :=
  { partQual qual .idle with
    mpt := (partPort .running readOp).mpt, har := { part.har with queues := part.har.queues.set 4 [qualOp] } }

/-- A part that qualifies band 11, RETIRED before, its run queued and nothing in progress. -/
def partQualIdle : State :=
  { partQual qual .idle with
    btu := (partBand 11 fun bd => { bd with state := .qualifying, prior := some .retired }).btu
    har := { part.har with queues := part.har.queues.set 4 [qualOp] } }

theorem witness_Qualify_refusals :
    (partIn .quiescing).admitsTag 1 ∧ (partIn .quiescing).ctl.mode ≠ .online ∧ part.admitsTag 1
    ∧ part.ctl.mode = .online ∧ part.btu.bands.length ≤ 12 ∧ (partFull.band? 11).isSome = true ∧ 2 ≤ 2 ∧ 1 < 2
    ∧ (partQual qual .idle).admitsTag 1 ∧ (partQual qual .idle).ctl.mode = .online
    ∧ (partQual qual .idle).qen.qual ≠ none ∧ (partShut false).admitsTag 1 ∧ (partShut false).ctl.mode = .online
    ∧ (partShut false).qen.qual = none ∧ (partShut false).mpt.up = false ∧ partTight.admitsTag 1
    ∧ partTight.ctl.mode = .online ∧ partTight.qen.qual = none ∧ partTight.mpt.up = true
    ∧ (partTight.band? 0).map Band.state = some .empty ∧ partTight.freeCount ≤ partTight.btu.reserve + 1
    ∧ (partShut true).admitsTag 1 ∧ (partShut true).qen.qual = none ∧ (partShut true).mpt.up = true
    ∧ ((partShut true).band? 11).map Band.state = some .full := by decide +kernel

/-- R35, R134, R196: statuses 4 BAD_ARGUMENT, 5 WRONG_STATE, 6 NO_SPACE, 9 MEDIA_DOWN and 10 BUSY, and no band changed. -/
theorem witness_Qualify_refusals_conclusion :
    ∀ p ∈ [(partIn .quiescing, 11, 1, 5), (part, 12, 1, 4), (part, 11, 2, 4), (partQual qual .idle, 11, 1, 10),
        (partShut false, 11, 1, 9), (partTight, 0, 1, 6), (partShut true, 11, 1, 5)],
      lastStatus (after (.qualify 1 p.2.1 3 p.2.2.1) p.1) = some (.num 4 p.2.2.2)
      ∧ (after (.qualify 1 p.2.1 3 p.2.2.1) p.1).btu = p.1.btu := by decide +kernel

theorem witness_Qualify_stop :
    part.admitsTag 1 ∧ part.ctl.mode ≠ .unformatted ∧ part.qen.qual = none
    ∧ (partQual { qual with stopTag := some 9 } .idle).admitsTag 1
    ∧ (partQual { qual with stopTag := some 9 } .idle).qen.qual = some { qual with stopTag := some 9 }
    ∧ (partQual qual .running).admitsTag 1 ∧ (partQual qual .running).qen.qual = some qual ∧ qual.stopTag = none
    ∧ (partQual qual .running).mpt.op = some qualOp ∧ qualOp.origin = .qual ∧ partQualQueued.admitsTag 1
    ∧ partQualQueued.qen.qual = some qual ∧ partQualQueued.mpt.op = some readOp ∧ readOp.origin ≠ .qual := by
  decide +kernel

/-- The same with band 11's prior state and R as given, PRESSURE set. -/
def partQualPrior (prior : BandState) (reserve : Nat) : State :=
  { partQualIdle with btu := { part.btu with
      reserve := reserve, pressure := true, bands := (partBand 11 fun bd => { bd with
        state := .qualifying, prior := some prior, retry := 5, fatigue := 1 }).btu.bands } }

theorem witness_Qualify_stop_band : ∀ p ∈ [(BandState.retired, 2), (.empty, 10), (.empty, 11)],
    (partQualPrior p.1 p.2).admitsTag 1 ∧ (partQualPrior p.1 p.2).ctl.mode ≠ .unformatted
    ∧ (partQualPrior p.1 p.2).qen.qual = some qual ∧ (partQualPrior p.1 p.2).mpt.op = none
    ∧ ((partQualPrior p.1 p.2).band? 11).map (fun bd => (bd.state, bd.prior)) = some (.qualifying, some p.1) := by
  decide +kernel

/-- R29, R36, R139: the band of a stopped qualification is as before, its counters kept; PRESSURE clears where it joins
the pool and the free count is R + 2. -/
theorem witness_Qualify_stop_band_conclusion : ∀ p ∈ [(BandState.retired, 2), (.empty, 10), (.empty, 11)],
    ((after (.qualifyStop 1) (partQualPrior p.1 p.2)).band? 11).map
      (fun bd => (bd.state, bd.prior, bd.retry, bd.fatigue)) = some (p.1, none, 5, 1)
    ∧ (after (.qualifyStop 1) (partQualPrior p.1 p.2)).btu.pressure = decide (p.2 ≠ 10) := by decide +kernel

/-- A qualification's run in progress, a write or a read of a track, with a stop pending or not. -/
def qualAt (pass : QualPass) (track : Nat) (stop : Bool) (faults : List (Nat × Nat)) : Qual :=
  { qual with pass := pass, track := track, errors := 1, tracksDone := track, stop := stop, faults := faults
              stopTag := if stop then some 7 else none, run := some (10, 6) }
def partTrack (stage : PortStage) (q : Qual) (o : MediaOp) : State :=
  { partPort stage o with
    btu := (partBand 11 fun bd => { bd with state := .qualifying, prior := some .retired }).btu
    qen := { qual := some q, buffer := List.replicate 16 [] }
    rqu := { part.rqu with entries := [{ storeEntry with code := codeQualifyStop, phase := .active }] } }
def qualWrite : MediaOp := { qualOp with isWrite := true, servoUsed := true }

theorem witness_Qualify_tracks :
    (∀ p ∈ [(0, true, []), (0, false, []), (15, false, [(0, 2)])],
      (partTrack .running (qualAt .write p.1 p.2.1 p.2.2) qualWrite).qualRuns qualWrite (qualAt .write p.1 p.2.1 p.2.2)
      ∧ (partTrack .running (qualAt .write p.1 p.2.1 p.2.2) qualWrite).mpt.stage = .running
      ∧ (p.1 + 1 = 16 ↔ p.2.2 ≠ []))
    ∧ (part.geo 11).tpb = 16 ∧ (part.geo 11).spt = 256 ∧ (qualAt .write 15 false [(0, 2)]).Spans 0 256 2
    ∧ (qualAt .read 4 false [(0, 2)]).Spans 5 256 256
    ∧ (∀ stop, (partTrack .running (qualAt .read 4 stop [(0, 2)]) qualOp).qualRuns qualOp (qualAt .read 4 stop [(0, 2)]))
    ∧ (partTrack .running (qualAt .write 0 false []) qualWrite).writeFaults qualWrite (.finished 9 3 0 12) 2
      { (partTrack .running (qualAt .write 0 false []) qualWrite).mpt with stage := .idle, op := none }
    ∧ (partTrack .aborting (qualAt .write 0 false []) qualWrite).writeFaults qualWrite .abortLimitExpiry 6
      { (partTrack .aborting (qualAt .write 0 false []) qualWrite).mpt with
        stage := .idle, op := none, failures := 1, causes := 4 } :=
  ⟨by decide +kernel, by decide +kernel, by decide +kernel, by decide +kernel, by decide +kernel, by decide +kernel,
    .inl ⟨by decide +kernel, 3, 0, 12, by decide +kernel⟩,
    .inr ⟨by decide +kernel, by decide +kernel, .inr (by decide +kernel)⟩⟩

/-- R136, R137, R139: the write of track 0 ends and track 1 is written; at a fault of sector 12 its 244 sectors are errors,
at an unanswered ABORT those from the run's first sector 10; after track 15 the read pass reads the two sectors of
track 0 before its fault; with a stop pending the band is RETIRED again and the stop answered. -/
theorem witness_Qualify_tracks_conclusion :
    ((after (.finished 9 0 0 0) (partTrack .running (qualAt .write 0 false []) qualWrite)).har.queue .qualify).map
      MediaOp.run = [⟨true, .band 11, 4096 + 11 * 17 + 1, 0, 256, 0, none⟩]
    ∧ (after (.finished 9 3 0 12) (partTrack .running (qualAt .write 0 false []) qualWrite)).qen.qual.map
      (fun q => (q.errors, q.faults, q.tracksDone, q.run)) = some (245, [(0, 12)], 1, some (0, 256))
    ∧ (after .abortLimitExpiry (partTrack .aborting (qualAt .write 0 false []) qualWrite)).qen.qual.map
      (fun q => (q.errors, q.faults)) = some (247, [(0, 10)])
    ∧ ((after (.finished 9 0 0 0) (partTrack .running (qualAt .write 15 false [(0, 2)]) qualWrite)).har.queue .qualify).map
      MediaOp.run = [⟨false, .band 11, 4096 + 11 * 17, 0, 2, 0, none⟩]
    ∧ ((after (.finished 9 0 0 0) (partTrack .running (qualAt .read 4 false [(0, 2)]) qualOp)).har.queue .qualify).map
      MediaOp.run = [⟨false, .band 11, 4096 + 11 * 17 + 5, 0, 256, 0, none⟩]
    ∧ (after (.finished 9 0 0 0) (partTrack .running (qualAt .write 0 true []) qualWrite)).qen.last =
      some ⟨11, 1, 1, .stopped⟩
    ∧ ((after (.finished 9 0 0 0) (partTrack .running (qualAt .write 0 true []) qualWrite)).band? 11).map Band.state =
      some .retired
    ∧ (after (.finished 9 0 0 0) (partTrack .running (qualAt .read 4 true [(0, 2)]) qualOp)).qen.last =
      some ⟨11, 7, 5, .stopped⟩
    ∧ (after (.finished 9 0 0 0) (partTrack .running (qualAt .read 4 true [(0, 2)]) qualOp)).rqu.entries = [] := by
  decide +kernel

/-- The last track's read run of a qualification of band 11 with one error so far, its buffer as given. -/
def partGrading (threshold : Nat) (buf : List Sector) : State :=
  { (partQual { qual with threshold := threshold, pass := .read, track := 15, errors := 1, tracksDone := 15 } .running) with
    btu := (partBand 11 fun bd => { bd with state := .qualifying, prior := some .empty, retry := 5, fatigue := 1 }).btu
    qen := { qual := some { qual with threshold := threshold, pass := .read, track := 15, errors := 1, tracksDone := 15 }
             buffer := buf } }

theorem witness_Qualify_grade :
    (partGrading 3 []).mpt.stage = .running ∧ (partGrading 3 []).mpt.op = some qualOp ∧ qualOp.origin = .qual
    ∧ qualOp.cls = .qualify ∧ qualOp.isWrite = false
    ∧ (partGrading 3 []).qen.qual.map (fun q => (q.stop, q.track + 1)) = some (false, ((partGrading 3 []).geo 11).tpb)
    ∧ ((partGrading 3 []).band? 11).map Band.state = some .qualifying := by decide +kernel

/-- R138: at the threshold the band is EMPTY with its counts 0 and the outcome PASSED; past it RETIRED with its event.
-/
theorem witness_Qualify_grade_conclusion :
    ((after (.finished 9 0 0 0) (partGrading 1 (List.replicate 16 []))).qen.last.map LastResult.outcome) = some .retired
    ∧ (after (.finished 9 0 0 0) (partGrading 1 (List.replicate 16 []))).evu.flags = 2080#13
    ∧ ((after (.finished 9 0 0 0) (partGrading 7 (List.replicate 16 []))).band? 11).map
      (fun bd => (bd.state, bd.retry, bd.fatigue)) = some (.empty, 0, 0) := by decide +kernel

/-- R139: the queued run is withdrawn and the qualification ends STOPPED, the other read going on. -/
theorem witness_Qualify_stop_conclusion :
    (after (.qualifyStop 1) partQualQueued).qen.last.map LastResult.outcome = some .stopped
    ∧ (after (.qualifyStop 1) partQualQueued).har.queue .qualify = []
    ∧ (after (.qualifyStop 1) partQualQueued).mpt.op = some readOp := by decide +kernel

/-- A DOWN port, and one that is PROBING for a MEDIA_RESTART. -/
def partDown : State := { part with mpt := { part.mpt with up := false, failures := 3 } }
def partProbing : State :=
  { partDown with
    mpt := { partDown.mpt with stage := .probing, restartTag := some 7 }, rqu := { part.rqu with entries := [storeEntry] } }

theorem witness_Restart_probe_and_completion_limit :
    part.admitsTag 1 ∧ part.mpt.up = true ∧ partProbing.admitsTag 1 ∧ partProbing.mpt.up = false
    ∧ partProbing.mpt.stage = .probing ∧ partDown.admitsTag 1 ∧ partDown.mpt.stage = .idle
    ∧ (partPort .running readOp).mpt.stage = .running ∧ partProbing.mpt.op = none
    ∧ partProbing.mpt.restartTag = some 7 ∧ (partProbing.entry? 7).isSome = true ∧ 1 ≤ 4 ∧ 4 ≤ 4 := by decide +kernel

/-- A log half used with no FOLD outstanding, one sector short of it, and one whose partial STORE waits for an overlay. -/
def partLogUsed (used : Nat) : State := { partLog with slu := { partLog.slu with used := used, foldReqs := [] } }
def partOverlay : State :=
  { partIn .quiescing with
    slu := { part.slu with
      dir := [{ liveRecord with lgn := 9 }, { liveRecord with pos := 4 }], used := 8, tail := 8, overlayWait := [7] }
    rqu := { part.rqu with entries := [partialEntry] } }

theorem witness_Fold_choice :
    partLog.foldsFor 3 ∧ (partLogUsed 32768).foldsFor 3 ∧ partOverlay.foldsFor 3
    ∧ (∀ p ∈ [partLog, partLogUsed 32768, partOverlay], p.slu.fold = none ∧ p.mpt.up = true
      ∧ ∃ x ∈ p.slu.dir, x.lgn = 3 ∧ x.state = .live) ∧ (partShut false).mpt.up = false :=
  ⟨⟨.inl rfl, .inr (by decide +kernel)⟩, ⟨.inl rfl, .inr (by decide +kernel)⟩,
    ⟨.inr rfl, .inl ⟨7, [], partialEntry, by decide +kernel⟩⟩, by decide +kernel⟩

/-- R100: the granule of the STORE that waits, though another's record is nearer the head; the log half used, and one
sector less; half used in QUIESCING. -/
theorem witness_Fold_choice_conclusion :
    (after .foldChoice partOverlay).slu.fold.map (fun f => (f.lgn, f.sources.map FoldSource.pos)) = some (3, [4])
    ∧ (after .foldChoice (partLogUsed 32768)).slu.fold.map Fold.lgn = some 3
    ∧ after .foldChoice (partLogUsed 32767) = partLogUsed 32767
    ∧ (after .foldChoice { partLogUsed 32768 with ctl := partOverlay.ctl }).slu.fold = none := by decide +kernel

/-- Two records of granule 3, sectors 2 to 4 across the log's end and the newer 8 and 9, with its home on band 11. -/
def splitRecords : List Record :=
  [{ liveRecord with pos := 65534 }, { liveRecord with pos := 2, len := 3, first := 8, count := 2, sequence := 7, stream := 5 }]
def partMerging (records : List Record) : State :=
  { partHome .full records with
    slu := { part.slu with dir := records, head := 65534, used := 7, tail := 5, foldReqs := [⟨9, 1, 0, 0, 0⟩] } }

/-- The same with the home copy held, with no home, and with every sector in the log. -/
def partMergingHeld : State := (partMerging splitRecords).setStream 2 { openBand := some 11, exposed := [⟨1, 3, buffer⟩] }
def partMergingBare : State := (partMerging splitRecords).setEntryOf 3 { overlays := 2, newest := some 2 }
def wholeRecords : List Record :=
  [{ liveRecord with pos := 65534, len := 9, first := 0, count := 8 },
    { liveRecord with pos := 7, len := 9, first := 8, count := 8, sequence := 7 }]

theorem witness_Fold_choice_reads :
    (∀ s ∈ [partMerging splitRecords, partMergingHeld, partMergingBare],
      s.foldsFor 3 ∧ s.slu.fold = none ∧ s.mpt.up = true
      ∧ (s.slu.dir.filter fun x => decide (x.lgn = 3) && decide (x.state = .live)) = splitRecords)
    ∧ ((List.range 16).filter fun j => decide (∀ x ∈ splitRecords, j < x.first ∨ x.first + x.count ≤ j)) =
      [0, 1, 5, 6, 7, 10, 11, 12, 13, 14, 15]
    ∧ MaximalRuns [0, 1, 5, 6, 7, 10, 11, 12, 13, 14, 15] [(0, 2), (5, 3), (10, 6)]
    ∧ ((partMerging splitRecords).entryOf 3).home = some ⟨11, 1⟩ ∧ (partMerging splitRecords).heldCopy ⟨11, 1⟩ = none
    ∧ ((partMerging splitRecords).band? 11).map Band.state = some .full ∧ partMergingHeld.heldCopy ⟨11, 1⟩ = some buffer
    ∧ (partMergingBare.entryOf 3).home = none
    ∧ (partMerging wholeRecords).foldsFor 3 ∧ ((List.range 16).filter fun j =>
      decide (∀ x ∈ wholeRecords, j < x.first ∨ x.first + x.count ≤ j)) = [] :=
  ⟨by
    intro s hs
    simp only [List.mem_cons, List.not_mem_nil, or_false] at hs
    rcases hs with rfl | rfl | rfl <;> exact ⟨⟨.inl rfl, .inr (by decide +kernel)⟩, by decide +kernel⟩,
    by decide +kernel, by decide +kernel, by decide +kernel, by decide +kernel, by decide +kernel, by decide +kernel,
    by decide +kernel, ⟨.inl rfl, .inr (by decide +kernel)⟩, by decide +kernel⟩

/-- R8, R37, R86, R96, R99, R102: the records' runs in log order, the log's end cutting the first, then the home's; the
newest record's stream is the target. -/
theorem witness_Fold_choice_reads_conclusion :
    ((after .foldChoice (partMerging splitRecords)).har.queue .fold).map (fun o => (o.target, o.track, o.first, o.count,
      o.place)) = [(.staging, 255, 254, 2, 0), (.staging, 0, 0, 2, 2), (.staging, 0, 2, 3, 0),
        (.band 11, 4283, 16, 2, 0), (.band 11, 4283, 21, 3, 5), (.band 11, 4283, 26, 6, 10)]
    ∧ (after .foldChoice (partMerging splitRecords)).slu.dir.map Record.readers = [2, 1]
    ∧ ((after .foldChoice (partMerging splitRecords)).band? 11).map Band.readers = some 3
    ∧ (after .foldChoice (partMerging splitRecords)).slu.fold.map
      (fun f => (f.generation, f.target, f.homeSource, f.homeLeft, f.sources.map FoldSource.left)) =
      some (7, 5, .slot ⟨11, 1⟩, 3, [2, 1]) := by decide +kernel

/-- R48, R102: a held copy, no home and nothing uncovered add no run. -/
theorem witness_Fold_choice_no_home_read :
    (∀ s ∈ [partMergingHeld, partMergingBare, partMerging wholeRecords],
      ((after .foldChoice s).har.queue .fold).all (fun o => decide (o.target = .staging)) = true
      ∧ (after .foldChoice s).btu.bands = s.btu.bands)
    ∧ (after .foldChoice partMergingHeld).slu.fold.map Fold.homeSource = some .held
    ∧ (after .foldChoice partMergingBare).slu.fold.map Fold.homeSource = some .none
    ∧ (after .foldChoice (partMerging wholeRecords)).slu.fold.map Fold.homeSource = some .none := by decide +kernel

/-- A granule buffer whose sector `j` is the one byte `v + j`. -/
def marked (v : Nat) : Granule := Vector.ofFn fun j : Fin 16 => [BitVec.ofNat 8 (v + j.val)]

/-- A fold of granule 3 with its record of sectors 2 to 4 read, its header as given, and the home copy. -/
def foldSource (header : Sector) (left : Nat) : FoldSource :=
  { pos := 0, len := 4, first := 2, count := 3, sequence := 4, left := left, buffer := granulePut (marked 100) 0 header }
def foldOf (source : FoldSource) (homeLeft : Nat) : Fold :=
  { stage := .reading, lgn := 3, sources := [source], generation := 4, target := 2, covered := [2, 3, 4]
    homeSource := .slot ⟨11, 1⟩, homeBuffer := marked 0, homeLeft := homeLeft }

/-- A part with a read of that fold in progress, another LIVE record in the log and a FOLD of two outstanding. -/
def partFolding (f : Fold) (origin : Origin) (target : Target) (retries : Nat) : State :=
  { (partHome .full [liveRecord]).setStream 2 { writing := some 0 } with
    mpt := (partPort .running { readOp with
      cls := .fold, origin := origin, target := target, tag := none, retries := retries }).mpt
    slu := { part.slu with
      dir := [liveRecord, { liveRecord with pos := 4, lgn := 9 }], used := 8, tail := 8, fold := some f
      foldReqs := [⟨9, 2, 0, 0, 0⟩] } }

/-- The header of that record, as R201 lays it out. -/
def headerRead : Sector := [3, 0, 0, 0, 2, 3, 2, 0, 4, 0, 0, 0, 0, 0, 0, 0]

/-- The last run of the home copy, and of the record with its header as read. -/
def partFoldHome : State := partFolding (foldOf (foldSource [] 0) 1) .foldHome (.band 11) 8
def partFoldRecord (header : Sector) : State :=
  partFolding (foldOf (foldSource header 1) 0) (.foldRecord 0) .staging 8

/-- The home copy's last run with the granule at home in another slot by now, and no FOLD outstanding. -/
def partFoldMoved : State :=
  { partFoldHome.setEntryOf 3 { home := some ⟨11, 0⟩ } with slu := { partFoldHome.slu with foldReqs := [] } }

theorem witness_Fold_home_read :
    partFoldHome.foldReads { readOp with
      cls := .fold, origin := .foldHome, target := .band 11, tag := none, retries := 8 } (foldOf (foldSource [] 0) 1)
    ∧ (∀ y ∈ (foldOf (foldSource [] 0) 1).sources, y.left = 0) ∧ (partFoldHome.stream 2).writing.isSome = true
    ∧ partFoldHome.MapCanonical ∧ (partFoldHome.entryOf 3).home = some ⟨11, 1⟩
    ∧ partFoldMoved.foldReads { readOp with
      cls := .fold, origin := .foldHome, target := .band 11, tag := none, retries := 8 } (foldOf (foldSource [] 0) 1)
    ∧ (partFoldMoved.entryOf 3).home = some ⟨11, 0⟩ ∧ partFoldMoved.slu.overlayWait = []
    ∧ partFoldMoved.slu.foldReqs = [] := by decide +kernel

theorem witness_Fold_record_read :
    (partFoldRecord headerRead).foldReads { readOp with
      cls := .fold, origin := .foldRecord 0, target := .staging, tag := none, retries := 8 }
        (foldOf (foldSource headerRead 1) 0)
    ∧ headerMatches (granuleGet (foldSource headerRead 1).buffer 0) 3 2 3 4 = true
    ∧ headerMatches (granuleGet (foldSource [] 1).buffer 0) 3 2 3 4 = false
    ∧ (partFoldRecord []).MapCanonical ∧ (partFoldRecord []).record? 0 = some liveRecord
    ∧ (∃ z ∈ (partFoldRecord []).slu.dir, z.pos ≠ 0 ∧ z.state = .live)
    ∧ (partFoldRecord []).slu.foldReqs = [⟨9, 2, 0, 0, 0⟩] := by decide +kernel

/-- R103, R104: sectors 2 to 4 from the record, past its header, the rest from the home copy, or zero where that is
lost; a header that does not match gives the record up and abandons the fold. -/
theorem witness_Fold_reads_conclusion :
    ((after (.finished 9 0 0 0) partFoldHome).stream 2).fifo.map (fun it => it.content.toList) =
      [[[0], [1], [101], [102], [103], [5], [6], [7], [8], [9], [10], [11], [12], [13], [14], [15]]]
    ∧ ((after (.finished 9 2 0 13) partFoldHome).stream 2).fifo.map (fun it => (it.work, it.content.toList.map List.head?)) =
      [(.fold 4 [0], [some 0, some 0, some 101, some 102, some 103] ++ List.replicate 11 (some 0))]
    ∧ (after (.finished 9 2 0 13) partFoldMoved).slu.fold = none
    ∧ (after (.finished 9 2 0 13) partFoldHome).entryOf 3 = { base := 1, overlays := 1, newest := some 0, lost := true }
    ∧ (after (.finished 9 0 0 0) (partFoldRecord headerRead)).slu.fold.map Fold.stage = some .writing
    ∧ (∀ st ∈ [0, 2], (after (.finished 9 st 0 13) (partFoldRecord [])).slu.foldReqs = [⟨9, 2, 0, 0, 1⟩]
      ∧ (after (.finished 9 st 0 13) (partFoldRecord [])).slu.dir.map Record.pos = [4]
      ∧ (after (.finished 9 st 0 13) (partFoldRecord [])).entryOf 3 = { home := some ⟨11, 1⟩, base := 1 }) := by
  decide +kernel

/-- A FULL band 11 with a LIVE slot and a CLEAN of it listed, granules 3 in a HOLD window or not. -/
def partVictim (held : Bool) : State :=
  { (partBand 11 fun bd => { bd with
      state := .full, frontier := 32, slots := [.dead, .live 3], closeOrder := some 1, closeReason := some .capacity }) with
    cle := { part.cle with hostList := [(7, 11)] }
    rqu := { part.rqu with entries := [{ storeEntry with code := codeClean, phase := .active }] }
    evu := if held then (partWindow .hold false).evu else part.evu }

theorem witness_Victim_choice_host :
    partFull.BandsSound ∧ (partVictim true).BandsSound
    ∧ (∀ p ∈ [partFull, partVictim true, partVictim false], p.cle.stage = .idle ∧ p.mpt.up = true
      ∧ p.ctl.mode = .online ∧ p.cle.hostList = [(7, 11)])
    ∧ (partFull.band? 11).map (fun bd => (bd.state, bd.slots)) = some (.full, [.dead, .torn])
    ∧ ((partVictim true).band? 11).map (fun bd => (bd.state, bd.slots)) = some (.full, [.dead, .live 3])
    ∧ (partVictim true).inHoldWindow 3 = true ∧ ((partVictim true).entry? 7).isSome = true
    ∧ (partVictim false).inHoldWindow 3 = false ∧ ((partVictim false).band? 11).map Band.slots = some [.dead, .live 3] :=
  ⟨bandsSound_of (by decide +kernel), bandsSound_of (by decide +kernel), by decide +kernel⟩

/-- The same with another CLEAN listed before it, of a band that is EMPTY by now, and with that one alone in QUIESCING. -/
def partShutSince : State :=
  { partVictim false with
    cle := { part.cle with hostList := [(9, 4), (7, 11)] }
    rqu := { part.rqu with entries := { storeEntry with tag := 9, code := codeClean } :: (partVictim false).rqu.entries } }
def partShutAlone : State :=
  { partIn .quiescing with
    cle := { part.cle with hostList := [(9, 4)] }
    rqu := { part.rqu with entries := [{ storeEntry with tag := 9, code := codeClean }] } }

theorem witness_Victim_choice_not_full :
    partShutSince.cle.stage = .idle ∧ partShutSince.mpt.up = true ∧ partShutSince.ctl.mode = .online
    ∧ partShutSince.cle.hostList = [(9, 4), (7, 11)] ∧ (partShutSince.entry? 9).isSome = true
    ∧ (∀ bd ∈ partShutSince.band? 4, bd.state ≠ .full) ∧ partShutAlone.cle.stage = .idle
    ∧ partShutAlone.mpt.up = true ∧ partShutAlone.ctl.mode = .quiescing ∧ partShutAlone.cle.hostList = [(9, 4)]
    ∧ (partShutAlone.entry? 9).isSome = true ∧ (∀ bd ∈ partShutAlone.band? 4, bd.state ≠ .full)
    ∧ partShutAlone.btu.pressure = false := by decide +kernel

/-- R117: the first is replied WRONG_STATE, status 5, and the next one's band is the victim. -/
theorem witness_Victim_choice_not_full_conclusion :
    (after .victimChoice partShutSince).flu.outbound = [replyFrame codeClean 9 false .wrongState []]
    ∧ (after .victimChoice partShutSince).cle.victim.map (fun v => (v.band, v.tag)) = some (11, some 7)
    ∧ lastStatus (after .victimChoice partShutAlone) = some (.num 4 5)
    ∧ (after .victimChoice partShutAlone).rqu.entries = [] := by decide +kernel

/-- R118, R123: with every LIVE slot in a HOLD window the band is FULL again with its mark set and the CLEAN is replied;
with one outside, its batch is under way. -/
theorem witness_Victim_choice_conclusion :
    ((after .victimChoice (partVictim true)).band? 11).map (fun bd => (bd.state, bd.holdBlocked)) = some (.full, true)
    ∧ (after .victimChoice (partVictim true)).flu.outbound.map OutFrame.body =
      [[.num 4 0, .num 4 11, .num 1 2, .num 3 0, .num 2 0, .num 2 0, .num 2 0, .num 2 1]]
    ∧ (after .victimChoice (partVictim false)).cle.stage = .batch := by decide +kernel

/-- Bands 4 and 11 FULL of two slots with one LIVE, band 11 closed later; bands on the refresh list, credits, PRESSURE. -/
def partOwn (refresh : List Nat) (credits : Nat) (pressure : Bool) : State :=
  { part with
    btu := { part.btu with refresh := refresh, pressure := pressure, bands := emptyBands.map fun bd =>
      if bd.number = 4 ∨ bd.number = 11 then
        { bd with state := .full, frontier := 32, slots := [.dead, .live bd.number], closeOrder := some bd.number }
      else bd }
    cle := { part.cle with pacer := { part.cle.pacer with credits := credits } } }

theorem witness_Victim_choice_own :
    (partOwn [0, 11] 1 false).BandsSound ∧ part.BandsSound
    ∧ (∀ bd, (partOwn [0, 11] 1 false).band? 11 = some bd → (partOwn [0, 11] 1 false).OwnCandidate 11 bd .refresh
      ∧ .live 11 ∈ bd.slots ∧ (partOwn [0, 11] 1 false).inHoldWindow 11 = false)
    ∧ (partOwn [0, 11] 1 false).cle.stage = .idle ∧ (partOwn [0, 11] 1 false).mpt.up = true
    ∧ (partOwn [0, 11] 1 false).ctl.mode = .online ∧ (partOwn [0, 11] 1 false).cle.hostList = []
    ∧ 1 ≤ (partOwn [0, 11] 1 false).cle.pacer.credits ∧ (partOwn [] 0 true).btu.pressure = true
    ∧ part.cle.pacer.credits = 0 ∧ part.btu.pressure = false := by
  refine ⟨bandsSound_of (by decide +kernel), bandsSound_of (by decide +kernel), ?_, by decide +kernel⟩
  rintro bd ⟨⟩
  exact ⟨⟨by decide +kernel, [0], [], by decide +kernel, by simp [partOwn, State.band?, emptyBands]⟩, by decide +kernel⟩

/-- R116: among equal ratios the lower close order, band 4, is the scored candidate. -/
theorem witness_Victim_choice_scored :
    ∀ bd, (partOwn [] 0 true).band? 4 = some bd → (partOwn [] 0 true).Scored bd
      ∧ (∀ k : Fin 12, ∀ bk ∈ (partOwn [] 0 true).band? k, (partOwn [] 0 true).Scored bk → k.val ≠ 4 →
        reclaimRatio ((partOwn [] 0 true).geo k).cap bk.live = reclaimRatio ((partOwn [] 0 true).geo 4).cap bd.live
          ∧ bd.closeOrder.getD 0 < bk.closeOrder.getD 0) := by
  rintro bd ⟨⟩
  decide +kernel

/-- R114 to R116, R118: the refresh list first, and a credit spent; then the scored band; under PRESSURE no credit; no
candidate under PRESSURE is CLEAN_BLOCKED for no band, and no credit without it is no choice. -/
theorem witness_Victim_choice_own_conclusion :
    (after .victimChoice (partOwn [0, 11] 1 false)).cle.victim.map (fun v => (v.band, v.origin)) = some (11, .refresh)
    ∧ (after .victimChoice (partOwn [0, 11] 1 false)).cle.pacer.credits = 0
    ∧ (after .victimChoice (partOwn [] 1 true)).cle.victim.map (fun v => (v.band, v.origin)) = some (4, .scored)
    ∧ (after .victimChoice (partOwn [] 1 true)).cle.pacer.credits = 1
    ∧ after .victimChoice (partOwn [11] 0 false) = partOwn [11] 0 false
    ∧ (after .victimChoice { part with btu := { part.btu with pressure := true } }).evu.details[3] = 0xFFFFFFFF := by
  decide +kernel

/-- A victim whose walk is halted before its last slot. -/
def victim : Victim := { band := 11, origin := .host, tag := some 7, cursor := 1 }
def partWalk (stage : CleanStage) (slots : List Slot) : State :=
  { (partBand 11 fun bd => { bd with state := .cleaning, frontier := 16 * slots.length, slots := slots }) with
    cle := { part.cle with stage := stage, victim := some victim } }

/-- The walk of a scored victim that waits for a credit, with credits. -/
def partPaced (credits : Nat) : State :=
  { partWalk .waitCredit [.dead, .live 3] with cle := { part.cle with
      stage := .waitCredit, victim := some { victim with origin := .scored, tag := none }
      pacer := { part.cle.pacer with credits := credits } } }

/-- A walk of five slots at its second: granule 3 in a HOLD window, slot 2 retained, slot 3 TORN, slot 4 on the band. -/
def partGather : State :=
  { ({ partWalk .halted [.dead, .live 3, .live 4, .torn, .live 5] with evu := (partWindow .hold false).evu } : State).setStream
      2 { openBand := some 11, exposed := [⟨2, 4, buffer⟩] } with
    rqu := part.rqu }

theorem witness_Batch_start_bands_sound :
    (partWalk .halted [.dead, .live 3]).BandsSound ∧ (partWalk .halted [.dead, .torn]).BandsSound
    ∧ (partPaced 0).BandsSound ∧ partGather.BandsSound :=
  ⟨bandsSound_of (by decide +kernel), bandsSound_of (by decide +kernel), bandsSound_of (by decide +kernel),
    bandsSound_of (by decide +kernel)⟩

theorem witness_Batch_start_gathers :
    (partWalk .halted [.dead, .live 3]).cle.stage = .halted
    ∧ (partWalk .halted [.dead, .live 3]).cle.victim = some victim ∧ victim.origin = .host
    ∧ (partPaced 0).cle.stage = .waitCredit ∧ (partPaced 0).cle.victim = some { victim with origin := .scored, tag := none }
    ∧ (partPaced 0).btu.pressure = false ∧ (partPaced 0).cle.hostList = [] ∧ (partPaced 0).cle.pacer.credits = 0
    ∧ 1 ≤ (partPaced 1).cle.pacer.credits
    ∧ (partWalk .halted [.dead, .live 3]).mpt.up = true ∧ (partWalk .halted [.dead, .live 3]).ctl.mode = .online
    ∧ ((partWalk .halted [.dead, .live 3]).band? 11).map (fun bd => (bd.state, bd.slots)) =
      some (.cleaning, [.dead, .live 3])
    ∧ victim.cursor < [Slot.dead, .live 3].length ∧ ((partWalk .halted [.dead, .live 3]).stream relocation).fifo = []
    ∧ ((partWalk .halted [.dead, .live 3]).band? 11).map ((partWalk .halted [.dead, .live 3]).gathers victim) = some [1]
    ∧ (partGather.band? 11).map (partGather.gathers victim) = some [2, 4]
    ∧ (partGather.heldCopy ⟨11, 2⟩).isSome = true ∧ partGather.heldCopy ⟨11, 4⟩ = none
    ∧ (partGather.stream relocation).fifo = [] ∧ partGather.cle.victim = some victim
    ∧ ((partWalk .halted [.dead, .torn]).band? 11).map Band.live = some 0 := by decide +kernel

/-- R118, R119, R121: a paced batch waits without a credit and spends one; the held slot is skipped, the retained one
handed over, the last one read, its run before stream 8's; 32 slots at most; a batch of none ends the walk. -/
theorem witness_Batch_start_conclusion : after .batchStart (partPaced 0) = partPaced 0
    ∧ (after .batchStart (partPaced 1)).cle.stage = .batch ∧ (after .batchStart (partPaced 1)).cle.pacer.credits = 0
    ∧ (after .batchStart partGather).cle.victim.map (fun v => (v.cursor, v.skipped, v.batch.map fun e => (e.slot, e.state)))
      = some (5, 1, [(2, .handed), (4, .reading)])
    ∧ ((after .batchStart partGather).stream relocation).fifo.map Item.lgn = [4]
    ∧ ((after .batchStart partGather).har.queue .clean).map MediaOp.isWrite = [false, true]
    ∧ (after .batchStart (partWalk .halted (List.replicate 40 (.live 3)))).cle.victim.map
      (fun v => (v.cursor, v.batch.length)) = some (33, 32)
    ∧ (after .batchStart (partWalk .halted [.dead, .torn])).cle.stage = .waitReset
    ∧ (after .batchStart (partWalk .halted [.dead, .torn])).cle.victim.map Victim.cursor = some 2 := by
  decide +kernel

/-- A band pending reset under PRESSURE, R + 1 bands EMPTY, for a CLEAN. -/
def partReset (fatigue : Nat) : State :=
  { ((partWalk .waitReset [.dead, .torn]).updBand 11 fun bd => { bd with fatigue := fatigue }) with
    rqu := { part.rqu with entries := [{ storeEntry with code := codeClean, phase := .active }] }
    btu := { ((partWalk .waitReset [.dead, .torn]).updBand 11 fun bd => { bd with fatigue := fatigue }).btu with
      pressure := true, reserve := 10 } }

theorem witness_Band_reset_clears : (partWalk .waitReset [.dead, .torn]).ctl.mode ≠ .quiesced ∧
    (partWalk .waitReset [.dead, .torn]).cle.stage = .waitReset
    ∧ (partWalk .waitReset [.dead, .torn]).cle.victim = some victim
    ∧ ((partWalk .waitReset [.dead, .torn]).band? 11).map (fun bd => (bd.number, bd.state, bd.readers)) =
      some (11, .cleaning, 0) ∧ (partReset 2).cle.victim.bind Victim.tag = some 7 ∧ ((partReset 2).entry? 7).isSome = true
    ∧ ((partReset 3).band? 11).map Band.fatigue = some 3 ∧ (partReset 2).btu.pressure = true
    ∧ (partReset 2).btu.reserve + 2 = (partReset 2).freeCount + 1 := by decide +kernel

/-- R28, R29, R33, R123: PRESSURE clears at R + 2, and stays at a RETIRED band; the CLEAN is told what became of it. -/
theorem witness_Band_reset_conclusion :
    (after .bandReset (partReset 2)).btu.pressure = false ∧ (after .bandReset (partReset 2)).evu.details[1] = 12
    ∧ (after .bandReset (partReset 2)).rqu.entries = [] ∧ (after .bandReset (partReset 3)).btu.pressure = true
    ∧ (after .bandReset (partReset 3)).evu.details[5] = 11
    ∧ (after .bandReset (partReset 3)).flu.outbound.map OutFrame.body =
      [[.num 4 0, .num 4 11, .num 1 5, .num 3 0, .num 2 0, .num 2 0, .num 2 0, .num 2 0]] := by decide +kernel

/-- A part with an open waiting. -/
def partOpen : State := { part with btu := { part.btu with openWait := [2] } }

/-- An open waiting with no band EMPTY in its stream's range of zone 1, its FIFO not empty. -/
def partSpill : State :=
  { partOpen with swr := (part.setStream 2 { lo := 1, hi := 1, openPending := true, fifo := [storeItem] }).swr }

/-- An open waiting for a stale re-placement, one whose slot is LIVE and a STORE. -/
def partOpenStale : State :=
  { (partHome .full []).setStream 2 { openPending := true, fifo :=
      [{ work := .replace ⟨11, 0⟩, lgn := 3, content := buffer }, { work := .replace ⟨11, 1⟩, lgn := 3, content := buffer },
        storeItem] } with btu := { (partHome .full []).btu with openWait := [2] } }

theorem witness_Open_wait_stale :
    partOpenStale.BandsSound ∧ partOpenStale.OpenTakes 2 0 { number := 0, zone := 0 } ∧ partOpenStale.btu.openWait = [2]
    ∧ partOpenStale.mpt.up = true ∧ (partOpenStale.stream 2).writing = none :=
  ⟨bandsSound_of (by decide +kernel), openTakes_first (by decide +kernel), by decide +kernel⟩

/-- R67: the re-placement whose slot is DEAD is dropped, the one whose slot is LIVE is being written. -/
theorem witness_Open_wait_stale_conclusion :
    ((after .openWaitGrant partOpenStale).stream 2).fifo = (partOpenStale.stream 2).fifo.drop 1
    ∧ ((after .openWaitGrant partOpenStale).stream 2).writing = some 0 := by decide +kernel

theorem witness_Open_wait_granted :
    partOpen.BandsSound ∧ partSpill.BandsSound ∧ partOpen.OpenTakes 2 0 { number := 0, zone := 0 }
    ∧ partSpill.OpenTakes 2 0 { number := 0, zone := 0 } ∧ partOpen.btu.openWait = [2]
    ∧ (partOpen.stream 2).fifo = [] ∧ partSpill.btu.openWait = [2] :=
  ⟨bandsSound_of (by decide +kernel), bandsSound_of (by decide +kernel), openTakes_first (by decide +kernel),
    openTakes_spill (by decide +kernel), by decide +kernel⟩

/-- R26, R27: the spill is reported with the stream, and the item that waited is placed at once. -/
theorem witness_Open_wait_conclusion : (after .openWaitGrant partSpill).evu.flags = EventFlag.bit .streamSpill
    ∧ ((after .openWaitGrant partSpill).har.queue .write).map MediaOp.origin = [.stream 2] := by decide +kernel

/-- A read in progress on a band whose retry counter stands at 127. -/
def partRetry (stage : PortStage) (retries : Nat) : State :=
  { partPort stage { readOp with retries := retries } with
    btu := (partBand 0 fun bd => { bd with state := .full, retry := 127, readers := 1 }).btu }

theorem witness_Retry_counter_and_fatigue :
    ((partBand 0 fun bd => { bd with state := .opened, retry := 127, fatigue := 3 }).band? 0).map
      (fun bd => (bd.state, bd.retry)) = some (.opened, 127)
    ∧ ((partBand 0 fun bd => { bd with state := .cleaning, retry := 255 }).band? 0).map Band.state = some .cleaning
    ∧ (partRetry .running 7).mpt.op = some { readOp with retries := 7 } ∧ (partRetry .running 7).mpt.stage = .running
    ∧ (partRetry .claiming 8).mpt.op = some { readOp with retries := 8 } ∧ (partRetry .claiming 8).mpt.stage = .claiming
    ∧ readOp.isWrite = false ∧ readOp.target = .band 0 ∧ readOp.cls = .read ∧ readOp.origin = .fetchBand
    ∧ ((partRetry .running 7).band? 0).map Band.state = some .full := by decide +kernel

/-- R38, R39, R153: an answer that re-issues the read, and one that ends it, each count once. -/
theorem witness_Retry_counter_conclusion :
    ((after (.finished 9 2 0 13) (partRetry .running 7)).band? 0).map (fun bd => (bd.retry, bd.fatigue, bd.readers)) =
      some (128, 1, 1)
    ∧ ((after (.finished 9 2 0 13) (partRetry .claiming 8)).band? 0).map (fun bd => (bd.retry, bd.fatigue, bd.readers)) =
      some (128, 1, 0)
    ∧ (after (.finished 9 2 0 13) (partRetry .running 7)).btu.refresh = [0] := by decide +kernel

theorem witness_Choice_follows_order_and_age :
    (∀ c, c ∈ effectiveOrder false false) ∧ (∀ c ∈ allClasses, part.har.mask.has c = true ∨ part.har.queue c = [])
    ∧ (partQueued 16).har.mask.has .clean = false ∧ (partQueued 16).har.queue .clean ≠ []
    ∧ (partQueued 16).har.choose (effectiveOrder false false) = some .clean
    ∧ (partQueued 16).har.ready .clean = true ∧ 16 ≤ (partQueued 16).har.skip .clean :=
  ⟨by intro c; cases c <;> decide, by decide +kernel⟩

theorem witness_Head_grant_result :
    (partQueued 0).mpt.up = true ∧ (partQueued 0).mpt.stage = .idle
    ∧ (partQueued 0).har.choose (effectiveOrder (partQueued 0).btu.pressure (partQueued 0).slu.logHeld) = some .clean
    ∧ (partQueued 0).har.queue .clean = [{ readOp with cls := .clean }] := by decide +kernel

theorem witness_Claim_and_defer_result :
    (partPort .claiming { readOp with defers := 3 }).mpt.op = some { readOp with defers := 3 }
    ∧ (partPort .claiming { readOp with defers := 3 }).mpt.stage = .claiming ∧ ({ readOp with defers := 3 } : MediaOp).defers < 4
    ∧ (partPort .claiming { readOp with defers := 4 }).mpt.op = some { readOp with defers := 4 }
    ∧ (partPort .claiming { readOp with defers := 4 }).mpt.stage = .claiming ∧ 4 ≤ ({ readOp with defers := 4 } : MediaOp).defers
    ∧ (partPort .deferred readOp).mpt.op = some readOp ∧ (partPort .deferred readOp).mpt.stage = .deferred := by
  decide +kernel

theorem witness_Stale_answers_discarded :
    8 ≠ (partPort .running readOp).mpt.order.number ∧ (partPort .running readOp).mpt.stage ≠ .claiming
    ∧ (partPort .claiming readOp).mpt.stage ≠ .running ∧ part.mpt.stage = .idle
    ∧ (partPort .deferred readOp).mpt.stage = .deferred ∧ (partPort .running readOp).mpt.op = some readOp
    ∧ 9 < readOp.first ∧ readOp.first + readOp.count ≤ 16 ∧ partWriting.mpt.op = some writeOp
    ∧ writeOp.isWrite = true := by decide +kernel

/-- A part with counted failures behind it. -/
def partFailing (stage : PortStage) (n : Nat) : State :=
  { part with mpt := { (partPort stage { readOp with defers := 4 }).mpt with failures := n } }

/-- A part whose operation has had its SERVO_LOST, with counted failures behind it. -/
def partServo (n : Nat) : State :=
  { part with mpt := { (partPort .running { readOp with servoUsed := true }).mpt with failures := n } }

theorem witness_Counted_failure_result :
    (partFailing .claiming 1).mpt.op = some { readOp with defers := 4 } ∧ (partFailing .claiming 1).mpt.failures < 2
    ∧ (partFailing .claiming 1).mpt.stage = .claiming ∧ 4 ≤ ({ readOp with defers := 4 } : MediaOp).defers
    ∧ (partFailing .aborting 1).mpt.stage = .aborting ∧ (partFailing .aborting 1).ctl.resetWait = none
    ∧ (partFailing .claiming 2).mpt.op.isSome = true ∧ (partFailing .claiming 2).mpt.stage = .claiming
    ∧ (partFailing .claiming 2).mpt.failures = 2 ∧ (partFailing .aborting 2).mpt.stage = .aborting
    ∧ (partServo 1).mpt.stage = .running ∧ (partServo 1).mpt.op = some { readOp with servoUsed := true }
    ∧ (partServo 1).mpt.failures < 2 ∧ (partServo 2).mpt.stage = .running ∧ (partServo 2).mpt.failures = 2 := by
  decide +kernel

/-- R150, R155, R158: the fifth DEFER and a second SERVO_LOST as the third failure take the port DOWN with their
causes. -/
theorem witness_Counted_failure_conclusion : (after (.defer 9) (partFailing .claiming 2)).mpt.latched = 2#4
    ∧ (after (.finished 9 4 0 0) (partServo 2)).mpt.latched = 8#4
    ∧ (after (.finished 9 4 0 0) (partServo 2)).mpt.up = false := by decide +kernel

theorem witness_Finished_ok_and_stopped :
    (partPort .running readOp).mpt.op = some readOp ∧ (partPort .running readOp).mpt.stage = .running
    ∧ readOp.origin ≠ .qual ∧ 5 < (partPort .running readOp).mpt.order.count := by decide +kernel

theorem witness_Finished_stopped_qualification :
    ∀ stop, (partTrack .running (qualAt .read 4 stop []) qualOp).qualRuns qualOp (qualAt .read 4 stop [])
      ∧ (partTrack .running (qualAt .read 4 stop []) qualOp).mpt.stage = .running
      ∧ 5 < (partTrack .running (qualAt .read 4 stop []) qualOp).mpt.order.count := by decide +kernel

/-- R137, R139, R152: five sectors of a read are compared and sector 15 is the current run; with a stop pending it is
withdrawn, tracks done stays 4 and the band is RETIRED again. -/
theorem witness_Finished_stopped_qualification_conclusion :
    (after (.finished 9 1 5 0) (partTrack .running (qualAt .read 4 false []) qualOp)).qen.qual.map
      (fun q => (q.errors, q.run)) = some (6, some (15, 1))
    ∧ ((after (.finished 9 1 5 0) (partTrack .running (qualAt .read 4 false []) qualOp)).har.queue .qualify).map
      MediaOp.run = [⟨false, .band 0, 4096, 15, 1, 7, none⟩]
    ∧ (after (.finished 9 1 5 0) (partTrack .running (qualAt .read 4 true []) qualOp)).qen.last =
      some ⟨11, 6, 4, .stopped⟩
    ∧ (after (.finished 9 1 5 0) (partTrack .running (qualAt .read 4 true []) qualOp)).har.queue .qualify = []
    ∧ ((after (.finished 9 1 5 0) (partTrack .running (qualAt .read 4 true []) qualOp)).band? 11).map Band.state =
      some .retired := by decide +kernel

theorem witness_Unrecovered_and_servo_reissue :
    readOp.isWrite = false ∧ ({ readOp with retries := 7 } : MediaOp).retries < 8
    ∧ readOp.first ≤ 11 ∧ 11 < readOp.first + readOp.count ∧ readOp.first ≤ 15 ∧ 15 < readOp.first + readOp.count
    ∧ readOp.servoUsed = false ∧ 6 ≤ (partPort .running readOp).mpt.order.count := by decide +kernel

/-- R153: of an order re-issued from sector 12, a failing sector 11 sets the sectors done back to 1. -/
theorem witness_Unrecovered_reissue_conclusion :
    (after (.finished 9 2 0 11) { partPort .running { readOp with sectorsDone := 2 } with
      mpt := { (partPort .running { readOp with sectorsDone := 2 }).mpt with order := ⟨9, 12, 4⟩ } }).mpt.op.map
        MediaOp.sectorsDone = some 1
    ∧ (after (.finished 9 2 0 15) (partPort .running readOp)).mpt.order = ⟨10, 15, 1⟩ := by decide +kernel

/-- A cleaning read at its last retry, and a part walking the band it reads. -/
def cleanOp : MediaOp :=
  { readOp with cls := .clean, target := .band 11, origin := .cleanRead 1, tag := none, retries := 8 }
def partLosing : State :=
  { partHome .cleaning [] with
    mpt := (partPort .running cleanOp).mpt
    cle := { part.cle with
      stage := .batch
      victim := some { victim with cursor := 2, batch := [⟨1, 3, buffer, .reading, 1, [], false⟩] } } }

theorem witness_Unrecovered_lost_report :
    partLosing.BandsSound ∧ partLosing.MapCanonical ∧ partLosing.mpt.op = some cleanOp
    ∧ partLosing.mpt.stage = .running ∧ cleanOp.isWrite = false ∧ cleanOp.origin = .cleanRead 1 ∧ 8 ≤ cleanOp.retries
    ∧ partLosing.cle.victim = some { victim with cursor := 2, batch := [⟨1, 3, buffer, .reading, 1, [], false⟩] }
    ∧ (partLosing.entryOf 3).home = some ⟨11, 1⟩
    ∧ (partLosing.band? 11).map (fun bd => (bd.state, bd.slots[1]?)) = some (.cleaning, some (.live 3)) :=
  ⟨bandsSound_of (by decide +kernel), by decide +kernel⟩

/-- R57, R120: the granule is lost, its slot DEAD. -/
theorem witness_Unrecovered_lost_conclusion :
    (after (.finished 9 2 0 13) partLosing).entryOf 3 = { base := 1, lost := true }
    ∧ ((after (.finished 9 2 0 13) partLosing).band? 11).map Band.slots = some [.dead, .dead] := by decide +kernel

/-- R198: a port RUNNING the read of order 9, a link with a STORE held for LOG, a walk in its batch, a read pass at its
last track, a controller in ONLINE. -/
theorem witness_Inspect_kinds_conclusion :
    bodyBytes (replyBody .done (partPort .running readOp).reportPort) =
      [0, 0, 0, 0, 0, 3, 0, 0, 0, 0, 1, 2, 3, 4, 0, 0, 4, 0, 0, 0, 0, 2, 0, 0, 0, 0, 0, 0, 0, 0x10, 0, 0, 10, 0, 6, 0,
        0, 0, 0, 0] ++ List.replicate 16 0
    ∧ bodyBytes (replyBody .done (partHeld .log).reportLink) =
      [0, 0, 0, 0, 0, 0, 0, 0, 0xD0, 7, 0, 0, 1, 0, 0, 0, 7, 1, 2, 1]
    ∧ bodyBytes (replyBody .done partLosing.reportCleaner) =
      [0, 0, 0, 0, 1, 0, 7, 0, 11, 0, 0, 0, 2, 0, 0, 0, 0, 0, 0, 0, 0, 0, 1, 0, 0, 0, 0, 0, 0, 0, 0, 0, 0xE8, 3, 0xE8, 3,
        0, 2, 0, 0] ++ List.replicate 128 0xFF
    ∧ bodyBytes (replyBody .done (partGrading 3 []).reportQualification) =
      [0, 0, 0, 0, 1, 1, 0, 0xFF, 11, 0, 0, 0, 3, 0, 15, 0, 0xFF, 0xFF, 0xFF, 0xFF, 1, 0, 15, 0, 0, 0, 0, 0xFF,
        0xFF, 0xFF, 0xFF, 0xFF, 0xFF, 0xFF, 0xFF, 0xFF]
    ∧ bodyBytes (replyBody .done part.reportController) =
      [0, 0, 0, 0, 1, 0xFF, 0, 0, 0xFF, 0xFF, 0xFF, 0xFF, 0xFF, 0xFF, 0xFF, 0xFF, 40, 0, 0, 0, 12, 0, 0, 0, 1, 2, 0, 0,
        1, 0, 0, 0] := by
  decide +kernel

theorem witness_Data_lands_in_owners_buffer :
    (partPort .running readOp).mpt.op = some readOp ∧ (partPort .running readOp).mpt.stage = .running
    ∧ readOp.isWrite = false ∧ readOp.origin = .fetchBand ∧ readOp.tag = some 7 ∧ readOp.first ≤ 15
    ∧ 15 < readOp.first + readOp.count ∧ partLosing.mpt.op = some cleanOp ∧ partLosing.mpt.stage = .running
    ∧ partLosing.cle.victim.isSome = true ∧ cleanOp.origin = .cleanRead 1
    ∧ (partGrading 3 []).mpt.op = some qualOp ∧ (partGrading 3 []).mpt.stage = .running ∧ qualOp.origin = .qual
    ∧ partFoldHome.slu.fold.isSome = true ∧ partFoldHome.mpt.stage = .running
    ∧ partFoldHome.mpt.op.map MediaOp.origin = some .foldHome ∧ (partFoldRecord []).slu.fold.isSome = true
    ∧ (partFoldRecord []).mpt.op.map MediaOp.origin = some (.foldRecord 0) := by decide +kernel

/-- R119, R137, R141: sector 12 of a run from sector 10 at place 2 is at place 4. -/
theorem witness_Data_lands_conclusion :
    (after (.data 9 12 [5]) partLosing).cle.victim.map (fun v => v.batch.map fun e => e.buffer[4]) = some [[5]]
    ∧ (after (.data 9 12 [5]) (partGrading 3 [[], [], [], [], [], []])).qen.buffer = [[], [], [], [], [5], []]
    ∧ (after (.data 9 12 [5]) partFoldHome).slu.fold.map (fun f => f.homeBuffer[4]) = some [5]
    ∧ (after (.data 9 12 [5]) (partFoldRecord [])).slu.fold.map (fun f => f.sources.map fun x => x.buffer[4]) =
      some [[5]] := by decide +kernel

theorem witness_Format_result :
    State.reset.admitsTag 1 ∧ State.reset.ctl.mode = .unformatted ∧ formatOk 2891 2 area [zone] [] = true
    ∧ formatOk 2892 2 area [zone] [] = false ∧ formatOk 1 2 area [zone] [3] = false ∧ (partIn .quiesced).admitsTag 1 := by
  decide +kernel

/-- R14 to R16, R85, R186: one check failed at a time. -/
theorem witness_Format_refusals :
    formatOk 0 2 area [zone] [] = false ∧ formatOk 1 1 area [zone] [] = false ∧ formatOk 1 65 area [zone] [] = false
    ∧ formatOk 1 3 area [zone] [] = false ∧ formatOk 1 2 ⟨0, 256, 255⟩ [zone] [] = false
    ∧ formatOk 1 2 ⟨0, 255, 256⟩ [zone] [] = false ∧ formatOk 1 2 ⟨16776961, 256, 256⟩ [zone] [] = false
    ∧ formatOk 1 2 ⟨4096, 256, 256⟩ [zone] [] = false ∧ formatOk 1 2 area [] [] = false
    ∧ formatOk 1 2 area [{ zone with guard := 0 }] [] = false ∧ formatOk 1 2 area [{ zone with exposure := 3 }] [] = false
    ∧ formatOk 1 2 area [zone, { zone with firstTrack := 4299 }] [] = false
    ∧ formatOk 1 2 area [zone, { zone with firstTrack := 4300 }] [] = true
    ∧ formatOk 1 2 area [{ zone with firstTrack := 16777013 }] [] = false
    ∧ formatOk 1 2 area [zone, { zone with firstTrack := 4300, zoneTracks := 16 }] [] = false
    ∧ formatOk 1 2 area [zone, { zone with firstTrack := 4300 }] [24] = false := by decide +kernel

/-- A quiet part in QUIESCING. -/
def partQuiet : State :=
  { partWith [storeEntry] with ctl := { part.ctl with mode := .quiescing, quiesceTag := some 7 } }

theorem witness_Quiesce_and_resume_result :
    part.admitsTag 1 ∧ part.ctl.mode = .online ∧ part.qen.qual = none ∧ part.rqu.entries = []
    ∧ part.cle.stage ≠ .waitCredit ∧ part.swrIdle = true ∧ part.sluIdle = true ∧ part.cleIdle = true
    ∧ (partWith [storeEntry]).admitsTag 1 ∧ (partWith [storeEntry]).rqu.entries ≠ []
    ∧ (partIn .quiescing).admitsTag 1 ∧ (partIn .quiesced).admitsTag 1 ∧ (partIn .unformatted).admitsTag 1
    ∧ partQuiet.ctl.mode = .quiescing ∧ partQuiet.ctl.quiesceTag = some 7 ∧ partQuiet.rqu.entries = [storeEntry]
    ∧ storeEntry.tag = 7 ∧ partQuiet.swrIdle = true ∧ partQuiet.sluIdle = true ∧ partQuiet.cleIdle = true
    ∧ partQuiet.qen.qual = none ∧ partLog.admitsTag 1 ∧ partLog.rqu.entries = [] ∧ partLog.sluIdle = false
    ∧ (partPaced 0).cle.stage = .waitCredit ∧ (partPaced 0).cle.hostList = [] ∧ (partQual qual .running).admitsTag 1
    ∧ (partQual qual .running).qen.qual = some qual ∧ (partQual qual .running).mpt.op = some qualOp
    ∧ partQualQueued.qen.qual = some qual ∧ partQualQueued.mpt.op = some readOp ∧ qual.stopTag = none := by decide +kernel

/-- A part that is quiet but for the band reset of a scored victim, due now, in a controller state. -/
def partDue (m : Mode) : State :=
  { partWalk .waitReset [.dead, .torn] with
    ctl := { mode := m, quiesceTag := some 7 }
    cle := { part.cle with stage := .waitReset, victim := some { victim with origin := .scored, tag := none } }
    rqu := if m = .quiescing then partQuiet.rqu else part.rqu }

theorem witness_Quiesce_waits_for_reset :
    part.pendingReset = none ∧ partQuiet.pendingReset = none ∧ (partDue .online).admitsTag 1
    ∧ (partDue .online).rqu.entries = [] ∧ (partDue .online).swrIdle = true ∧ (partDue .online).sluIdle = true
    ∧ (partDue .online).cleIdle = true ∧ (partDue .online).pendingReset ≠ none ∧ (partDue .online).qen.qual = none
    ∧ (partDue .quiescing).pendingReset ≠ none ∧ (partQualIdle.mpt.op = none) ∧ partQualIdle.rqu.entries = []
    ∧ partQualIdle.swrIdle = true ∧ partQualIdle.withdrawQual.sluIdle = true ∧ partQualIdle.cleIdle = true
    ∧ partQualIdle.pendingReset = none ∧ partQualIdle.admitsTag 1
    ∧ (partQualIdle.band? 11).map Band.prior = some (some .retired) := by decide +kernel

/-- R33, R187, R190 (log entry 57): a part with a reset due is QUIESCED after it, not before, and its tables stand. -/
theorem witness_Quiesce_waits_for_reset_conclusion :
    (after (.quiesce 1) (partDue .online)).ctl.mode = .quiescing
    ∧ after .quiesceComplete (partDue .quiescing) = partDue .quiescing
    ∧ (after .quiesceComplete (after .bandReset (partDue .quiescing))).ctl.mode = .quiesced
    ∧ after .bandReset (partDue .quiesced) = partDue .quiesced
    ∧ (after (.quiesce 1) partQualIdle).ctl.mode = .quiesced
    ∧ ((after (.quiesce 1) partQualIdle).band? 11).map Band.state = some .retired := by decide +kernel

/-- R130, R139, R187: QUIESCING waits for a busy block and for a run in progress, HALTs the walk that waits, and ends a
qualification whose run is queued. -/
theorem witness_Quiesce_conclusion :
    (after (.quiesce 1) partLog).ctl.mode = .quiescing ∧ (after (.quiesce 1) partLog).rqu.entries.map Entry.tag = [1]
    ∧ (after (.quiesce 1) (partPaced 0)).cle.stage = .halted ∧ (after (.quiesce 1) (partPaced 0)).ctl.mode = .quiesced
    ∧ (after (.quiesce 1) (partQual qual .running)).qen.qual.map Qual.stop = some true
    ∧ (after (.quiesce 1) (partQual qual .running)).ctl.quiesceTag = some 1
    ∧ (after (.quiesce 1) partQualQueued).ctl.mode = .quiesced
    ∧ (after (.quiesce 1) partQualQueued).har.queue .qualify = []
    ∧ (after (.quiesce 1) partQualQueued).qen.last.map LastResult.outcome = some .stopped := by decide +kernel

/-- A part of one band and one LGN, and its whole image as a load of one chunk. -/
def smallPart : State :=
  { part with btu := { part.btu with zones := [⟨4096, 17, 256, 16, 1, 1⟩], bands := [{ number := 0, zone := 0 }] }
              gmu := { part.gmu with lgnCount := 1 } }
def load : ImageLoad := ⟨1, 1, [smallPart.image]⟩
def partLoad (l : ImageLoad) : State := { State.reset with ctl := { imageLoad := some l } }

/-- A part of four bands, FULL, OPEN for stream 8, CLEANING and QUALIFYING, and one LGN at home in the first. -/
def fourBands : State :=
  ({ part with
    btu := { part.btu with zones := [⟨4096, 68, 256, 16, 1, 1⟩], bands :=
      [{ number := 0, zone := 0, state := .full, frontier := 17, slots := [.live 0, .torn], readers := 1, retry := 128
         closeOrder := some 6, closeReason := some .fault, holdBlocked := true },
       { number := 1, zone := 0, state := .opened, stream := some 8 },
       { number := 2, zone := 0, state := .cleaning, frontier := 16, slots := [.dead], fatigue := 2
         closeOrder := some 9, closeReason := some .capacity },
       { number := 3, zone := 0, state := .qualifying, prior := some .retired }] }
    gmu := { lgnCount := 1, sequence := 1000, map := [(0, ⟨some ⟨0, 0⟩, 5, 0, none, false⟩)] }
    slu := { part.slu with head := 4, tail := 8, used := 4, dir := [{ liveRecord with
      pos := 4, lgn := 0, state := .dead, readers := 2 }] } } : State).setStream 8 { openBand := some 1 }

theorem witness_Image_gives_back_tables :
    fourBands.ImageFits ∧ fourBands.btu.bands.length = 4 ∧ (∃ bd ∈ fourBands.btu.bands, bd.closeOrder = some 9) := by
  decide +kernel

set_option maxRecDepth 20000 in
/-- R41, R84, R109, R193: the bands of that part's image after its commit, the log and the streams. -/
theorem witness_Image_commit_conclusion :
    (after (.imageCommit 1) (partLoad ⟨1, 1, [fourBands.image]⟩)).btu.bands.map
      (fun bd => (bd.state, bd.closeOrder, bd.closeReason, bd.slots)) =
      [(.full, some 6, some .fault, [.live 0, .torn]), (.full, some 10, some .image, []),
        (.full, some 9, some .capacity, [.dead]), (.retired, none, none, [])]
    ∧ (after (.imageCommit 1) (partLoad ⟨1, 1, [fourBands.image]⟩)).btu.closeOrder = 11
    ∧ (after (.imageCommit 1) (partLoad ⟨1, 1, [fourBands.image]⟩)).btu.refresh = [0]
    ∧ (after (.imageCommit 1) (partLoad ⟨1, 1, [fourBands.image]⟩)).entryOf 0 = ⟨some ⟨0, 0⟩, 5, 0, none, false⟩
    ∧ (after (.imageCommit 1) (partLoad ⟨1, 1, [fourBands.image]⟩)).slu.dir.map (fun r => (r.pos, r.state, r.readers)) =
      [(4, .dead, 0)]
    ∧ ((after (.imageCommit 1) (partLoad ⟨1, 1, [fourBands.image]⟩)).stream 8).openBand = none := by decide +kernel

set_option maxRecDepth 20000 in
theorem witness_Image_read_and_write :
    (partIn .quiesced).admitsTag 1 ∧ (partIn .quiesced).ctl.mode = .quiesced
    ∧ 0 < chunksOf (partIn .quiesced).imageLength ∧ chunksOf (partIn .quiesced).imageLength ≤ 1
    ∧ (partLoad load).admitsTag 1 ∧ (partLoad load).ctl.mode = .unformatted ∧ headerOk smallPart.image = true
    ∧ headerOk [] = false ∧ (partLoad load).ctl.imageLoad = some load ∧ 1 ≠ 0 ∧ load.count ≤ load.next
    ∧ (partLoad { load with count := 2 }).ctl.imageLoad = some { load with count := 2 } ∧ load.next = 1 ∧ 1 < 2
    ∧ (partDue .quiesced).ctl.mode = .quiesced ∧ State.reset.admitsTag 1 ∧ State.reset.ctl.mode = .unformatted
    ∧ State.reset.ctl.imageLoad = none := by
  decide +kernel

/-- R191: chunk 1 with no load begun is refused BAD_ARGUMENT, status 4. -/
theorem witness_Image_write_no_load_conclusion : lastStatus (after (.imageWrite 1 1 []) State.reset) = some (.num 4 4)
    ∧ (after (.imageWrite 1 1 []) State.reset).ctl = State.reset.ctl := by decide +kernel

set_option maxRecDepth 20000 in
theorem witness_Image_commit_result :
    (partLoad load).admitsTag 1 ∧ (partLoad load).ctl.mode = .unformatted ∧ (partLoad load).ctl.imageLoad = some load
    ∧ loadOk load = true ∧ loadOk { load with chunks := [smallPart.image.set 24 0] } = false := by decide +kernel

/-- A part with a FULL band that a queued read counts on, a victim and a band being qualified. -/
def partBusy : State :=
  { part with
    btu := { part.btu with bands := emptyBands.map fun bd =>
      if bd.number = 0 then { bd with state := .full, readers := 1 }
      else if bd.number = 10 then { bd with state := .qualifying, prior := some .retired }
      else if bd.number = 11 then { bd with state := .cleaning, frontier := 32, slots := [.dead, .live 3] } else bd }
    gmu := (partHome .cleaning []).gmu
    cle := { part.cle with stage := .halted, victim := some { victim with cursor := 2 } }
    qen := { part.qen with qual := some { qual with band := 10 } }
    har := { part.har with queues := part.har.queues.set 0 [readOp] } }

theorem witness_Reset_request_result :
    part.PortSound ∧ part.takesFrames = true ∧ part.mpt.awaitsAbort = false ∧ partBusy.PortSound ∧ partBusy.MapCanonical
    ∧ partBusy.BandsSound ∧ partBusy.takesFrames = true ∧ partBusy.mpt.awaitsAbort = false
    ∧ (allClasses.map partBusy.har.queue).flatten = [readOp] ∧ (∀ r ∈ partBusy.slu.dir, r.state ≠ .writing)
    ∧ (partStaging.slu.dir.map Record.pos).Nodup
    ∧ [0, 10, 11].map (fun b => (partBusy.band? b).map fun bd => (bd.state, bd.prior)) =
      [some (.full, none), some (.qualifying, some .retired), some (.cleaning, none)] :=
  ⟨by decide +kernel, by decide +kernel, by decide +kernel, by decide +kernel, by decide +kernel,
    bandsSound_of (by decide +kernel), by decide +kernel⟩

/-- R36, R37, R40: the reader is off its band, the walk's band FULL again, the band being qualified as it was before. -/
theorem witness_Reset_request_conclusion : [0, 10, 11].map (fun b => ((after (.reset 1) partBusy).band? b).map
      fun bd => (bd.state, bd.readers, bd.prior)) = [some (.full, 0, none), some (.retired, 0, none), some (.full, 0, none)]
    ∧ (after (.reset 1) partBusy).gmu = partBusy.gmu
    ∧ ∀ r ∈ (after (.reset 1) { partStaging with mpt := part.mpt }).slu.dir, r.state ≠ .writing := by decide +kernel

/-- A re-placement of granule 3, from its home or from a slot that is DEAD. -/
def replaceItem (slot : Nat) : Item := { work := .replace ⟨11, slot⟩, lgn := 3, content := buffer, recoveries := [⟨0, 11⟩] }

/-- A part whose stream 2 stands at sector `f` of slot 0 with a run queued that has `d` sectors done, behind its STORE two
re-placements, and whose stream 5 waits for an open with a STORE and one whose slot is still LIVE. -/
def partAborting (f d : Nat) : State :=
  { ((((partHome .full []).updBand 0 fun bd => { bd with
      state := .opened, stream := some 2, frontier := f, slots := List.replicate (slotsBehind f) .torn }).setStream 2
        { openBand := some 0, fifo := [storeItem, replaceItem 0, replaceItem 1], writing := some 0
          recovery := some ⟨0, 11⟩ }).setStream 5
        { fifo := [storeItem, replaceItem 1], openPending := true, exposed := [⟨0, 4, buffer⟩] } : State) with
    har := { part.har with queues := part.har.queues.set 1 [{ writeOp with sectorsDone := d }] } }

theorem witness_Reset_streams :
    (∀ p ∈ [(0, 0), (3, 0), (0, 2)], (partAborting p.1 p.2).PortSound ∧ (partAborting p.1 p.2).MapCanonical
      ∧ (partAborting p.1 p.2).takesFrames = true ∧ (partAborting p.1 p.2).mpt.awaitsAbort = false
      ∧ (allClasses.map (partAborting p.1 p.2).har.queue).flatten = [{ writeOp with sectorsDone := p.2 }]
      ∧ ((partAborting p.1 p.2).stream 2).openBand = some 0 ∧ ((partAborting p.1 p.2).stream 2).writing = some 0
      ∧ ((partAborting p.1 p.2).band? 0).map (fun bd => (bd.state, bd.frontier, bd.slots)) =
        some (.opened, p.1, List.replicate (slotsBehind p.1) .torn))
    ∧ ((partAborting 3 0).stream 5).writing = none
    ∧ (∀ m, m ≠ 2 → ((partAborting 3 0).stream m).openBand ≠ some 0) ∧ (partAborting 0 0).BandsSound
    ∧ (partAborting 3 0).BandsSound ∧ (partAborting 0 2).BandsSound :=
  ⟨by decide +kernel, by decide +kernel, by decide +kernel, bandsSound_of (by decide +kernel),
    bandsSound_of (by decide +kernel), bandsSound_of (by decide +kernel)⟩

/-- R71, R74, R82, R83: the slot touched is TORN and the frontier at its end, one untouched stays; the STOREs are gone, the
stale re-placement with them; stream 5 asks its open again and is given it. -/
theorem witness_Reset_streams_conclusion :
    ((after (.reset 1) (partAborting 3 0)).band? 0).map (fun bd => (bd.frontier, bd.slots)) = some (16, [.torn])
    ∧ ((after (.reset 1) (partAborting 0 2)).band? 0).map (fun bd => (bd.frontier, bd.slots)) = some (16, [.torn])
    ∧ ((after (.reset 1) (partAborting 0 0)).band? 0).map (fun bd => (bd.frontier, bd.slots)) = some (0, [])
    ∧ ((after (.reset 1) (partAborting 3 0)).stream 2).fifo = [replaceItem 1]
    ∧ ((after (.reset 1) (partAborting 3 0)).stream 2).writing = some 1
    ∧ ((after (.reset 1) (partAborting 3 0)).stream 2).recovery = some ⟨0, 11⟩
    ∧ ((after (.reset 1) (partAborting 3 0)).stream 5).openBand = some 1
    ∧ (after (.reset 1) (partAborting 3 0)).slotLiveFor ⟨11, 1⟩ 3 = true
    ∧ ((after (.reset 1) (partAborting 3 0)).stream 5).writing = some 0
    ∧ ((after (.reset 1) (partAborting 3 0)).stream 5).exposed = [⟨0, 4, buffer⟩] := by decide +kernel

/-- A RESET that waits for its ABORT. -/
def partResetting : State := { partPort .aborting readOp with ctl := { part.ctl with resetWait := some ⟨1, 0⟩ } }

theorem witness_Reset_with_operation_out :
    (partPort .claiming readOp).takesFrames = true ∧ (partPort .claiming readOp).mpt.op = some readOp
    ∧ (partPort .claiming readOp).mpt.stage = .claiming ∧ (partPort .running readOp).mpt.stage = .running
    ∧ (partPort .aborting readOp).takesFrames = true ∧ (partPort .aborting readOp).mpt.stage = .aborting
    ∧ (partPort .aborting readOp).mpt.op = some readOp ∧ partResetting.mpt.stage = .aborting ∧ partResetting.mpt.op = some readOp
    ∧ partResetting.ctl.resetWait = some ⟨1, 0⟩ ∧ 4 ≤ 4 := by decide +kernel

/-- R38, R160, R175: the answer, of whatever status, ends the operation and brings the RESET's reply; an UNRECOVERED
counts. -/
theorem witness_Reset_with_operation_out_conclusion :
    (after (.finished 9 2 0 13) { partResetting with btu := (partRetry .running 0).btu }).flu.outbound.map OutFrame.code = [23]
    ∧ ((after (.finished 9 2 0 13) { partResetting with btu := (partRetry .running 0).btu }).band? 0).map Band.retry =
      some 128 ∧ (after .abortLimitExpiry partResetting).mpt.stage = .idle := by decide +kernel

/-- A part receiving a frame, the error counter at its end. -/
def partInFrame : State := { part with flu := { part.flu with assembler := .frame, errors := 65535 } }

/-- The bytes of a QUIESCE of tag 9, its check a CRC-32 computed apart, and a part in FRAME that holds some bytes. -/
def quiesceBytes : List Byte := [0xA5, 0x3C, 0x01, 0x11, 0x09, 0x00, 0x00, 0x00, 0x00, 0x00, 0x45, 0x19, 0x2E, 0x4F]
def partHolding (held : List Byte) : State := { part with flu := { part.flu with assembler := .frame, held := held } }

theorem witness_Link_errors_marker_and_bad_request :
    part.flu.waiting = [] ∧ part.flu.assembler = .ready ∧ part.takesFrames = true ∧ part.flu.assembler ≠ .frame
    ∧ part.flu.held = [] ∧ partInFrame.flu.waiting = [] ∧ partInFrame.flu.assembler = .frame
    ∧ (Instr.quiesce 9).wf = true ∧ encodeFrame (.quiesce 9) = some quiesceBytes
    ∧ (partHolding ([1, 0xA5] ++ quiesceBytes)).flu.held = [1, 0xA5] ++ quiesceBytes
    ∧ (partHolding [1, 0xA5]).flu.assembler = .frame ∧ findMarker [1, 0xA5] = none := by decide +kernel

/-- No marker pair stands in those bytes. -/
theorem witness_Link_no_marker : ∀ before after : List Byte, [1, 0xA5] ≠ before ++ [0xA5#8, 0x3C#8] ++ after := by
  intro before after h
  match before with
  | [] => exact absurd h (by simp)
  | [_] => exact absurd h (by simp)
  | _ :: _ :: _ => exact absurd (congrArg List.length h) (by simp)

/-- R163: the frame inside the discarded one is found and taken, after the error is counted; without one the search goes
on from a first marker byte; a frame's bytes, in pieces of any size, do what its command does. -/
theorem witness_Link_errors_conclusion :
    after .badCheck (partHolding ([1, 0xA5] ++ quiesceBytes)) =
      after (.quiesce 9) (partHolding ([1, 0xA5] ++ quiesceBytes)).frameError
    ∧ (after .frameLimitExpiry (partHolding ([1, 0xA5] ++ quiesceBytes))).ctl.mode = .quiesced
    ∧ (after .overlength (partHolding [1, 0xA5])).flu = { part.flu with assembler := .seek, held := [0xA5], errors := 1 }
    ∧ (part.receive quiesceBytes) = after (.quiesce 9) part
    ∧ ((part.receive (quiesceBytes.take 1)).receive (quiesceBytes.drop 1)) = after (.quiesce 9) part
    ∧ ((part.receive (quiesceBytes.take 9)).receive (quiesceBytes.drop 9)) = after (.quiesce 9) part
    ∧ (part.receive (quiesceBytes.take 9)).flu = { part.flu with assembler := .frame, held := [1, 0x11, 9, 0, 0, 0, 0] }
    ∧ (part.receive ([0xA5, 0xA5] ++ quiesceBytes)).flu.errors = 1
    ∧ (part.receive ([0xA5, 0xA5] ++ quiesceBytes)).ctl.mode = .quiesced := by decide +kernel

/-- A part with frames to send. -/
def partSending (n : Nat) : State :=
  { part with flu := { part.flu with outbound := List.replicate n (replyFrame codeReset 1 false .done []) } }

/-- A part with a frame waiting, one place free in the outbound queue. -/
def partWaiting : State :=
  { partSending 31 with flu := { (partSending 31).flu with assembler := .frame, waiting := [.quiesce 1] } }

theorem witness_Outbound_queue_and_waiting_frame :
    (partSending 1).flu.outbound = [replyFrame codeReset 1 false .done []] ∧ isGoodFrame (.badRequest 99 1) = true
    ∧ (partSending 32).flu.waiting = [] ∧ 32 ≤ (partSending 32).flu.outbound.length
    ∧ partResetting.flu.waiting = [] ∧ partResetting.ctl.resetWait.isSome = true ∧ isGoodFrame (.quiesce 1) = true
    ∧ partWaiting.flu.waiting = [.quiesce 1] ∧ partWaiting.flu.outbound.length < 32
    ∧ partWaiting.ctl.resetWait = none := by decide +kernel

/-- R163, R165: the bytes behind a frame that waits are taken after it. -/
theorem witness_Waiting_frame_conclusion :
    ((partSending 32).receive (quiesceBytes ++ quiesceBytes)).flu.waiting = [.quiesce 9]
    ∧ (after .deferredFrameTaken (after .frameSent (after .frameSent ((partSending 32).receive
      (quiesceBytes ++ quiesceBytes))))).flu.outbound.length = 32
    ∧ (after .deferredFrameTaken (after .frameSent ((partSending 32).receive (quiesceBytes ++ quiesceBytes)))).flu.waiting
      = [.quiesce 9] := by decide +kernel

/-! ### Small steps on the states above -/

/-- R82: recoveries of two streams that a port DOWN ends are told in the order of their faults, the later one last. -/
theorem test_recoveries_in_fault_order : (after .abortLimitExpiry
    (((partFailing .aborting 2).setStream 1 { fifo := [{ storeItem with recoveries := [⟨4, 5⟩] }] }).setStream 2
      { fifo := [{ storeItem with recoveries := [⟨3, 6⟩] }] })).evu.details[7] = 5 := by decide +kernel

/-- R99, R101: a fold of the granule of the LIVE record is chosen, into its STORE's stream. -/
theorem test_fold_choice : (after .foldChoice partLog).slu.fold.map (fun f => (f.lgn, f.generation, f.target)) =
    some (3, 4, 2) := by decide +kernel

/-- R114, R118, R123: a band with no LIVE slot is pending its reset as soon as it is chosen. -/
theorem test_victim_choice : (after .victimChoice partFull).cle.stage = .waitReset
    ∧ ((after .victimChoice partFull).band? 11).map Band.state = some .cleaning := by decide +kernel

/-- R33, R123: the reset band is EMPTY, and the CLEAN request it served is off the list. -/
theorem test_band_reset : ((after .bandReset (partWalk .waitReset [.dead, .torn])).band? 11).map
      (fun bd => (bd.state, bd.frontier, bd.slots)) = some (.empty, 0, [])
    ∧ (after .bandReset (partWalk .waitReset [.dead, .torn])).freeCount = 12 := by decide +kernel

/-- R118, R119: the LIVE slot is read whole, one run of 16 from band sector 16. -/
theorem test_batch_start : ((after .batchStart (partWalk .halted [.dead, .live 3])).har.queue .clean).map
    (fun o => (o.target, o.first, o.count)) = [(.band 11, 16, 16)] := by decide +kernel

/-- R172: the released STORE is queued behind the item being written. -/
theorem test_pressure_release : (after .pressureRelease partRelease).rqu.held = [] ∧
    ((after .pressureRelease partRelease).stream 2).fifo.map Item.lgn = [3] := by decide +kernel

/-- R91, R172: one sector too many, and the released STORE is held again. -/
theorem test_log_release : (after .logRelease (partLogHeld 57341)).rqu.held = [7]
    ∧ (after .logRelease (partLogHeld 57340)).slu.used = 57344 := by decide +kernel

/-- R187: the quiet part is QUIESCED. -/
theorem test_quiesce_complete : (after .quiesceComplete partQuiet).ctl.mode = .quiesced := by decide +kernel

/-- R163: an error past 65,535 leaves the counter there. -/
theorem test_frame_limit : (after .frameLimitExpiry partInFrame).flu.errors = 65535
    ∧ (after .badCheck part).evu.flags = 1024#13 := by decide +kernel

/-- R161, R162, R194: the bytes sent for a RESET reply, its check a CRC-32 computed apart. -/
theorem test_frame_sent : (after .frameSent (partSending 1)).flu.wire =
    [[0xA5, 0x3C, 2, 23, 1, 0, 4, 0, 0, 0, 0, 0, 0, 0, 0x7C, 0xEC, 0xAB, 0x7B]] := by decide +kernel

/-- R165: the waiting frame is judged once there is room; notices fill the queue to 32 and no further. -/
theorem test_waiting_and_notices : (after .deferredFrameTaken partWaiting).ctl.mode = .quiesced
    ∧ (after .watchNoticeTaken partNotices).flu.outbound.length = 32
    ∧ (after .watchNoticeTaken partNotices).evu.watchQueue.length = 32 := by decide +kernel

/-- R149, R204: the claim limit sends ABORT for order 9 and counts NO_CLAIM. -/
theorem test_claim_limit : (after .claimLimitExpiry (partPort .claiming readOp)).mpt.wire = [[3, 0, 9, 0]]
    ∧ (after .claimLimitExpiry (partPort .claiming readOp)).mpt.causes = 1#4 := by decide +kernel

/-- R158: the third counted failure takes the port DOWN and latches its causes. -/
theorem test_abort_limit : (after .abortLimitExpiry (partFailing .aborting 2)).mpt.up = false
    ∧ (after .abortLimitExpiry (partFailing .aborting 2)).mpt.latched = 4#4 := by decide +kernel

/-- R159: an OK to the probe brings the port UP; the probe limit leaves it DOWN and replies MEDIA_DOWN, status 9. -/
theorem test_probe : (after (.finished 0 0 0 0) partProbing).mpt.up = true
    ∧ lastStatus (after .probeLimitExpiry partProbing) = some (.num 4 9) := by decide +kernel

/-- R148, R204: the order a grant sends, READ_RUN of 6 sectors from sector 10 of track 4,096, order 1. -/
theorem test_head_grant : (after .headGrant (partQueued 0)).mpt.wire = [[2, 0, 1, 0, 0, 0x10, 0, 0, 10, 0, 6, 0]] := by
  decide +kernel

/-- R150: the re-issue sends the order again under the next number. -/
theorem test_reissue : (after .reissueDelayExpiry (partPort .deferred readOp)).mpt.order = ⟨10, 10, 6⟩ := by decide +kernel

set_option maxRecDepth 20000 in
/-- R193: a commit of the image of a part gives back its tables. -/
theorem test_commit_gives_tables : (after (.imageCommit 1) (partLoad load)).btu.zones = smallPart.btu.zones
    ∧ (after (.imageCommit 1) (partLoad load)).ctl.mode = .online := by decide +kernel

/-- R191: chunk 0 with a header of another format is refused. -/
theorem test_image_write_bad_header : lastStatus (after (.imageWrite 1 0 []) State.reset) = some (.num 4 4) := by
  decide +kernel

/-- R184: power-on reset of a working part. -/
theorem test_power_on : after .powerOnReset partWriting = State.reset := by decide +kernel

/-! ### The manual's worked cases: the four-zone geometry (1.8), the scored choice (6.2), aging (8.2), image size (12.3) -/

/-- The four zones of 1.8. -/
def fourZones : List ZoneDesc :=
  [⟨1000, 39000, 1024, 128, 2, 2⟩, ⟨40000, 40000, 896, 96, 3, 2⟩, ⟨80000, 40000, 771, 72, 2, 1⟩,
    ⟨120000, 40000, 613, 60, 2, 1⟩]

/-- R2, R3, R5: bands, first bands, capacities and tails. -/
theorem test_zone_table : fourZones.map zoneBands = [300, 404, 540, 645]
    ∧ [0, 1, 2, 3].map (firstBand fourZones) = [0, 300, 704, 1244] ∧ bandTotal fourZones = 1889
    ∧ fourZones.map zoneCap = [8192, 5376, 3469, 2298] ∧ fourZones.map zoneTail = [0, 0, 8, 12] := by decide +kernel

/-- R3, R4: where band 1,254 and the last band start. -/
theorem test_band_tracks : bandGeo fourZones 1254 = ⟨120620, 613, 60, 1, 2298⟩
    ∧ (bandGeo fourZones 1888).track0 = 159928 ∧ (locate fourZones 1254).map Prod.fst = some 3 := by decide +kernel

/-- R8: slot 38 straddles, slot 613 does not. -/
theorem test_cut_slots : cutSpan 613 608 16 = [⟨0, 608, 5, 0⟩, ⟨1, 0, 11, 5⟩]
    ∧ cutSpan 613 9808 16 = [⟨16, 0, 16, 0⟩] ∧ cutSpan 613 36752 16 = [⟨59, 585, 16, 0⟩] := by decide +kernel

/-- R10, R11: slot 38 is released at F = 1,839; slot 2,297 is still exposed at the end of the band. -/
theorem test_exposure : lastTrack 613 38 = 1 ∧ staysExposed (bandGeo fourZones 1254) (completedTracks 613 1824) 38 = true
    ∧ staysExposed (bandGeo fourZones 1254) (completedTracks 613 1839) 38 = false
    ∧ staysExposed (bandGeo fourZones 1254) (completedTracks 613 36768) 2297 = true := by decide +kernel

/-- R14: the capacity and the largest LGN counts. -/
theorem test_capacity : capacity fourZones [] = 7984974 ∧ overprovisioned fourZones [] 7515269 = true
    ∧ overprovisioned fourZones [] 7515270 = false ∧ overprovisioned fourZones [0, 1888] 7505396 = true
    ∧ overprovisioned fourZones [0, 1888] 7505397 = false := by decide +kernel

/-- R17: the ratios of the worked bands. -/
theorem test_reclaim_ratio : reclaimRatio 2298 700 = 712 ∧ reclaimRatio 2298 55 = 999 ∧ reclaimRatio 2298 1149 = 512
    ∧ reclaimRatio 2298 60 = 997 ∧ reclaimRatio 2298 1 = 1023 := by decide +kernel

/-- R86: a record across the wrap of the area. -/
theorem test_log_wrap : cutLog ⟨0, 1000, 1024⟩ 1023995 11 = [⟨999, 1019, 5, 0⟩, ⟨0, 0, 6, 5⟩]
    ∧ softLimit ⟨0, 1000, 1024⟩ = 896000 ∧ foldStart ⟨0, 1000, 1024⟩ = 512000 := by decide +kernel

/-- R203: the image of 80 EMPTY bands and 100,000 granules, and with one band written to F = 160. -/
theorem test_image_size : imageLength 1 100000 0 (List.replicate 80 0) = 2402712 ∧ chunksOf 2402712 = 37
    ∧ imageLength 1 100000 0 (10 :: List.replicate 79 0) = 2402752 := by decide +kernel

/-- R144, R145: after sixteen grants of READ, CLEAN has aged; then QUALIFY, the one class at 16. -/
theorem test_aging :
    let h : Har := { queues := #v[List.replicate 9 readOp, [], [], [readOp, readOp], [readOp]], skips := #v[0, 0, 0, 16, 16] }
    h.choose (effectiveOrder false false) = some .clean ∧ (h.granted .clean).skips = #v[1, 0, 0, 0, 16]
    ∧ (h.granted .clean).choose (effectiveOrder false false) = some .qualify
    ∧ ((h.granted .clean).granted .qualify).skips = #v[2, 0, 0, 1, 0]
    ∧ ((h.granted .clean).granted .qualify).choose (effectiveOrder false false) = some .read := by decide +kernel

/-- R135: the seeds of band 1,500. -/
theorem test_seeds : patternSeed 1500 0 = 98304001 ∧ patternSeed 1500 59 = 98304060 := by decide +kernel

end Sys2Proof.Tests
end

section
namespace Sys2Proof.Machine

/-! ### Runs of a span (R8) -/

/-- The first run of a span that is not empty, and the runs of what it leaves. -/
theorem cutFrom_succ {spt fuel a n off : Nat} (hn : n ≠ 0) :
    cutFrom spt (fuel + 1) a n off = ⟨a / spt, a % spt, min n (spt - a % spt), off⟩ ::
      cutFrom spt fuel (a + min n (spt - a % spt)) (n - min n (spt - a % spt)) (off + min n (spt - a % spt)) := by
  simp [cutFrom, hn]

@[simp] theorem cutFrom_zero (spt fuel a off : Nat) : cutFrom spt fuel a 0 off = [] := by
  cases fuel <;> simp [cutFrom]

/-- Where a run of a span lies: on one track, not empty, at its place of the span, and up to its track's end or the
span's. -/
theorem mem_cutFrom {spt : Nat} (hspt : 0 < spt) {fuel a n off : Nat} {p : Piece} (hp : p ∈ cutFrom spt fuel a n off) :
    0 < p.count ∧ p.sector + p.count ≤ spt ∧ spt * p.track + p.sector + off = a + p.offset
      ∧ (p.sector + p.count = spt ∨ p.offset + p.count = off + n) := by
  induction fuel generalizing a n off with
  | zero => simp [cutFrom] at hp
  | succ fuel ih =>
    by_cases hn : n = 0
    · simp [hn] at hp
    · have hlt := Nat.mod_lt a hspt
      rw [cutFrom_succ hn] at hp
      rcases List.mem_cons.1 hp with rfl | hp
      · have := Nat.div_add_mod a spt
        dsimp only
        omega
      · obtain ⟨hc, hs, hl, he⟩ := ih hp
        exact ⟨hc, hs, by omega, by omega⟩

/-- The runs of a span cover it. -/
theorem sum_cutFrom {spt : Nat} (hspt : 0 < spt) {fuel a n off : Nat} (hf : n ≤ fuel) :
    ((cutFrom spt fuel a n off).map Piece.count).sum = n := by
  induction fuel generalizing a n off with
  | zero => simp [cutFrom]; omega
  | succ fuel ih =>
    by_cases hn : n = 0
    · simp [hn]
    · have hlt := Nat.mod_lt a hspt
      rw [cutFrom_succ hn, List.map_cons, List.sum_cons, ih (by omega)]
      exact Nat.add_sub_cancel' (Nat.min_le_left ..)

/-- Each run starts where the ones before it end. -/
theorem offset_cutFrom {spt fuel a n off i : Nat} {p : Piece} (hp : (cutFrom spt fuel a n off)[i]? = some p) :
    p.offset = off + (((cutFrom spt fuel a n off).take i).map Piece.count).sum := by
  induction fuel generalizing a n off i with
  | zero => simp [cutFrom] at hp
  | succ fuel ih =>
    by_cases hn : n = 0
    · simp [hn] at hp
    · rw [cutFrom_succ hn] at hp ⊢
      cases i with
      | zero =>
        obtain rfl := Option.some.inj hp
        simp
      | succ i =>
        have := ih (by simpa using hp)
        rw [this, List.take_succ_cons, List.map_cons, List.sum_cons, Nat.add_assoc]

/-- Settles O11: the three facts of `cutFrom`, at a span's start. -/
theorem span_runs_cover : Obligations.Span_runs_cover := by
  intro spt a n hspt
  refine ⟨fun p hp => ?_, sum_cutFrom hspt le_rfl, fun i p hp => ?_⟩
  · simpa using mem_cutFrom hspt hp
  · simpa [cutSpan] using offset_cutFrom hp

/-- Settles O12: the quotient of R17 and its ends. -/
theorem reclaim_ratio_range : Obligations.Reclaim_ratio_range := by
  intro cap live hcap hlive
  refine ⟨Nat.div_le_of_le_mul ?_, rfl, fun h => ?_, fun h => ?_⟩
  · rw [Nat.mul_comm cap]; exact Nat.mul_le_mul_left _ (Nat.sub_le _ _)
  · simp [reclaimRatio, h]
  · simp [reclaimRatio, h, hcap]
end Sys2Proof.Machine
end

section
namespace Sys2Proof.Machine

/-! ### The geometry checks (R14 to R16, R85) -/

theorem zonesOrdered_iff (zs : List ZoneDesc) :
    zonesOrdered zs = true ↔ ∀ (i : Nat) (z y : ZoneDesc), zs[i]? = some z → zs[i + 1]? = some y →
      z.firstTrack + z.zoneTracks ≤ y.firstTrack := by
  induction zs with
  | nil => simp [zonesOrdered]
  | cons z zs ih =>
    cases zs with
    | nil => simp [zonesOrdered]
    | cons y zs =>
      simp only [zonesOrdered, Bool.and_eq_true, decide_eq_true_eq, ih]
      constructor
      · rintro ⟨hzy, hrest⟩ (_ | i) z' y' hz hy
        · obtain rfl := Option.some.inj hz
          obtain rfl := Option.some.inj hy
          exact hzy
        · exact hrest i z' y' (by simpa using hz) (by simpa using hy)
      · intro h
        exact ⟨h 0 z y rfl rfl, fun i z' y' hz hy => h (i + 1) z' y' (by simpa using hz) (by simpa using hy)⟩

/-- Two intervals of tracks lie apart exactly where no track is in both. -/
theorem areaApart_iff {a : AreaDesc} {z : ZoneDesc} (ha : 0 < a.tracks) (hz : 1 ≤ z.zoneTracks) :
    areaApart a z = true ↔ ∀ k, a.firstTrack ≤ k → k < a.firstTrack + a.tracks →
      k < z.firstTrack ∨ z.firstTrack + z.zoneTracks ≤ k := by
  simp only [areaApart, Bool.or_eq_true, decide_eq_true_eq]
  constructor
  · intro h k _ _; omega
  · intro h
    have := h (max a.firstTrack z.firstTrack)
    omega

theorem areaOk_iff (a : AreaDesc) :
    areaOk a = true ↔ (256 ≤ a.spt ∧ a.spt ≤ 1024) ∧ (65536 ≤ a.tracks * a.spt ∧ a.tracks * a.spt ≤ 4194304)
      ∧ a.firstTrack + a.tracks ≤ 16777216 := by
  simp only [areaOk, Bool.and_eq_true, decide_eq_true_eq]
  simp only [areaCap, Config.maxTrack]
  omega

/-- An area that passes R85 has tracks. -/
theorem tracks_pos_of_areaOk {a : AreaDesc} (h : areaOk a = true) : 0 < a.tracks := by
  obtain ⟨_, ⟨hcap, _⟩, _⟩ := (areaOk_iff a).1 h
  refine Nat.pos_of_ne_zero fun h0 => ?_
  simp [h0] at hcap

/-- One zone's checks together: its fields in range, its last track, and room for a band (R1, R16). -/
theorem zone_checks_iff (z : ZoneDesc) :
    (zoneInRange z = true ∧ z.firstTrack + z.zoneTracks - 1 ≤ Config.maxTrack ∧ 1 ≤ zoneBands z) ↔
      z.firstTrack ≤ 16777215 ∧ 1 ≤ z.zoneTracks ∧ z.zoneTracks ≤ 16777215 ∧ 256 ≤ z.spt ∧ z.spt ≤ 1024
        ∧ 16 ≤ z.tpb ∧ z.tpb ≤ 256 ∧ 1 ≤ z.guard ∧ z.guard ≤ 4 ∧ 1 ≤ z.exposure ∧ z.exposure ≤ 2
        ∧ z.firstTrack + z.zoneTracks ≤ 16777216 ∧ z.tpb + z.guard ≤ z.zoneTracks := by
  simp only [zoneInRange, Bool.and_eq_true, decide_eq_true_eq]
  simp only [Config.maxTrack]
  by_cases hg : 1 ≤ z.guard
  · rw [show (1 ≤ zoneBands z ↔ z.tpb + z.guard ≤ z.zoneTracks) from Nat.one_le_div_iff (by omega)]
    omega
  · simp [hg]

theorem geometryOk_areaOk_iff (zs : List ZoneDesc) (a : AreaDesc) :
    (geometryOk zs a = true ∧ areaOk a = true) ↔ GeometryPasses zs a := by
  have hzones : (zs.all zoneInRange = true ∧ zs.all (fun z => decide (z.firstTrack + z.zoneTracks - 1 ≤ Config.maxTrack))
      = true ∧ zs.all (fun z => decide (1 ≤ zoneBands z)) = true) ↔ ∀ z ∈ zs, zoneInRange z = true
        ∧ z.firstTrack + z.zoneTracks - 1 ≤ Config.maxTrack ∧ 1 ≤ zoneBands z := by
    simp only [List.all_eq_true, decide_eq_true_eq, forall_and]
  have happart (ha : areaOk a = true) (hz : ∀ z ∈ zs, 1 ≤ z.zoneTracks) : zs.all (areaApart a) = true ↔
      ∀ z ∈ zs, ∀ k, a.firstTrack ≤ k → k < a.firstTrack + a.tracks →
        k < z.firstTrack ∨ z.firstTrack + z.zoneTracks ≤ k := by
    rw [List.all_eq_true]
    exact forall₂_congr fun z hz' => areaApart_iff (tracks_pos_of_areaOk ha) (hz z hz')
  simp only [zone_checks_iff] at hzones
  simp only [geometryOk, Bool.and_eq_true, decide_eq_true_eq, zonesOrdered_iff]
  constructor
  · rintro ⟨⟨⟨⟨⟨⟨⟨⟨h1, h32⟩, hr⟩, hl⟩, ho⟩, hap⟩, hb⟩, hn⟩, ha⟩
    have hz := hzones.1 ⟨hr, hl, hb⟩
    exact ⟨⟨h1, h32⟩, hz, ho, (happart ha fun z h => (hz z h).2.1).1 hap, hn, (areaOk_iff a).1 ha⟩
  · rintro ⟨⟨h1, h32⟩, hz, ho, hap, hn, ha⟩
    have ha := (areaOk_iff a).2 ha
    obtain ⟨hr, hl, hb⟩ := hzones.2 hz
    exact ⟨⟨⟨⟨⟨⟨⟨⟨h1, h32⟩, hr⟩, hl⟩, ho⟩, (happart ha fun z h => (hz z h).2.1).2 hap⟩, hb⟩, hn⟩, ha⟩

/-! ### Bands by zone (R3, R14) -/

/-- The zone and the place in it of a band do not depend on where the zones' numbers start. -/
theorem locateFrom_eq_map (base : Nat) (zs : List ZoneDesc) (b : Nat) :
    locateFrom base zs b = (locate zs b).map fun x => (base + x.1, x.2) := by
  induction zs generalizing base b with
  | nil => rfl
  | cons z zs ih =>
    simp only [locate, locateFrom]
    split
    · rfl
    · rw [ih, ih (0 + 1), Option.map_map]
      congr 1
      funext x
      simp [Nat.add_assoc]

/-- The geometry of a band of the first zone. -/
theorem bandGeo_cons_lt {z : ZoneDesc} {b : Nat} (h : b < zoneBands z) (zs : List ZoneDesc) :
    (bandGeo (z :: zs) b).cap = zoneCap z := by
  simp [bandGeo, locate, locateFrom, h]

/-- The geometry of a band past the first zone is that of the zones behind it. -/
theorem bandGeo_cons_add (z : ZoneDesc) (zs : List ZoneDesc) (b : Nat) :
    bandGeo (z :: zs) (zoneBands z + b) = bandGeo zs b := by
  have : locate (z :: zs) (zoneBands z + b) = (locate zs b).map fun x => (1 + x.1, x.2) := by
    rw [locate, locateFrom, if_neg (by omega), locateFrom_eq_map, Nat.add_sub_cancel_left]
  rw [bandGeo, bandGeo, this]
  cases locate zs b <;> rfl

/-- The zone of a band is the one whose first band is at or below it, and the next one's above it (R3). -/
theorem locate_eq_some_iff (zs : List ZoneDesc) (b z : Nat) :
    (locate zs b).map Prod.fst = some z ↔ firstBand zs z ≤ b ∧ b < firstBand zs (z + 1) := by
  induction zs generalizing b z with
  | nil => simp [locate, locateFrom, firstBand, bandTotal]
  | cons y zs ih =>
    rw [locate, locateFrom]
    split
    · next hb =>
      cases z with
      | zero => simp [firstBand, bandTotal, hb]
      | succ z =>
        simp [firstBand, bandTotal]
        omega
    · next hb =>
      rw [locateFrom_eq_map, Option.map_map]
      cases z with
      | zero =>
        simp [firstBand, bandTotal, hb]
      | succ z =>
        have : ((locate zs (b - zoneBands y)).map Prod.fst = some z) ↔
          Option.map (Prod.fst ∘ fun x => (0 + 1 + x.1, x.2)) (locate zs (b - zoneBands y)) = some (z + 1) := by
          cases locate zs (b - zoneBands y) <;> simp
          omega
        rw [← this, ih]
        simp only [firstBand, List.take_succ_cons, bandTotal]
        omega

/-- CAP summed zone by zone is CAP summed band by band (R14). -/
theorem serviceSlots_eq_sum (retired : List Nat) (first : Nat) (zs : List ZoneDesc) :
    serviceSlots retired first zs =
      ((List.range (bandTotal zs)).map fun b => if first + b ∈ retired then 0 else (bandGeo zs b).cap).sum := by
  induction zs generalizing first with
  | nil => rfl
  | cons z zs ih =>
    have hfirst : ∀ n ≤ zoneBands z, ((List.range n).map fun b =>
        if first + b ∈ retired then 0 else (bandGeo (z :: zs) b).cap).sum =
          zoneCap z * (List.range n).countP fun i => !retired.contains (first + i) := by
      intro n hn
      induction n with
      | zero => rfl
      | succ n ih =>
        rw [List.range_succ, List.map_append, List.sum_append, ih (by omega), List.countP_append]
        by_cases hm : first + n ∈ retired <;> simp [hm, bandGeo_cons_lt (show n < zoneBands z by omega), Nat.mul_add]
    rw [serviceSlots, bandTotal, List.range_add, List.map_append, List.sum_append, hfirst _ le_rfl, ih, List.map_map]
    congr 3
    funext b
    simp [bandGeo_cons_add, Nat.add_assoc]

theorem capacity_eq_slotsInService (zs : List ZoneDesc) (retired : List Nat) :
    capacity zs retired = slotsInService zs retired := by
  simp [capacity, slotsInService, serviceSlots_eq_sum]

theorem emptyAfterFormat_eq_length (zs : List ZoneDesc) (retired : List Nat) :
    emptyAfterFormat zs retired = ((List.range (bandTotal zs)).filter fun b => decide (b ∉ retired)).length := by
  rw [emptyAfterFormat, List.countP_eq_length_filter]
  congr 2
  funext b
  by_cases h : b ∈ retired <;> simp [h]

theorem overprovisioned_iff (zs : List ZoneDesc) (retired : List Nat) (lgns : Nat) :
    overprovisioned zs retired lgns = true ↔ lgns * 17 ≤ slotsInService zs retired * 16 := by
  simp [overprovisioned, capacity_eq_slotsInService]

/-! ### FORMAT (R186) -/

theorem formatOk_iff (lgns reserve : Nat) (area : AreaDesc) (zones : List ZoneDesc) (retired : List Nat) :
    formatOk lgns reserve area zones retired = true ↔ FormatPasses lgns (formatReserve reserve) area zones retired := by
  simp only [FormatPasses, ← geometryOk_areaOk_iff, formatOk, Bool.and_eq_true, decide_eq_true_eq, List.all_eq_true,
    overprovisioned_iff, emptyAfterFormat_eq_length]
  simp only [Config.maxLgns]
  tauto

theorem length_freshBands (retired : List Nat) (z first : Nat) (zs : List ZoneDesc) :
    (freshBands retired z first zs).length = bandTotal zs := by
  induction zs generalizing z first with
  | nil => rfl
  | cons d zs ih => simp [freshBands, bandTotal, ih]

/-- The record a new table has in a band's place (R3, R18). -/
theorem getElem?_freshBands {retired : List Nat} (z first : Nat) {zs : List ZoneDesc} {b : Nat}
    (hb : b < bandTotal zs) :
    ∃ k, (freshBands retired z first zs)[b]? = some
        { number := first + b, zone := z + k, state := if first + b ∈ retired then .retired else .empty }
      ∧ firstBand zs k ≤ b ∧ b < firstBand zs (k + 1) := by
  induction zs generalizing z first b with
  | nil => simp [bandTotal] at hb
  | cons d zs ih =>
    by_cases hd : b < zoneBands d
    · refine ⟨0, ?_, by simp [firstBand, bandTotal], by simpa [firstBand, bandTotal] using hd⟩
      rw [freshBands, List.getElem?_append_left (by simpa using hd)]
      simp [hd]
    · obtain ⟨k, hk, hlo, hhi⟩ := ih (z + 1) (first + zoneBands d) (b := b - zoneBands d)
        (by rw [bandTotal] at hb; omega)
      have hsum : first + zoneBands d + (b - zoneBands d) = first + b := by omega
      refine ⟨k + 1, ?_, ?_, ?_⟩
      · rw [freshBands, List.getElem?_append_right (by simpa using hd)]
        simpa [hsum, Nat.add_assoc, Nat.add_comm k 1] using hk
      · simp only [firstBand, List.take_succ_cons, bandTotal] at hlo ⊢; omega
      · simp only [firstBand, List.take_succ_cons, bandTotal] at hhi ⊢; omega

theorem exec_format (s : State) (tag lgns reserve : Nat) (area : AreaDesc) (zones : List ZoneDesc) (retired : List Nat) :
    exec (.format tag lgns reserve area zones retired) s = .next (s.arrive (.format tag lgns reserve area zones retired)
      fun s => s.judgeFormat tag lgns reserve area zones retired) := rfl

/-- A FORMAT admitted in a state that takes it is judged by its own rule (R185, R186). -/
theorem exec_format_of_admits {s : State} {tag : Nat} (hadm : s.admitsTag tag)
    (hmode : s.ctl.mode = .unformatted ∨ s.ctl.mode = .quiesced) (lgns reserve : Nat) (area : AreaDesc)
    (zones : List ZoneDesc) (retired : List Nat) :
    exec (.format tag lgns reserve area zones retired) s =
      .next ((s.ready.admitRequest codeFormat tag).formatOwn tag lgns reserve area zones retired) := by
  have htaken : takenFormat.has s.ctl.mode = true := by
    rcases hmode with h | h <;> rw [h] <;> rfl
  have hst : takenFormat.has (s.ready.admitRequest codeFormat tag).ctl.mode = true := htaken
  simp only [exec_format, State.judgeFormat, State.arrive_admits hadm, State.inState, if_pos hst]

theorem freshStream_eq (zones : List ZoneDesc) (n : Fin 9) :
    freshStream zones n = { hi := if n = relocation then 31 else min 31 (zones.length - 1) } := by
  unfold freshStream
  split <;> rfl

/-- Settles O53: the checks one by one; a failed one refuses the FORMAT, else the tables are those `buildTables` gives. -/
theorem format_result : Obligations.Format_result := by
  intro s tag lgns reserve area zones retired
  refine ⟨formatOk_iff .., fun hadm hmode => ⟨fun hbad => ?_, fun hok => ?_⟩⟩
  · rw [exec_format_of_admits hadm hmode, State.formatOwn, if_neg (by simp [hbad]), State.refuse,
      State.finish_admit hadm.2.2]
  · rw [exec_format_of_admits hadm hmode, State.formatOwn, if_pos hok]
    dsimp only
    rw [State.finish_last (es := s.rqu.entries) (e := s.ready.newRequest codeFormat tag) rfl hadm.2.2 rfl]
    refine ⟨_, rfl, rfl, rfl, rfl, length_freshBands .., rfl, rfl, rfl, fun b hb => ?_, rfl, rfl, rfl, fun n _ => ?_, rfl,
      rfl, rfl, rfl, rfl, rfl, rfl, rfl, fun w _ => ?_, rfl, rfl, rfl, rfl, rfl⟩
    · simpa [State.band?, State.buildTables] using getElem?_freshBands (retired := retired) 0 0 hb
    · simp [State.stream, State.buildTables, freshStream_eq]
    · simp [State.buildTables]

end Sys2Proof.Machine
end

section
namespace Sys2Proof.Machine

/-! ### The checks of a commit (R192) -/

/-- A test of every element with its place. -/
theorem all_zipIdx_iff {α : Type} {l : List α} {p : α × Nat → Bool} :
    l.zipIdx.all p = true ↔ ∀ (i : Nat) (a : α), l[i]? = some a → p (a, i) = true := by
  rw [List.all_eq_true]
  exact ⟨fun h i a ha => h (a, i) (List.mk_mem_zipIdx_iff_getElem?.2 ha),
    fun h x hx => h x.2 x.1 (List.mem_zipIdx_iff_getElem?.1 hx)⟩

theorem presentAs_true {v : Option Nat} {ok : Nat → Bool} :
    presentAs true v ok = true ↔ ∃ x, v = some x ∧ ok x = true := by
  cases v <;> simp [presentAs]

theorem presentAs_false {v : Option Nat} {ok : Nat → Bool} : presentAs false v ok = true ↔ v = none := by
  cases v <;> simp [presentAs]

theorem CloseReason.isSome_ofCode (c : Nat) : (CloseReason.ofCode c).isSome = true ↔ c = 1 ∨ c = 2 ∨ c = 3 := by
  rcases c with _ | _ | _ | _ | c <;> simp [CloseReason.ofCode]

theorem BandState.ofCode_eq_empty (c : Nat) : BandState.ofCode c = some .empty ↔ c = 0 := by
  rcases c with _ | _ | _ | _ | _ | _ | c <;> simp [BandState.ofCode]

theorem BandState.ofCode_eq_opened (c : Nat) : BandState.ofCode c = some .opened ↔ c = 1 := by
  rcases c with _ | _ | _ | _ | _ | _ | c <;> simp [BandState.ofCode]

theorem BandState.ofCode_eq_retired (c : Nat) : BandState.ofCode c = some .retired ↔ c = 5 := by
  rcases c with _ | _ | _ | _ | _ | _ | c <;> simp [BandState.ofCode]

/-- A band record in keeping with the state its byte names, state by state (R18, R20). -/
theorem BandImage.stateOk_iff (b : BandImage) :
    (∃ st, BandState.ofCode b.state = some st ∧ b.stateOk st = true) ↔ b.state ≤ 5
      ∧ (b.state = 1 → ∃ n, b.stream = some n ∧ n ≤ 8) ∧ (b.state ≠ 1 → b.stream = none)
      ∧ (b.state = 2 ∨ b.state = 3 →
        b.closeOrder ≠ 0 ∧ (b.closeReason = some 1 ∨ b.closeReason = some 2 ∨ b.closeReason = some 3))
      ∧ (b.state ≠ 2 → b.state ≠ 3 → b.closeOrder = 0 ∧ b.closeReason = none)
      ∧ (b.state = 4 → b.prior = some 0 ∨ b.prior = some 5) ∧ (b.state ≠ 4 → b.prior = none)
      ∧ (b.state = 0 ∨ b.state = 4 ∨ b.state = 5 → b.frontier = 0) := by
  obtain ⟨h0, h1, h2, h3, h4, h5⟩ : BandState.ofCode 0 = some .empty ∧ BandState.ofCode 1 = some .opened
      ∧ BandState.ofCode 2 = some .full ∧ BandState.ofCode 3 = some .cleaning ∧ BandState.ofCode 4 = some .qualifying
      ∧ BandState.ofCode 5 = some .retired := ⟨rfl, rfl, rfl, rfl, rfl, rfl⟩
  rcases hst : b.state with _ | _ | _ | _ | _ | _ | k
  case succ.succ.succ.succ.succ.succ => simp [BandState.ofCode]
  all_goals
    simp [h0, h1, h2, h3, h4, h5, BandImage.stateOk, presentAs_true, presentAs_false, CloseReason.isSome_ofCode,
      BandState.ofCode_eq_empty, BandState.ofCode_eq_retired, and_assoc, and_left_comm, and_comm]

theorem Slot.isLive_eq_decide (x : Slot) : x.isLive = decide (x ≠ .dead ∧ x ≠ .torn) := by
  cases x <;> simp [Slot.isLive]

/-- Check 5 for one band record (R192). -/
theorem BandImage.ok_iff (b : BandImage) (zones : List ZoneDesc) (lgns i : Nat) :
    b.ok zones lgns i = true ↔ b.Passes zones lgns i := by
  have hstate : (match BandState.ofCode b.state with
      | some st => b.stateOk st
      | none => false) = true ↔ ∃ st, BandState.ofCode b.state = some st ∧ b.stateOk st = true := by
    cases BandState.ofCode b.state <;> simp
  have hslots : (b.slots.all fun e => match e with
      | .live lgn => decide (lgn < lgns)
      | .dead => true
      | .torn => true) = true ↔ ∀ lgn, .live lgn ∈ b.slots → lgn < lgns := by
    rw [List.all_eq_true]
    refine ⟨fun h lgn hl => by simpa using h _ hl, fun h e he => ?_⟩
    cases e with
    | live lgn => simpa using h lgn he
    | dead => rfl
    | torn => rfl
  have hlive : b.slots.countP Slot.isLive = b.slots.countP fun x => decide (x ≠ .dead ∧ x ≠ .torn) :=
    congrArg (fun p => b.slots.countP p) (funext Slot.isLive_eq_decide)
  simp only [BandImage.ok, Bool.and_eq_true, decide_eq_true_eq, hlive]
  constructor
  · rintro ⟨⟨⟨⟨⟨⟨⟨⟨⟨⟨hn, hz⟩, hst⟩, hfr⟩, hfat⟩, hlen⟩, hl⟩, hd⟩, ht⟩, hcap⟩, hlgn⟩
    obtain ⟨h5, ho, hno, hc, hnc, hq, hnq, hf⟩ := b.stateOk_iff.1 (hstate.1 hst)
    exact ⟨hn, (locate_eq_some_iff ..).1 hz.symm, h5, ho, hno, hc, hnc, hq, hnq, hf, hfr, hfat, hlen, hl, hd, ht, hcap,
      hslots.1 hlgn⟩
  · rintro ⟨hn, hz, h5, ho, hno, hc, hnc, hq, hnq, hf, hfr, hfat, hlen, hl, hd, ht, hcap, hlgn⟩
    exact ⟨⟨⟨⟨⟨⟨⟨⟨⟨⟨hn, ((locate_eq_some_iff ..).2 hz).symm⟩,
      hstate.2 (b.stateOk_iff.2 ⟨h5, ho, hno, hc, hnc, hq, hnq, hf⟩)⟩, hfr⟩, hfat⟩, hlen⟩, hl⟩, hd⟩, ht⟩, hcap⟩,
      hslots.2 hlgn⟩

/-- Check 6 (R192). -/
theorem Image.streamsOk_iff (m : Image) : m.streamsOk = true ↔ m.StreamsPass := by
  have hopen (b n : Nat) : m.openFor b n = true ↔
      ∃ bi : BandImage, m.bands[b]? = some bi ∧ bi.state = 1 ∧ bi.stream = some n := by
    unfold Image.openFor
    cases m.bands[b]? <;> simp [BandState.ofCode_eq_opened]
  have hbands : (m.bands.all fun b => match BandState.ofCode b.state, b.stream with
      | some .opened, some n => decide ((m.streams[n]?.bind fun x => x.2.2) = some b.number)
      | _, _ => true) = true ↔ ∀ b ∈ m.bands, b.state = 1 → ∀ n, b.stream = some n →
        (m.streams[n]?.bind fun x => x.2.2) = some b.number := by
    rw [List.all_eq_true]
    refine forall₂_congr fun b _ => ?_
    rw [← BandState.ofCode_eq_opened]
    split
    · next h h' => simp [h, h']
    · next h =>
      refine ⟨fun _ ho n hn => (h n ho hn).elim, fun _ => rfl⟩
  have hstreams : (m.streams.zipIdx.all fun e => match e.1.2.2 with
      | some b => m.openFor b e.2
      | none => true) = true ↔ ∀ (n : Nat) (x : Nat × Nat × Option Nat) (b : Nat), m.streams[n]? = some x →
        x.2.2 = some b → ∃ bi : BandImage, m.bands[b]? = some bi ∧ bi.state = 1 ∧ bi.stream = some n := by
    rw [all_zipIdx_iff]
    refine forall₂_congr fun n x => ?_
    cases x.2.2 with
    | none => simp
    | some b => simp [hopen]
  have hranges : (m.streams.all fun x => decide (x.1 ≤ x.2.1) && decide (x.2.1 ≤ 31)) = true ↔
      ∀ x ∈ m.streams, x.1 ≤ x.2.1 ∧ x.2.1 ≤ 31 := by
    simp [List.all_eq_true]
  simp only [Image.streamsOk, Bool.and_eq_true, decide_eq_true_eq]
  exact ⟨fun ⟨⟨⟨hr, h8⟩, hb⟩, hs⟩ => ⟨hranges.1 hr, h8, hbands.1 hb, hstreams.1 hs⟩,
    fun ⟨hr, h8, hb, hs⟩ => ⟨⟨⟨hranges.2 hr, h8⟩, hbands.2 hb⟩, hstreams.2 hs⟩⟩

/-- The checks of R60 on one entry. -/
theorem Image.entryOk_iff (m : Image) (e : MapEntry) (lgn : Nat) :
    m.entryOk e lgn = true ↔ m.EntryPasses lgn e := by
  have hhome : (match e.home with
      | some h => decide ((m.bands[h.band]?.bind fun b => b.slots[h.slot]?) = some (.live lgn))
      | none => true) = true ↔ ∀ h, e.home = some h →
        ∃ bi : BandImage, m.bands[h.band]? = some bi ∧ bi.slots[h.slot]? = some (.live lgn) := by
    cases e.home <;> simp [Option.bind_eq_some_iff]
  have hnewest : (match e.newest with
      | some p => (m.chainOf lgn).any fun r => decide (r.pos = p)
          && (m.chainOf lgn).all fun x => decide (x.sequence ≤ r.sequence)
      | none => (m.chainOf lgn).isEmpty) = true ↔
      (∀ p, e.newest = some p → ∃ r ∈ m.chainOf lgn, r.pos = p ∧ ∀ x ∈ m.chainOf lgn, x.sequence ≤ r.sequence)
        ∧ (e.newest = none → m.chainOf lgn = []) := by
    cases e.newest <;> simp
  have hlost : (!(e.home.isSome && e.lost)) = true ↔ (e.home ≠ none → e.lost = false) := by
    cases e.home <;> simp
  have hbase : (decide (e.base ≠ 0) || (e.home.isNone && !e.lost)) = true ↔
      (e.base = 0 → e.home = none ∧ e.lost = false) := by
    by_cases h : e.base = 0 <;> simp [h]
  have hseq : (m.chainOf lgn).all (fun r => decide (e.base < r.sequence)) = true ↔
      ∀ r ∈ m.chainOf lgn, e.base < r.sequence := by
    simp
  simp only [Image.entryOk, Bool.and_eq_true, decide_eq_true_eq]
  constructor
  · rintro ⟨⟨⟨⟨⟨⟨⟨hl, hb⟩, hh⟩, ho⟩, h8⟩, hn⟩, hs⟩, hm⟩
    exact ⟨hlost.1 hl, hbase.1 hb, hhome.1 hh, ho, h8, (hnewest.1 hn).1, (hnewest.1 hn).2, hseq.1 hs, hm⟩
  · rintro ⟨hl, hb, hh, ho, h8, hp, hn, hs, hm⟩
    exact ⟨⟨⟨⟨⟨⟨⟨hlost.2 hl, hbase.2 hb⟩, hhome.2 hh⟩, ho⟩, h8⟩, hnewest.2 ⟨hp, hn⟩⟩, hseq.2 hs⟩, hm⟩

/-- Check 7 (R60, R192). -/
theorem Image.mapOk_iff (m : Image) :
    m.mapOk = true ↔ (∀ (lgn : Nat) (e : MapEntry), m.entries[lgn]? = some e → m.EntryPasses lgn e)
      ∧ (∀ b ∈ m.bands, ∀ w lgn : Nat, b.slots[w]? = some (.live lgn) →
        ∃ e : MapEntry, m.entries[lgn]? = some e ∧ e.home = some ⟨b.number, w⟩)
      ∧ ∀ r ∈ m.dir, r.record.sequence < m.sequence := by
  have hslots : (m.bands.all fun b => b.slots.zipIdx.all fun e => match e.1 with
      | .live lgn => decide ((m.entries[lgn]?.bind MapEntry.home) = some ⟨b.number, e.2⟩)
      | .dead => true
      | .torn => true) = true ↔ ∀ b ∈ m.bands, ∀ w lgn : Nat, b.slots[w]? = some (.live lgn) →
        ∃ e : MapEntry, m.entries[lgn]? = some e ∧ e.home = some ⟨b.number, w⟩ := by
    rw [List.all_eq_true]
    refine forall₂_congr fun b _ => ?_
    rw [all_zipIdx_iff]
    refine forall_congr' fun w => ⟨fun h lgn hl => ?_, fun h x hx => ?_⟩
    · simpa [Option.bind_eq_some_iff] using h _ hl
    · cases x with
      | live lgn => simpa [Option.bind_eq_some_iff] using h lgn hx
      | dead => rfl
      | torn => rfl
  have hentries : (m.entries.zipIdx.all fun e => m.entryOk e.1 e.2) = true ↔
      ∀ (lgn : Nat) (e : MapEntry), m.entries[lgn]? = some e → m.EntryPasses lgn e := by
    simp only [all_zipIdx_iff, Image.entryOk_iff]
  have hdir : (m.dir.all fun r => decide (r.record.sequence < m.sequence)) = true ↔
      ∀ r ∈ m.dir, r.record.sequence < m.sequence := by
    simp
  simp only [Image.mapOk, Bool.and_eq_true]
  exact ⟨fun ⟨⟨he, hs⟩, hd⟩ => ⟨hentries.1 he, hslots.1 hs, hdir.1 hd⟩,
    fun ⟨he, hs, hd⟩ => ⟨⟨hentries.2 he, hslots.2 hs⟩, hdir.2 hd⟩⟩

/-! The log of an image (R88, R109). -/

theorem Record.fieldsOk_iff (r : Record) (cap lgns : Nat) : r.fieldsOk cap lgns = true ↔ r.Passes cap lgns := by
  have hprev (h : r.pos < cap) : r.prev.getD 0 < cap ↔ ∀ p ∈ r.prev, p < cap := by
    cases r.prev with
    | none => simpa using Nat.zero_lt_of_lt h
    | some p => simp
  simp only [Record.fieldsOk, Bool.and_eq_true, decide_eq_true_eq]
  simp only [Record.Passes, Config.counterMax]
  by_cases h : r.pos < cap
  · rw [hprev h]; tauto
  · simp [h]

/-- Records follow one another from `p` to the tail exactly where each stands behind the lengths before it. -/
theorem contiguous_iff {cap : Nat} (tail : Nat) {p : Nat} (hp : p < cap) (rs : List Record) :
    contiguous cap tail p rs = true ↔
      (∀ (i : Nat) (r : Record), rs[i]? = some r → r.pos = (p + ((rs.take i).map Record.len).sum) % cap)
      ∧ tail = (p + (rs.map Record.len).sum) % cap := by
  induction rs generalizing p with
  | nil => simp [contiguous, Nat.mod_eq_of_lt hp, eq_comm]
  | cons r rs ih =>
    simp only [contiguous, Bool.and_eq_true, decide_eq_true_eq, ih (Nat.mod_lt _ (Nat.zero_lt_of_lt hp)), Nat.mod_add_mod,
      List.map_cons, List.sum_cons, Nat.add_assoc]
    constructor
    · rintro ⟨hr, hrs, ht⟩
      refine ⟨fun i x hx => ?_, ht⟩
      cases i with
      | zero =>
        obtain rfl := Option.some.inj hx
        simpa [Nat.mod_eq_of_lt hp] using hr
      | succ i => simpa [Nat.add_assoc] using hrs i x (by simpa using hx)
    · rintro ⟨hrs, ht⟩
      refine ⟨by simpa [Nat.mod_eq_of_lt hp] using hrs 0 r rfl, fun i x hx => ?_, ht⟩
      simpa [Nat.add_assoc] using hrs (i + 1) x (by simpa using hx)

theorem distinctSequences_iff (rs : List Record) :
    distinctSequences rs = true ↔ ∀ (i j : Nat) (r x : Record), i < j → rs[i]? = some r → rs[j]? = some x →
      r.lgn = x.lgn → r.sequence ≠ x.sequence := by
  have hpair : distinctSequences rs = true ↔ rs.Pairwise fun r x => r.lgn = x.lgn → r.sequence ≠ x.sequence := by
    induction rs with
    | nil => simp [distinctSequences]
    | cons r rs ih =>
      simp only [distinctSequences, Bool.and_eq_true, ih, List.pairwise_cons, List.all_eq_true, Bool.or_eq_true,
        decide_eq_true_eq, ← imp_iff_not_or, eq_comm (a := r.lgn), ne_eq, eq_comm (a := r.sequence)]
  rw [hpair, List.pairwise_iff_getElem]
  constructor
  · intro h i j r x hij hr hx
    obtain ⟨hi, rfl⟩ := List.getElem?_eq_some_iff.1 hr
    obtain ⟨hj, rfl⟩ := List.getElem?_eq_some_iff.1 hx
    exact h i j hi hj hij
  · exact fun h i j hi hj hij => h i j _ _ hij (List.getElem?_eq_getElem hi) (List.getElem?_eq_getElem hj)

/-- `x` is what the previous field `p` of `r` may name: a LIVE record of its LGN, of a lower sequence (R109). -/
def Record.mayPrecede (x r : Record) (p : Nat) : Prop :=
  x.pos = p ∧ x.state = .live ∧ x.lgn = r.lgn ∧ x.sequence < r.sequence

theorem previousOk_iff (before rs : List Record) :
    previousOk before rs = true ↔ ∀ (i : Nat) (r : Record) (p : Nat), rs[i]? = some r → r.prev = some p →
      ∃ x, (x ∈ before ∨ x ∈ rs.take i) ∧ x.mayPrecede r p := by
  induction rs generalizing before with
  | nil => simp [previousOk]
  | cons r rs ih =>
    have hhead : (match r.prev with
        | some p => before.any fun x => decide (x.pos = p) && decide (x.state = .live) && decide (x.lgn = r.lgn)
            && decide (x.sequence < r.sequence)
        | none => true) = true ↔ ∀ p, r.prev = some p → ∃ x ∈ before, x.mayPrecede r p := by
      cases r.prev <;> simp [Record.mayPrecede, and_assoc]
    rw [previousOk, Bool.and_eq_true, ih]
    constructor
    · rintro ⟨hr, hrs⟩ i y p hy hp
      cases i with
      | zero =>
        obtain rfl := Option.some.inj hy
        obtain ⟨x, hx, hm⟩ := hhead.1 hr p hp
        exact ⟨x, .inl hx, hm⟩
      | succ i =>
        obtain ⟨x, hx, hm⟩ := hrs i y p (by simpa using hy) hp
        exact ⟨x, by simp at hx ⊢; tauto, hm⟩
    · intro h
      refine ⟨hhead.2 fun p hp => ?_, fun i y p hy hp => ?_⟩
      · obtain ⟨x, hx, hm⟩ := h 0 r p rfl hp
        exact ⟨x, by simpa using hx, hm⟩
      · obtain ⟨x, hx, hm⟩ := h (i + 1) y p (by simpa using hy) hp
        exact ⟨x, by simp at hx ⊢; tauto, hm⟩

theorem previousOk_nil_iff (rs : List Record) :
    previousOk [] rs = true ↔ ∀ (i : Nat) (r : Record) (p : Nat), rs[i]? = some r → r.prev = some p →
      ∃ (j : Nat) (x : Record), j < i ∧ rs[j]? = some x ∧ x.pos = p ∧ x.state = .live ∧ x.lgn = r.lgn
        ∧ x.sequence < r.sequence := by
  rw [previousOk_iff]
  refine forall₃_congr fun i r p => imp_congr_right fun hr => imp_congr_right fun _ => ⟨?_, ?_⟩
  · rintro ⟨x, hx, hm⟩
    obtain ⟨j, hj, rfl⟩ := List.mem_take_iff_getElem.1 (by simpa using hx)
    exact ⟨j, _, by omega, List.getElem?_eq_getElem (by omega), hm⟩
  · rintro ⟨j, x, hji, hx, hm⟩
    obtain ⟨hj, rfl⟩ := List.getElem?_eq_some_iff.1 hx
    exact ⟨_, .inr (List.mem_take_iff_getElem.2 ⟨j, by omega, rfl⟩), hm⟩

/-- Check 8 (R109, R192). -/
theorem Image.logOk_iff (m : Image) : m.logOk = true ↔ m.LogPasses (m.dir.map RecordImage.record) := by
  simp only [Image.logOk, Bool.and_eq_true, decide_eq_true_eq, List.all_eq_true, Bool.or_eq_true, Record.fieldsOk_iff,
    distinctSequences_iff, previousOk_nil_iff]
  simp only [Image.LogPasses, recordSectors, Config.dirCapacity]
  by_cases hh : m.head < areaCap m.area
  · rw [contiguous_iff _ hh]; tauto
  · simp [hh]

/-- Check 2: the length of an image by its counts, and its check with the check field taken as zero (R192, R203). -/
theorem Image.lengthOk_iff (m : Image) (bs : List Byte) :
    m.lengthOk bs = true ↔
      m.length = 64 + 16 * m.zones.length + (m.bands.map fun b => 32 + 4 * b.slots.length).sum + 72 + 24 * m.lgnCount
        + 28 * m.dir.length
      ∧ (crc32 (bs.take 16 ++ List.replicate 4 0#8 ++ (bs.take m.length).drop 20)).toNat = fieldAt bs 16 4 := by
  have hlen : imageLength m.zones.length m.lgnCount m.dir.length (m.bands.map fun b => b.slots.length) =
      64 + 16 * m.zones.length + (m.bands.map fun b => 32 + 4 * b.slots.length).sum + 72 + 24 * m.lgnCount
        + 28 * m.dir.length := by
    rw [imageLength, List.map_map]; rfl
  rw [Image.lengthOk, Bool.and_eq_true, decide_eq_true_eq, decide_eq_true_eq, hlen]
  refine and_congr_right fun h => ?_
  rw [withoutCheck, List.take_take, Nat.min_eq_left (by omega)]
  rfl

/-- The checks of R192, one by one. -/
theorem loadOk_iff (l : ImageLoad) : loadOk l = true ↔ LoadPasses l (readImage l.chunks.flatten) := by
  simp only [loadOk, Bool.and_eq_true, decide_eq_true_eq, Image.lengthOk_iff, Image.streamsOk_iff, Image.mapOk_iff,
    Image.logOk_iff, Image.bandsOk, all_zipIdx_iff, BandImage.ok_iff, Image.rangesOk, Image.geometryOk,
    overprovisioned_iff]
  simp only [LoadPasses, ← geometryOk_areaOk_iff, Config.maxLgns]
  generalize readImage l.chunks.flatten = m
  have hcount : geometryOk m.zones m.area = true → 1 ≤ m.zones.length ∧ m.zones.length ≤ 32 := fun h => by
    simp only [geometryOk, Bool.and_eq_true, decide_eq_true_eq] at h
    tauto
  tauto
end Sys2Proof.Machine
end

section
namespace Sys2Proof.Machine

/-! ### The tables a commit builds (R41, R60, R193) -/

theorem length_pieces (size n : Nat) (bs : List Byte) : (pieces size n bs).length = n := by
  induction n generalizing bs with
  | zero => rfl
  | succ n ih => simp [pieces, ih]

theorem length_readBands (n : Nat) (bs : List Byte) : (readBands n bs).1.length = n := by
  induction n generalizing bs with
  | zero => rfl
  | succ n ih => simp [readBands, ih]

/-- An image holds as many band records as its header says (R202). -/
theorem length_readImage_bands (bs : List Byte) : (readImage bs).bands.length = (readImage bs).bandCount :=
  length_readBands ..

/-- An image holds nine stream records (R202). -/
theorem length_readImage_streams (bs : List Byte) : (readImage bs).streams.length = 9 := by
  simp [readImage, length_pieces]

/-- The counter of close orders after one more, which stands still at its maximum (R30). -/
def nextClose (c : Nat) : Nat := min (c + 1) Config.counterMax

/-- One band record converted with the close-order counter at `c` (R41). -/
def Band.converted (c : Nat) (b : Band) : Band :=
  match b.state with
  | .opened => { b with state := .full, stream := none, closeOrder := some c, closeReason := some .image }
  | .cleaning => { b with state := .full }
  | .qualifying => { b with state := b.prior.getD .empty, prior := none }
  | .empty => b
  | .full => b
  | .retired => b

/-- The close-order counter after `n` OPEN bands were stamped. -/
def closeAfter (c n : Nat) : Nat := min (c + n) Config.counterMax

/-- The conversion of a table: its first band, then the rest with the counter moved on past an OPEN one. -/
theorem convertBands_cons (c : Nat) (b : Band) (bs : List Band) :
    convertBands c (b :: bs) =
      (b.converted c :: (convertBands (if b.state = .opened then nextClose c else c) bs).1,
        (convertBands (if b.state = .opened then nextClose c else c) bs).2) := by
  cases h : b.state <;> simp [convertBands, Band.converted, nextClose, h]

/-- Whether a band record is OPEN. -/
def Band.isOpened (b : Band) : Bool := decide (b.state = .opened)

theorem closeAfter_ite {c : Nat} (hc : c ≤ Config.counterMax) (b : Band) (n : Nat) :
    closeAfter (if b.state = .opened then nextClose c else c) n = closeAfter c (n + if b.isOpened then 1 else 0) := by
  by_cases h : b.state = .opened <;> simp [closeAfter, nextClose, Band.isOpened, h]
  omega

theorem nextClose_ite_le {c : Nat} (hc : c ≤ Config.counterMax) (b : Band) :
    (if b.state = .opened then nextClose c else c) ≤ Config.counterMax := by
  split
  · exact Nat.min_le_right ..
  · exact hc

theorem convertBands_snd {c : Nat} (hc : c ≤ Config.counterMax) (bs : List Band) :
    (convertBands c bs).2 = closeAfter c (bs.countP Band.isOpened) := by
  induction bs generalizing c with
  | nil => simp [convertBands, closeAfter, hc]
  | cons b bs ih => rw [convertBands_cons, ih (nextClose_ite_le hc b), closeAfter_ite hc, List.countP_cons]

/-- Each band is converted with the counter moved on by the OPEN bands before it (R41). -/
theorem convertBands_fst {c : Nat} (hc : c ≤ Config.counterMax) (bs : List Band) (i : Nat) :
    (convertBands c bs).1[i]? =
      bs[i]?.map (Band.converted (closeAfter c ((bs.take i).countP Band.isOpened))) := by
  induction bs generalizing c i with
  | nil => simp [convertBands]
  | cons b bs ih =>
    rw [convertBands_cons]
    cases i with
    | zero => simp [closeAfter, hc]
    | succ i =>
      rw [List.getElem?_cons_succ, List.getElem?_cons_succ, ih (nextClose_ite_le hc b), closeAfter_ite hc,
        List.take_succ_cons, List.countP_cons]

theorem length_convertBands (c : Nat) (bs : List Band) : (convertBands c bs).1.length = bs.length := by
  induction bs generalizing c with
  | nil => rfl
  | cons b bs ih => simp [convertBands_cons, ih]

theorem Band.converted_kept (c : Nat) (b : Band) :
    (b.converted c).number = b.number ∧ (b.converted c).zone = b.zone ∧ (b.converted c).frontier = b.frontier
      ∧ (b.converted c).slots = b.slots ∧ (b.converted c).retry = b.retry ∧ (b.converted c).fatigue = b.fatigue
      ∧ (b.converted c).readers = b.readers ∧ (b.converted c).holdBlocked = b.holdBlocked := by
  unfold Band.converted
  split <;> exact ⟨rfl, rfl, rfl, rfl, rfl, rfl, rfl, rfl⟩

/-- What a commit makes of one band record of an image that passes check 5 (R41). -/
theorem BandImage.Passes.converted {bi : BandImage} {zones : List ZoneDesc} {lgns i : Nat} (h : bi.Passes zones lgns i)
    (c : Nat) :
    (bi.band.converted c).stream = none ∧ (bi.band.converted c).prior = none
      ∧ (bi.state = 0 → (bi.band.converted c).state = .empty) ∧ (bi.state = 5 → (bi.band.converted c).state = .retired)
      ∧ (bi.state = 1 → (bi.band.converted c).state = .full ∧ (bi.band.converted c).closeReason = some .image
        ∧ (bi.band.converted c).closeOrder = some c)
      ∧ (bi.state = 2 ∨ bi.state = 3 → (bi.band.converted c).state = .full
        ∧ (bi.band.converted c).closeReason.map CloseReason.code = bi.closeReason
        ∧ (bi.band.converted c).closeOrder = some bi.closeOrder)
      ∧ (bi.state = 4 → (bi.band.converted c).state = if bi.prior = some 0 then .empty else .retired)
      ∧ (bi.state = 0 ∨ bi.state = 4 ∨ bi.state = 5 → (bi.band.converted c).closeReason = none
        ∧ (bi.band.converted c).closeOrder = none) := by
  obtain ⟨-, -, h5, -, hstream, hclosed, hnot, hprior, hnoPrior, -⟩ := h
  have hstate : bi.state = 0 ∨ bi.state = 1 ∨ bi.state = 2 ∨ bi.state = 3 ∨ bi.state = 4 ∨ bi.state = 5 := by omega
  rcases hstate with hst | hst | hst | hst | hst | hst
  case inr.inr.inr.inr.inl =>
    obtain ⟨ho, hr⟩ := hnot (by omega) (by omega)
    rcases hprior hst with hp | hp <;>
      simp [Band.converted, BandImage.band, BandState.ofCode, hst, hstream, ho, hr, hp]
  case inr.inr.inl | inr.inr.inr.inl =>
    obtain ⟨ho, hr⟩ := hclosed (by omega)
    rcases hr with hr | hr | hr <;>
      simp [Band.converted, BandImage.band, BandState.ofCode, hst, hstream, ho, hr, hnoPrior, CloseReason.ofCode,
        CloseReason.code]
  all_goals
    obtain ⟨ho, hr⟩ := hnot (by omega) (by omega)
    simp [Band.converted, BandImage.band, BandState.ofCode, hst, hstream, ho, hr, hnoPrior]

theorem BandImage.isOpened_band (b : BandImage) : b.band.isOpened = decide (b.state = 1) := by
  rcases hst : b.state with _ | _ | _ | _ | _ | _ | k <;> simp [Band.isOpened, BandImage.band, BandState.ofCode, hst]

theorem countP_isOpened_band (bs : List BandImage) :
    (bs.map BandImage.band).countP Band.isOpened = bs.countP fun x => decide (x.state = 1) := by
  rw [List.countP_map]
  exact congrArg (fun p => bs.countP p) (funext BandImage.isOpened_band)

theorem highestClose_band (bs : List BandImage) :
    highestClose (bs.map BandImage.band) = (bs.map BandImage.closeOrder).foldl max 0 := by
  have hclose (b : BandImage) : b.band.closeOrder.getD 0 = b.closeOrder := by
    by_cases h : b.closeOrder = 0 <;> simp [BandImage.band, h]
  simp only [highestClose, List.foldl_map, hclose]

/-- The refresh list a commit builds: the FULL bands of high retry counter (R41). -/
theorem refresh_convertBands {bs : List BandImage}
    (h : ∀ b ∈ bs, ∀ c, (b.band.converted c).state = .full ↔ b.state = 1 ∨ b.state = 2 ∨ b.state = 3) (c : Nat) :
    ((convertBands c (bs.map BandImage.band)).1.filter
        fun b => decide (b.state = .full) && decide (128 ≤ b.retry)).map Band.number =
      (bs.filter fun x => decide ((x.state = 1 ∨ x.state = 2 ∨ x.state = 3) ∧ 128 ≤ x.retry)).map BandImage.number := by
  induction bs generalizing c with
  | nil => rfl
  | cons b bs ih =>
    obtain ⟨hnumber, -, -, -, hretry, -⟩ := b.band.converted_kept c
    have hfull := h b (by simp) c
    have ih := fun c => ih (fun b hb => h b (by simp [hb])) c
    rw [List.map_cons, convertBands_cons, List.filter_cons, List.filter_cons]
    rw [show (decide ((b.band.converted c).state = .full) && decide (128 ≤ (b.band.converted c).retry)) =
      decide ((b.state = 1 ∨ b.state = 2 ∨ b.state = 3) ∧ 128 ≤ b.retry) by
        rw [hretry, ← Bool.decide_and]; exact decide_eq_decide.2 (and_congr_left' hfull)]
    split
    · rw [List.map_cons, List.map_cons, ih, hnumber]; rfl
    · exact ih _

/-- The map a commit builds from entry `k` on (R60). -/
def sparseFrom (k : Nat) (es : List MapEntry) : List (Nat × MapEntry) :=
  ((es.zipIdx k).map fun e => (e.2, e.1)).filter fun e => decide (e.2 ≠ {})

theorem sparseFrom_cons (k : Nat) (e : MapEntry) (es : List MapEntry) :
    sparseFrom k (e :: es) = if e = {} then sparseFrom (k + 1) es else (k, e) :: sparseFrom (k + 1) es := by
  by_cases h : e = {} <;> simp [sparseFrom, h]

theorem le_of_mem_sparseFrom {k : Nat} {es : List MapEntry} {x : Nat × MapEntry} (hx : x ∈ sparseFrom k es) :
    k ≤ x.1 := by
  simp only [sparseFrom, List.mem_filter, List.mem_map] at hx
  obtain ⟨⟨y, hy, rfl⟩, -⟩ := hx
  exact List.le_snd_of_mem_zipIdx hy

theorem tableWf_sparseFrom (k : Nat) (es : List MapEntry) : tableWf {} (sparseFrom k es) = true := by
  induction es generalizing k with
  | nil => rfl
  | cons e es ih =>
    rw [sparseFrom_cons]
    split
    · exact ih _
    · next h => exact tableWf_cons.2 ⟨h, keysAbove_iff.2 fun x hx => le_of_mem_sparseFrom hx, ih _⟩

theorem tableGet_sparseFrom (k : Nat) (es : List MapEntry) (i : Nat) :
    tableGet {} (sparseFrom k es) (k + i) = es[i]?.getD {} := by
  induction es generalizing k i with
  | nil => rfl
  | cons e es ih =>
    rw [sparseFrom_cons]
    cases i with
    | zero =>
      split
      · next h =>
        rw [h]
        exact tableGet_of_keysAbove (k := k) (keysAbove_iff.2 fun x hx => le_of_mem_sparseFrom hx) le_rfl
      · simp [tableGet]
    | succ i =>
      have := ih (k + 1) i
      rw [show k + 1 + i = k + (i + 1) by omega] at this
      split
      · simpa using this
      · rw [tableGet, if_neg (by omega)]
        simpa using this

theorem Image.gmu_map (m : Image) : m.gmu.map = sparseFrom 0 m.entries := rfl

theorem exec_imageCommit (s : State) (tag : Nat) :
    exec (.imageCommit tag) s = .next (s.arrive (.imageCommit tag) fun s => s.judgeImageCommit tag) := rfl

/-- An IMAGE_COMMIT admitted in UNFORMATTED is judged by its own rule (R185, R192). -/
theorem exec_imageCommit_of_admits {s : State} {tag : Nat} (hadm : s.admitsTag tag) (hmode : s.ctl.mode = .unformatted) :
    exec (.imageCommit tag) s = .next ((s.ready.admitRequest codeImageCommit tag).imageCommitOwn tag) := by
  have htaken : takenUnformatted.has (s.ready.admitRequest codeImageCommit tag).ctl.mode = true :=
    (congrArg takenUnformatted.has hmode).trans rfl
  simp only [exec_imageCommit, State.judgeImageCommit, State.arrive_admits hadm, State.inState, if_pos htaken]

/-- A load that fails a check, or none, is refused and discarded (R192). -/
theorem exec_imageCommit_bad {s : State} {tag : Nat} (hadm : s.admitsTag tag) (hmode : s.ctl.mode = .unformatted)
    (hbad : ∀ l, s.ctl.imageLoad = some l → loadOk l = false) :
    exec (.imageCommit tag) s =
      .next (({ s with ctl := { s.ctl with imageLoad := none } }).answered codeImageCommit tag false .imageBad []) := by
  have hdrop : (s.ready.admitRequest codeImageCommit tag).imageCommitOwn tag =
      ((s.setLoad none).ready.admitRequest codeImageCommit tag).refuse tag .imageBad := by
    unfold State.imageCommitOwn
    split
    · next l hl => rw [hbad l hl]; rfl
    · next hl =>
      have : s.setLoad none = s := by
        have hl : s.ctl.imageLoad = none := hl
        rw [State.setLoad, ← hl]
      rw [this]
  rw [exec_imageCommit_of_admits hadm hmode, hdrop, State.refuse, State.finish_admit (s := s.setLoad none) hadm.2.2]
  rfl

/-- A load that passes: the tables replaced and the commit replied (R193). -/
theorem exec_imageCommit_good {s : State} {tag : Nat} (hadm : s.admitsTag tag) (hmode : s.ctl.mode = .unformatted)
    {l : ImageLoad} (hl : s.ctl.imageLoad = some l) (hok : loadOk l = true) :
    exec (.imageCommit tag) s = .next
      ((s.ready.admitRequest codeImageCommit tag).commit tag (readImage l.chunks.flatten)) := by
  have hl' : (s.ready.admitRequest codeImageCommit tag).ctl.imageLoad = some l := hl
  rw [exec_imageCommit_of_admits hadm hmode, State.imageCommitOwn, hl']
  simp only [hok, if_true]

/-- The close-order counter a commit starts from (R41). -/
def Image.firstClose (m : Image) : Nat := min ((m.bands.map BandImage.closeOrder).foldl max 0 + 1) Config.counterMax

theorem Image.firstClose_le (m : Image) : m.firstClose ≤ Config.counterMax := Nat.min_le_right ..

/-- The BTU a commit builds, from the first close order of the image (R41). -/
theorem Image.btu_eq (m : Image) :
    m.btu = { zones := m.zones, bands := (convertBands m.firstClose (m.bands.map BandImage.band)).1
              reserve := m.reserve
              pressure := decide ((convertBands m.firstClose (m.bands.map BandImage.band)).1.countP Band.isFree ≤ m.reserve)
              closeOrder := (convertBands m.firstClose (m.bands.map BandImage.band)).2
              refresh := ((convertBands m.firstClose (m.bands.map BandImage.band)).1.filter
                fun b => decide (b.state = .full) && decide (128 ≤ b.retry)).map Band.number } := by
  simp only [Image.btu, highestClose_band]
  rfl

/-- The band record a commit puts in a place (R41). -/
theorem Image.btu_bands (m : Image) (b : Nat) :
    m.btu.bands[b]? = m.bands[b]?.map fun bi =>
      bi.band.converted (closeAfter m.firstClose ((m.bands.take b).countP fun x => decide (x.state = 1))) := by
  rw [Image.btu_eq, convertBands_fst m.firstClose_le, ← List.map_take, countP_isOpened_band, List.getElem?_map,
    Option.map_map]
  rfl

theorem Image.btu_closeOrder (m : Image) :
    m.btu.closeOrder = closeAfter m.firstClose (m.bands.countP fun x => decide (x.state = 1)) := by
  rw [Image.btu_eq, convertBands_snd m.firstClose_le, countP_isOpened_band]

theorem Image.length_btu_bands (m : Image) : m.btu.bands.length = m.bands.length := by
  rw [Image.btu_eq, length_convertBands, List.length_map]

/-- A converted band is FULL where its record was OPEN, FULL or CLEANING (R41). -/
theorem BandImage.Passes.full_iff {bi : BandImage} {zones : List ZoneDesc} {lgns i : Nat} (h : bi.Passes zones lgns i)
    (c : Nat) : (bi.band.converted c).state = .full ↔ bi.state = 1 ∨ bi.state = 2 ∨ bi.state = 3 := by
  obtain ⟨-, -, h0, h5, h1, h23, h4, -⟩ := h.converted c
  have hle := h.2.2.1
  have hstate : bi.state = 0 ∨ bi.state = 1 ∨ (bi.state = 2 ∨ bi.state = 3) ∨ bi.state = 4 ∨ bi.state = 5 := by omega
  rcases hstate with hst | hst | hst | hst | hst
  · simp [h0 hst, hst]
  · simp [h1 hst, hst]
  · simp [h23 hst, hst]
  · rw [h4 hst, hst]; split <;> simp
  · simp [h5 hst, hst]

/-- Settles O56: the checks one by one, then the tables of the image, field by field. -/
theorem image_commit_result : Obligations.Image_commit_result := by
  refine ⟨loadOk_iff, fun s tag hadm hmode => ⟨exec_imageCommit_bad hadm hmode, ?_⟩⟩
  rintro l m start hl hok hm hstart
  obtain ⟨-, -, -, -, -, -, -, hcount, hbands, -⟩ := (loadOk_iff l).1 hok
  rw [exec_imageCommit_good hadm hmode hl hok]
  rw [← hm] at hcount hbands ⊢
  have hlen : bandTotal m.zones = m.bands.length := by
    rw [← hcount, hm]; exact (length_readImage_bands _).symm
  have hstreams : m.streams.length = 9 := by rw [hm]; exact length_readImage_streams _
  obtain rfl : start = m.firstClose := hstart
  rw [State.commit, State.finish_last (es := s.rqu.entries) (e := s.ready.newRequest codeImageCommit tag) rfl hadm.2.2 rfl]
  refine ⟨_, rfl, rfl, rfl, rfl, rfl, m.length_btu_bands, fun b bi hb => ?_, ?_, ?_, ?_, rfl, rfl, rfl,
    tableWf_sparseFrom 0 m.entries, fun lgn => ?_, rfl, fun n _ => ?_, rfl, rfl, rfl, rfl, rfl, rfl, rfl, rfl, rfl, rfl, rfl,
    ?_⟩
  · have hpass := hbands b bi hb
    refine ⟨_, (m.btu_bands b).trans (congrArg (Option.map _) hb), ?_⟩
    obtain ⟨hnum, hzone, hfr, hslots, hretry, hfat, hread, hhold⟩ := bi.band.converted_kept
      (closeAfter m.firstClose ((m.bands.take b).countP fun x : BandImage => decide (x.state = 1)))
    obtain ⟨hstream, hprior, h0, h5, h1, h23, h4, hnone⟩ := hpass.converted
      (closeAfter m.firstClose ((m.bands.take b).countP fun x : BandImage => decide (x.state = 1)))
    exact ⟨hnum, hzone, hfr, hslots, hretry, hfat, hread, hhold, hstream, hprior, h0, h5, h1, h23, h4, hnone⟩
  · exact m.btu_closeOrder
  · refine (congrArg Btu.refresh m.btu_eq).trans (refresh_convertBands (fun bi hbi c => ?_) _)
    obtain ⟨i, hi⟩ := List.mem_iff_getElem?.1 hbi
    exact (hbands i bi hi).full_iff c
  · exact decide_eq_true_iff
  · have hget := tableGet_sparseFrom 0 m.entries lgn
    rw [Nat.zero_add] at hget
    exact hget
  · have hn : n.val < m.streams.length := by omega
    refine ⟨_, List.getElem?_eq_getElem hn, ?_⟩
    simp [State.stream, State.fromImage, Image.stream, List.getElem?_eq_getElem hn]
  · rw [← hlen]; rfl

end Sys2Proof.Machine
end

section
namespace Sys2Proof.Machine

/-! ### Handing operations over (R141, R142)

`State.handOver` changes the HAR, the readers of the bands and the readers of the staged records, each on its own. -/

/-- The HAR once an operation joins the tail of its class queue (R141, R142). -/
def Har.join (h : Har) (o : MediaOp) : Har :=
  { h.setQueue o.cls (h.queue o.cls ++ [o.fresh h.nextId]) with nextId := nextOpId h.nextId }

theorem Band.takesReports_iff {bd : Band} :
    bd.takesReports = true ↔ bd.state = .opened ∨ bd.state = .full ∨ bd.state = .cleaning := by
  simp [Band.takesReports, or_assoc]

/-- A band record with `n` more reads counted (R37). -/
def Band.reading (bd : Band) (n : Nat) : Band :=
  if bd.takesReports then { bd with readers := bd.readers + n } else bd

theorem Band.reading_of_takes {bd : Band} (h : bd.takesReports = true) (n : Nat) :
    bd.reading n = { bd with readers := bd.readers + n } := if_pos h

theorem Band.reading_of_not_takes {bd : Band} (h : bd.takesReports = false) (n : Nat) : bd.reading n = bd :=
  if_neg (by simp [h])

@[simp] theorem Band.reading_zero (bd : Band) : bd.reading 0 = bd := by simp [Band.reading]

theorem Band.reading_reading (bd : Band) (m n : Nat) : (bd.reading m).reading n = bd.reading (m + n) := by
  cases h : bd.takesReports with
  | false => rw [Band.reading_of_not_takes h, Band.reading_of_not_takes h, Band.reading_of_not_takes h]
  | true =>
    have ht : (bd.reading m).takesReports = true := by rw [Band.reading_of_takes h]; exact h
    rw [Band.reading_of_takes ht, Band.reading_of_takes h, Band.reading_of_takes h, Nat.add_assoc]

/-- The BTU once an operation's band read is counted (R37, R142). -/
def Btu.countRead (x : Btu) (o : MediaOp) : Btu :=
  match o.bandRead with
  | some b => { x with bands := x.bands.modify b fun bd => bd.reading 1 }
  | none => x

/-- The SLU once an operation's record read is counted (R96, R142). -/
def Slu.countRead (l : Slu) (o : MediaOp) : Slu :=
  match o.recordRead with
  | some p => { l with dir := l.dir.map fun r => if r.pos = p then { r with readers := r.readers + 1 } else r }
  | none => l

theorem State.handOver_eq (s : State) (o : MediaOp) :
    s.handOver o = { s with har := s.har.join o, btu := s.btu.countRead o, slu := s.slu.countRead o } := by
  have hb : (o.fresh s.har.nextId).bandRead = o.bandRead := rfl
  have hr : (o.fresh s.har.nextId).recordRead = o.recordRead := rfl
  simp only [State.handOver, State.countReaders, hb, hr, Btu.countRead, Slu.countRead]
  cases o.bandRead <;> cases o.recordRead <;> rfl

theorem State.handOverAll_eq (s : State) (os : List MediaOp) :
    s.handOverAll os = { s with
      har := os.foldl Har.join s.har, btu := os.foldl Btu.countRead s.btu, slu := os.foldl Slu.countRead s.slu } := by
  unfold State.handOverAll
  induction os generalizing s with
  | nil => rfl
  | cons o os ih => rw [List.foldl_cons, ih, State.handOver_eq]; rfl

theorem Har.queue_join (h : Har) (o : MediaOp) (c : Cls) :
    (h.join o).queue c = if c = o.cls then h.queue c ++ [o.fresh h.nextId] else h.queue c := by
  have : (h.join o).queue c = (h.setQueue o.cls (h.queue o.cls ++ [o.fresh h.nextId])).queue c := rfl
  rw [this, Har.queue_setQueue]
  split
  · next hc => rw [hc]
  · rfl

/-- What operations of one class are in their queue, told by anything that does not look at their counts (R141). -/
theorem Har.map_queue_joinAll {α : Type} {g : MediaOp → α} (hg : ∀ (o : MediaOp) (id : Nat), g (o.fresh id) = g o)
    {os : List MediaOp} {c : Cls} (hc : ∀ o ∈ os, o.cls = c) (h : Har) :
    ((os.foldl Har.join h).queue c).map g = (h.queue c).map g ++ os.map g := by
  induction os generalizing h with
  | nil => simp
  | cons o os ih =>
    rw [List.foldl_cons, ih fun x hx => hc x (by simp [hx]), Har.queue_join, if_pos (hc o (by simp)).symm]
    simp [hg]

theorem Har.queue_joinAll_of_ne {os : List MediaOp} {c d : Cls} (hc : ∀ o ∈ os, o.cls = c) (hd : d ≠ c) (h : Har) :
    (os.foldl Har.join h).queue d = h.queue d := by
  induction os generalizing h with
  | nil => rfl
  | cons o os ih =>
    rw [List.foldl_cons, ih fun x hx => hc x (by simp [hx]), Har.queue_join, if_neg (hc o (by simp) ▸ hd)]

/-- The bands' readers once operations are handed over: each band counts the runs that read it (R37). -/
theorem Btu.bands_countReads (x : Btu) (os : List MediaOp) (k : Nat) :
    (os.foldl Btu.countRead x).bands[k]? =
      x.bands[k]?.map fun bd => bd.reading (os.countP fun o => decide (o.bandRead = some k)) := by
  induction os generalizing x with
  | nil => simp
  | cons o os ih =>
    have hone : (x.countRead o).bands[k]? =
        x.bands[k]?.map fun bd => bd.reading (if o.bandRead = some k then 1 else 0) := by
      unfold Btu.countRead
      split
      · next b hb =>
        rw [List.getElem?_modify]
        by_cases hk : b = k <;> simp [hb, hk]
      · next hb => simp [hb]
    rw [List.foldl_cons, ih, hone, Option.map_map]
    congr 1
    funext bd
    simp [Band.reading_reading, List.countP_cons, Nat.add_comm]

theorem Btu.countReads_of_none {os : List MediaOp} (h : ∀ o ∈ os, o.bandRead = none) (x : Btu) :
    os.foldl Btu.countRead x = x := by
  induction os generalizing x with
  | nil => rfl
  | cons o os ih =>
    rw [List.foldl_cons, show x.countRead o = x by simp [Btu.countRead, h o (by simp)]]
    exact ih (fun o ho => h o (by simp [ho])) x

/-- The records' readers once operations are handed over: each record counts the runs that read it (R96). -/
theorem Slu.countReads_eq (l : Slu) (os : List MediaOp) :
    os.foldl Slu.countRead l = { l with dir := l.dir.map fun r =>
      { r with readers := r.readers + os.countP fun o => decide (o.recordRead = some r.pos) } } := by
  induction os generalizing l with
  | nil => simp
  | cons o os ih =>
    have hone : l.countRead o = { l with dir := l.dir.map fun r =>
        { r with readers := r.readers + if o.recordRead = some r.pos then 1 else 0 } } := by
      unfold Slu.countRead
      split
      · next p hp =>
        congr 2
        funext r
        by_cases h : r.pos = p <;> simp [hp, h, eq_comm (a := p)]
      · next hp => simp [hp]
    rw [List.foldl_cons, ih, hone]
    simp only [List.map_map, Slu.mk.injEq, true_and, and_true]
    congr 1
    funext r
    by_cases h : o.recordRead = some r.pos <;> simp [h, Nat.add_assoc, Nat.add_comm 1]

theorem Slu.countReads_of_none {os : List MediaOp} (h : ∀ o ∈ os, o.recordRead = none) (l : Slu) :
    os.foldl Slu.countRead l = l := by
  induction os generalizing l with
  | nil => rfl
  | cons o os ih =>
    rw [List.foldl_cons, show l.countRead o = l by simp [Slu.countRead, h o (by simp)]]
    exact ih (fun o ho => h o (by simp [ho])) l

end Sys2Proof.Machine
end

section
namespace Sys2Proof.Machine

/-! ### Buffers -/

theorem granuleGet_granulePut (g : Granule) (i j : Nat) (x : Sector) :
    granuleGet (granulePut g i x) j = if i = j ∧ j < 16 then x else granuleGet g j := by
  unfold granuleGet granulePut
  rw [Vector.getElem?_setIfInBounds]
  by_cases hij : i = j <;> by_cases hj : j < 16 <;> simp [hij, hj]

/-- Sectors put one by one at the listed indices. -/
theorem granuleGet_foldl_put (c : Nat → Sector) (js : List Nat) (g : Granule) (j : Nat) :
    granuleGet (js.foldl (fun g i => granulePut g i (c i)) g) j = if j ∈ js ∧ j < 16 then c j else granuleGet g j := by
  induction js generalizing g with
  | nil => simp
  | cons i js ih =>
    rw [List.foldl_cons, ih, granuleGet_granulePut]
    by_cases hj : j < 16 <;> by_cases hm : j ∈ js <;> by_cases hi : i = j <;> simp [hj, hm, hi, eq_comm (a := j)]

theorem mem_rangeIndices (f n j : Nat) : j ∈ rangeIndices f n ↔ f ≤ j ∧ j < f + n := by
  simp only [rangeIndices, List.mem_map, List.mem_range]
  constructor
  · rintro ⟨k, hk, rfl⟩; omega
  · exact fun h => ⟨j - f, by omega, by omega⟩

/-! ### One request in use (R166, R170) -/

/-- The state with its entries in use replaced. -/
def State.withEntries (s : State) (es : List Entry) : State := { s with rqu := { s.rqu with entries := es } }

theorem State.updEntry_only {s : State} {e : Entry} (h : s.rqu.entries = [e]) (f : Entry → Entry) :
    s.updEntry e.tag f = s.withEntries [f e] := by
  simp [State.updEntry, State.withEntries, h]

theorem State.entry?_only {s : State} {e : Entry} {tag : Nat} (h : s.rqu.entries = [e]) (ht : e.tag = tag) :
    s.entry? tag = some e := by
  simp [State.entry?, h, ht]

/-- The one request in use ends: its reply goes out and no entry is left (R168). -/
theorem State.finish_only {s : State} {e : Entry} {tag : Nat} (h : s.rqu.entries = [e]) (ht : e.tag = tag) (st : Status)
    (fields : List Field) :
    s.finish tag st fields = { s with
      rqu := { s.rqu with entries := [], held := s.rqu.held.filter fun u => decide (u ≠ tag) }
      flu := { s.flu with outbound := s.flu.outbound ++ [replyFrame e.code tag e.clamped st fields] } } :=
  State.finish_last (es := []) h (by simp) ht st fields

/-- An entry that has started (R170). -/
def Entry.started (e : Entry) : Entry := { e with phase := .active }

theorem exec_requestStart (s : State) : exec .requestStart s = execRequestStart s := rfl

/-- The one entry in use, WAITING, is started (R170). -/
theorem exec_requestStart_only {s : State} {e : Entry} (h : s.rqu.entries = [e]) (hw : e.phase = .waiting) :
    exec .requestStart s =
      .next ((s.withEntries [e.started]).handToOwner e.started) := by
  have hstart : startable [] s.rqu.entries = some e := by simp [h, startable, hw]
  simp only [exec_requestStart, execRequestStart, hstart, State.updEntry_only h]
  rfl

/-! ### The runs of a FETCH (R47 to R49) -/

theorem rangeIndices_succ (f n : Nat) : rangeIndices f (n + 1) = f :: rangeIndices (f + 1) n := by
  simp only [rangeIndices, List.range_succ_eq_map, List.map_cons, List.map_map, Nat.add_zero]
  congr 2
  funext k
  simp [Nat.add_comm 1, Nat.add_assoc]

/-- Indices of one source make one run. -/
theorem sourceRuns_const (x : Source) (f n : Nat) :
    sourceRuns ((rangeIndices f (n + 1)).map fun j => (j, x)) = [(x, f, n + 1)] := by
  induction n generalizing f with
  | zero => rfl
  | succ n ih => rw [rangeIndices_succ, List.map_cons, sourceRuns, ih (f + 1)]; simp

/-- A FETCH of `n` sectors from `f`, all from one source that is not lost, fills its buffer and issues the reads of
that one run (R47 to R49). -/
theorem State.startFetch_const {s : State} {e : Entry} {lgn f n : Nat} {x : Source} (hes : s.rqu.entries = [e])
    (hlgns : e.lgns = some (lgn, lgn)) (hrange : e.range = some (f, n)) (hn : 1 ≤ n)
    (hx : ∀ j, f ≤ j → j < f + n → s.sourceOf lgn j = x) (hlost : x ≠ .lost) :
    s.startFetch e = (s.withEntries [{ e with
        buffer := fillBuffer e.buffer ((s.entryOf lgn).home.bind s.heldCopy) ((rangeIndices f n).map fun j => (j, x)) }]
      ).issueFetch e.tag (s.fetchRuns e.tag ((s.entryOf lgn).home.bind s.heldCopy) (x, f, n)) := by
  have hsources : (rangeIndices f n).map (fun j => (j, s.sourceOf lgn j)) = (rangeIndices f n).map fun j => (j, x) :=
    List.map_congr_left fun j hj => by
      obtain ⟨h1, h2⟩ := (mem_rangeIndices f n j).1 hj
      rw [hx j h1 h2]
  obtain ⟨n, rfl⟩ : ∃ m, n = m + 1 := ⟨n - 1, by omega⟩
  have hl : (e.lgns.getD (0, 0)).1 = lgn := by rw [hlgns]; rfl
  have hr : e.range.getD (0, 0) = (f, n + 1) := by rw [hrange]; rfl
  simp only [State.startFetch, hl, hr, hsources, sourceRuns_const, List.map_cons, List.map_nil, List.flatten_cons,
    List.flatten_nil, List.append_nil]
  rw [if_neg (by simp [hlost]), State.updEntry_only hes]

/-- A FETCH of a granule that is lost is replied UNRECOVERED (R47, R51). -/
theorem State.startFetch_lost {s : State} {e : Entry} {lgn f n : Nat} (hlgns : e.lgns = some (lgn, lgn))
    (hrange : e.range = some (f, n)) (hn : 1 ≤ n) (hx : ∀ j, s.sourceOf lgn j = .lost) :
    s.startFetch e = s.finish e.tag .unrecovered [] := by
  obtain ⟨n, rfl⟩ : ∃ m, n = m + 1 := ⟨n - 1, by omega⟩
  simp only [State.startFetch, hlgns, hrange, Option.getD_some, hx]
  rw [if_pos (by simp [rangeIndices_succ])]

/-- A buffer filled from a copy: zeros where the source is absent, the held copy's sectors where there is one. -/
theorem fillBuffer_zero (g : Granule) (held : Option Granule) (js : List Nat) :
    fillBuffer g held (js.map fun j => (j, .zero)) = js.foldl (fun g j => granulePut g j zeroSector) g := by
  simp [fillBuffer, List.foldl_map]

theorem fillBuffer_held (g c : Granule) (h : Home) (js : List Nat) :
    fillBuffer g (some c) (js.map fun j => (j, .home h)) = js.foldl (fun g j => granulePut g j (granuleGet c j)) g := by
  simp [fillBuffer, List.foldl_map]

theorem fillBuffer_home (g : Granule) (h : Home) (js : List Nat) :
    fillBuffer g none (js.map fun j => (j, .home h)) = g := by
  simp [fillBuffer, List.foldl_map]

theorem fillBuffer_staged (g : Granule) (held : Option Granule) (r : Record) (js : List Nat) :
    fillBuffer g held (js.map fun j => (j, .staged r)) = g := by
  simp [fillBuffer, List.foldl_map]

/-- The DONE fields of a FETCH whose buffer holds `c j` at each index `j` it reads (R195). -/
theorem Entry.fetchFields_eq {e : Entry} {f n : Nat} {c : Nat → Sector} (hr : e.range = some (f, n)) (hfn : f + n ≤ 16)
    (g : Granule) (hb : e.buffer = (rangeIndices f n).foldl (fun g j => granulePut g j (c j)) g) :
    e.fetchFields = [.num 1 f, .num 1 n, .num 2 0] ++ (List.range n).map fun k => .sector (c (f + k)) := by
  simp only [Entry.fetchFields, hr, Option.getD_some, hb]
  congr 1
  refine List.map_congr_left fun k hk => ?_
  have hk := List.mem_range.1 hk
  rw [granuleGet_foldl_put, if_pos ⟨(mem_rangeIndices f n _).2 (by omega), by omega⟩]

/-- A FETCH with no run to issue is judged at once, and one with runs outstanding is not (R51). -/
theorem State.judgeFetch_zero {s : State} {e : Entry} {tag : Nat} (h : s.rqu.entries = [e]) (ht : e.tag = tag)
    (hl : e.left = 0) : s.judgeFetch tag = s.finish tag e.fetchStatus e.fetchFields := by
  simp [State.judgeFetch, State.entry?_only h ht, hl]

theorem State.judgeFetch_pos {s : State} {e : Entry} {tag : Nat} (h : s.rqu.entries = [e]) (ht : e.tag = tag)
    (hl : e.left ≠ 0) : s.judgeFetch tag = s := by
  simp [State.judgeFetch, State.entry?_only h ht, hl]

/-- A FETCH that needs no read is judged at once (R49, R51). -/
theorem State.issueFetch_nil {s : State} {e : Entry} (h : s.rqu.entries = [e]) (hl : e.left = 0) :
    s.issueFetch e.tag [] = s.finish e.tag e.fetchStatus e.fetchFields := by
  have hsame : s.withEntries [{ e with left := 0 }] = s := by
    rw [← hl, State.withEntries, ← h]
  unfold State.issueFetch
  split
  · rw [State.updEntry_only h]
    simp only [List.length_nil, hsame]
    exact State.judgeFetch_zero h rfl hl
  · exact State.judgeFetch_zero h rfl hl

/-- A FETCH's reads join READ, counted outstanding (R49, R142). -/
theorem State.issueFetch_runs {s : State} {e : Entry} {runs : List MediaOp} (h : s.rqu.entries = [e])
    (hup : s.mpt.up = true) (hruns : runs ≠ []) :
    s.issueFetch e.tag runs = (s.withEntries [{ e with left := runs.length }]).handOverAll runs := by
  rw [State.issueFetch, if_pos hup, State.updEntry_only h]
  exact State.judgeFetch_pos (e := { e with left := runs.length }) (by rw [State.handOverAll_eq]; rfl) rfl
    (by simpa using hruns)

theorem State.chain_of_none {s : State} {lgn : Nat} (h : (s.entryOf lgn).newest = none) : s.chain lgn = [] := by
  simp [State.chain, h, chainFrom]

/-- With no staged record the source of every sector is the home, or what an absent home leaves (R47). -/
theorem State.sourceOf_of_newest_none {s : State} {lgn : Nat} (h : (s.entryOf lgn).newest = none) (j : Nat) :
    s.sourceOf lgn j = match (s.entryOf lgn).home with
      | some x => .home x
      | none => if (s.entryOf lgn).lost then .lost else .zero := by
  rw [State.sourceOf, State.chain_of_none h]; rfl

theorem cutSpan_ne_nil (spt a : Nat) {n : Nat} (hn : 1 ≤ n) : cutSpan spt a n ≠ [] := by
  obtain ⟨n, rfl⟩ : ∃ m, n = m + 1 := ⟨n - 1, by omega⟩
  simp [cutSpan, cutFrom_succ]

theorem cutLog_ne_nil (a : AreaDesc) (p : Nat) {n : Nat} (hn : 1 ≤ n) : cutLog a p n ≠ [] := by
  simpa [cutLog] using cutSpan_ne_nil a.spt (p % areaCap a) hn

/-- A FETCH whose sectors are all at hand is replied with them (R48, R51). -/
theorem State.startFetch_at_hand {s : State} {e : Entry} {lgn f n : Nat} {x : Source} {c : Nat → Sector}
    (hes : s.rqu.entries = [e]) (hlgns : e.lgns = some (lgn, lgn)) (hrange : e.range = some (f, n)) (hn : 1 ≤ n)
    (hfn : f + n ≤ 16) (hends : e.left = 0 ∧ e.failed = false ∧ e.down = false)
    (hx : ∀ j, f ≤ j → j < f + n → s.sourceOf lgn j = x) (hlost : x ≠ .lost)
    (hruns : s.fetchRuns e.tag ((s.entryOf lgn).home.bind s.heldCopy) (x, f, n) = [])
    (hfill : fillBuffer e.buffer ((s.entryOf lgn).home.bind s.heldCopy) ((rangeIndices f n).map fun j => (j, x)) =
      (rangeIndices f n).foldl (fun g j => granulePut g j (c j)) e.buffer) :
    s.startFetch e = { s with
      rqu := { s.rqu with entries := [], held := s.rqu.held.filter fun u => decide (u ≠ e.tag) }
      flu := { s.flu with outbound := s.flu.outbound ++ [replyFrame e.code e.tag e.clamped .done
        ([.num 1 f, .num 1 n, .num 2 0] ++ (List.range n).map fun k => .sector (c (f + k)))] } } := by
  obtain ⟨hleft, hfailed, hdown⟩ := hends
  rw [State.startFetch_const hes hlgns hrange hn hx hlost, hruns, hfill]
  generalize hb : (rangeIndices f n).foldl (fun g j => granulePut g j (c j)) e.buffer = buffer
  have hstatus : { e with buffer := buffer }.fetchStatus = .done := by simp [Entry.fetchStatus, hfailed, hdown]
  have hfields := Entry.fetchFields_eq (e := { e with buffer := buffer }) hrange hfn e.buffer hb.symm
  refine (State.issueFetch_nil (s := s.withEntries [{ e with buffer := buffer }]) rfl hleft).trans ?_
  rw [hstatus, hfields]
  exact State.finish_only (s := s.withEntries [{ e with buffer := buffer }]) rfl rfl _ _

/-- A FETCH that reads joins READ with its runs, its buffer untouched (R49). -/
theorem State.startFetch_reads {s : State} {e : Entry} {lgn f n : Nat} {x : Source} {runs : List MediaOp}
    (hes : s.rqu.entries = [e]) (hlgns : e.lgns = some (lgn, lgn)) (hrange : e.range = some (f, n)) (hn : 1 ≤ n)
    (hup : s.mpt.up = true) (hx : ∀ j, f ≤ j → j < f + n → s.sourceOf lgn j = x) (hlost : x ≠ .lost)
    (hruns : s.fetchRuns e.tag ((s.entryOf lgn).home.bind s.heldCopy) (x, f, n) = runs) (hne : runs ≠ [])
    (hfill : fillBuffer e.buffer ((s.entryOf lgn).home.bind s.heldCopy) ((rangeIndices f n).map fun j => (j, x)) =
      e.buffer) :
    s.startFetch e = (s.withEntries [{ e with left := runs.length }]).handOverAll runs := by
  rw [State.startFetch_const hes hlgns hrange hn hx hlost, hruns, hfill]
  exact State.issueFetch_runs (s := s.withEntries [e]) rfl hup hne

/-! ### What a FETCH's start gives, source by source -/

section
variable {s : State} {e : Entry} {lgn f n : Nat}

/-- The start of the one FETCH in use (R170). -/
theorem exec_requestStart_fetch (h : s.startsFetch e lgn f n) :
    exec .requestStart s =
      .next ((s.withEntries [e.started]).startFetch e.started) := by
  obtain ⟨hes, hw, hcode, -⟩ := h
  rw [exec_requestStart_only hes hw]
  simp [State.handToOwner, Entry.started, hcode, codeFetch, codeStore]

/-- A granule with neither home nor staged record: zeros, or UNRECOVERED where it is lost (R50, R51). -/
theorem fetch_start_absent (h : s.startsFetch e lgn f n) (hhome : (s.entryOf lgn).home = none)
    (hnew : (s.entryOf lgn).newest = none) :
    exec .requestStart s = .next { s with
      rqu := { s.rqu with entries := [], held := s.rqu.held.filter fun u => decide (u ≠ e.tag) }
      flu := { s.flu with outbound := s.flu.outbound ++ [if (s.entryOf lgn).lost then
          replyFrame codeFetch e.tag e.clamped .unrecovered []
        else replyFrame codeFetch e.tag e.clamped .done
          ([.num 1 f, .num 1 n, .num 2 0] ++ List.replicate n (.sector zeroSector))] } } := by
  rw [exec_requestStart_fetch h]
  obtain ⟨-, -, hcode, hrange, hn, hfn, hlgns, hends⟩ := h
  have hsource (j : Nat) := State.sourceOf_of_newest_none (s := s) hnew j
  simp only [hhome] at hsource
  cases hl : (s.entryOf lgn).lost with
  | true =>
    rw [State.startFetch_lost (s := s.withEntries [e.started]) (e := e.started) hlgns
      hrange hn fun j => (hsource j).trans (by simp [hl])]
    refine congrArg _ ((State.finish_only (e := e.started) rfl rfl _ _).trans ?_)
    simp [State.withEntries, Entry.started, hcode]
  | false =>
    rw [State.startFetch_at_hand (s := s.withEntries _) (e := e.started) (x := .zero)
      (c := fun _ => zeroSector) rfl hlgns hrange hn hfn hends (fun j _ _ => (hsource j).trans (by simp [hl])) nofun rfl
      (fillBuffer_zero ..)]
    simp [State.withEntries, Entry.started, hcode, List.map_const']

/-- A granule whose home the SWR retains: its sectors from the copy (R48). -/
theorem fetch_start_held {x : Home} {g : Granule} (h : s.startsFetch e lgn f n) (hhome : (s.entryOf lgn).home = some x)
    (hnew : (s.entryOf lgn).newest = none) (hheld : s.heldCopy x = some g) :
    exec .requestStart s = .next { s with
      rqu := { s.rqu with entries := [], held := s.rqu.held.filter fun u => decide (u ≠ e.tag) }
      flu := { s.flu with outbound := s.flu.outbound ++ [replyFrame codeFetch e.tag e.clamped .done
        ([.num 1 f, .num 1 n, .num 2 0] ++ (List.range n).map fun k => .sector (granuleGet g (f + k)))] } } := by
  rw [exec_requestStart_fetch h]
  obtain ⟨-, -, hcode, hrange, hn, hfn, hlgns, hends⟩ := h
  have hsource (j : Nat) := State.sourceOf_of_newest_none (s := s) hnew j
  have hbind : (s.entryOf lgn).home.bind s.heldCopy = some g := by rw [hhome]; exact hheld
  simp only [hhome] at hsource
  rw [State.startFetch_at_hand (s := s.withEntries _) (e := e.started) (c := granuleGet g)
    rfl hlgns hrange hn hfn hends (fun j _ _ => hsource j) nofun ?_ ?_]
  · simp [State.withEntries, Entry.started, hcode]
  · exact (congrArg (fun y => State.fetchRuns _ _ y _) hbind).trans rfl
  · exact (congrArg (fun y => fillBuffer _ y _) hbind).trans (fillBuffer_held ..)

/-- A granule whose home is read from its band (R49). -/
theorem fetch_start_home {x : Home} (h : s.startsFetch e lgn f n) (hhome : (s.entryOf lgn).home = some x)
    (hnew : (s.entryOf lgn).newest = none) (hheld : s.heldCopy x = none) (hup : s.mpt.up = true) :
    exec .requestStart s = .next ((s.withEntries [{ e with
      phase := .active, left := (s.homeRuns x f n .read .fetchBand (some e.tag)).length }]).handOverAll
        (s.homeRuns x f n .read .fetchBand (some e.tag))) := by
  rw [exec_requestStart_fetch h]
  obtain ⟨-, -, hcode, hrange, hn, hfn, hlgns, -⟩ := h
  have hsource (j : Nat) := State.sourceOf_of_newest_none (s := s) hnew j
  have hbind : (s.entryOf lgn).home.bind s.heldCopy = none := by rw [hhome]; exact hheld
  simp only [hhome] at hsource
  rw [State.startFetch_reads (s := s.withEntries _) (e := e.started)
    (runs := s.homeRuns x f n .read .fetchBand (some e.tag)) rfl hlgns hrange hn hup (fun j _ _ => hsource j) nofun ?_ ?_ ?_]
  · rfl
  · exact (congrArg (fun y => State.fetchRuns _ _ y _) hbind).trans rfl
  · simpa [State.homeRuns] using cutSpan_ne_nil _ _ hn
  · exact (congrArg (fun y => fillBuffer _ y _) hbind).trans (fillBuffer_home ..)

/-- A range that one LIVE staged record supplies is read from the log (R47, R49). -/
theorem fetch_start_staged {r : Record} (h : s.startsFetch e lgn f n) (hup : s.mpt.up = true)
    (hr : ∀ j, f ≤ j → j < f + n → ((s.chain lgn).find? fun x =>
      decide (x.state = .live) && (decide (x.first ≤ j) && decide (j < x.first + x.count))) = some r) :
    exec .requestStart s = .next ((s.withEntries [{ e with
      phase := .active
      left := (s.recordRuns r.pos (1 + f - r.first) n f .read (.fetchRecord r.pos) (some e.tag)).length }]).handOverAll
        (s.recordRuns r.pos (1 + f - r.first) n f .read (.fetchRecord r.pos) (some e.tag))) := by
  rw [exec_requestStart_fetch h]
  obtain ⟨-, -, hcode, hrange, hn, hfn, hlgns, -⟩ := h
  have hsource (j : Nat) (h1 : f ≤ j) (h2 : j < f + n) : s.sourceOf lgn j = .staged r := by
    have := hr j h1 h2
    simp only [State.sourceOf, inRange, this]
  rw [State.startFetch_reads (s := s.withEntries _) (e := e.started)
    (runs := s.recordRuns r.pos (1 + f - r.first) n f .read (.fetchRecord r.pos) (some e.tag)) rfl hlgns hrange hn hup
    hsource nofun rfl ?_ (fillBuffer_staged ..)]
  · rfl
  · simpa [State.recordRuns] using cutLog_ne_nil _ _ hn

end

theorem MediaOp.run_fresh (o : MediaOp) (id : Nat) : (o.fresh id).run = o.run := rfl

/-- Settles O20: one lemma per source of the sectors, then what handing the runs over counts. -/
theorem fetch_start_result : Obligations.Fetch_start_result := by
  refine ⟨fun s e lgn f n h hhome hnew => ?_, fun s e lgn f n x h hhome hnew => ⟨fun g hg => ?_, fun bd hheld hup hbd hst => ?_⟩,
    fun s e lgn f n r h hup hr => ?_⟩
  · exact ⟨_, fetch_start_absent h hhome hnew, rfl, rfl, rfl, rfl, rfl, rfl, rfl, rfl⟩
  · exact ⟨_, fetch_start_held h hhome hnew hg, rfl, rfl, rfl, rfl, rfl, rfl, rfl, rfl⟩
  · have hcls : ∀ o ∈ s.homeRuns x f n .read .fetchBand (some e.tag), o.cls = .read := by simp [State.homeRuns]
    have hread : (s.homeRuns x f n .read .fetchBand (some e.tag)).countP (fun o => decide (o.bandRead = some x.band)) =
        (cutSpan (s.geo x.band).spt (16 * x.slot + f) n).length := by
      rw [List.countP_eq_length.2] <;> simp [State.homeRuns, MediaOp.bandRead]
    have hnone : ∀ o ∈ s.homeRuns x f n .read .fetchBand (some e.tag), o.recordRead = none := by
      simp [State.homeRuns, MediaOp.recordRead]
    have htakes : bd.takesReports = true := by simpa [Band.takesReports, or_assoc] using hst
    refine ⟨_, fetch_start_home h hhome hnew hheld hup, ?_⟩
    rw [State.handOverAll_eq]
    refine ⟨?_, ?_, ?_, fun c hc => Har.queue_joinAll_of_ne hcls hc _, rfl, rfl, rfl, Slu.countReads_of_none hnone _, rfl⟩
    · refine (Har.map_queue_joinAll MediaOp.run_fresh hcls _).trans ?_
      simp [State.homeRuns, MediaOp.run, State.withEntries]
    · simp [State.withEntries, State.homeRuns]
    · refine (Btu.bands_countReads ..).trans ?_
      have hbd : s.btu.bands[x.band]? = some bd := hbd
      simp [State.withEntries, hread, hbd, Band.reading_of_takes htakes]
  · have hcls : ∀ o ∈ s.recordRuns r.pos (1 + f - r.first) n f .read (.fetchRecord r.pos) (some e.tag), o.cls = .read := by
      simp [State.recordRuns]
    have hnone : ∀ o ∈ s.recordRuns r.pos (1 + f - r.first) n f .read (.fetchRecord r.pos) (some e.tag),
        o.bandRead = none := by
      simp [State.recordRuns, MediaOp.bandRead]
    refine ⟨_, fetch_start_staged h hup hr, ?_⟩
    rw [State.handOverAll_eq]
    refine ⟨?_, ?_, ?_, fun c hc => Har.queue_joinAll_of_ne hcls hc _, rfl, rfl, rfl, Btu.countReads_of_none hnone _, rfl⟩
    · refine (Har.map_queue_joinAll MediaOp.run_fresh hcls _).trans ?_
      simp [State.recordRuns, MediaOp.run, State.withEntries]
    · simp [State.withEntries, State.recordRuns]
    · have hcount (p : Nat) : (s.recordRuns r.pos (1 + f - r.first) n f .read (.fetchRecord r.pos) (some e.tag)).countP
          (fun o => decide (o.recordRead = some p)) =
            if p = r.pos then (cutLog s.slu.area (r.pos + (1 + f - r.first)) n).length else 0 := by
        split
        · next hp => rw [List.countP_eq_length.2] <;> simp [State.recordRuns, MediaOp.recordRead, hp]
        · next hp => simpa [List.countP_eq_zero, State.recordRuns, MediaOp.recordRead] using fun _ _ => Ne.symm hp
      refine (Slu.countReads_eq ..).trans ?_
      simp only [hcount, State.withEntries]
      congr 2
      funext y
      split <;> rfl

end Sys2Proof.Machine
end

section
namespace Sys2Proof.Machine

/-! ### Events (R176, R177) -/

section
variable (s : State) (e : EventFlag) (d : Nat)

theorem State.raise_evu : (s.raise e d).evu = s.evu.set e d := by unfold State.raise; split <;> rfl
@[simp] theorem State.raise_ctl : (s.raise e d).ctl = s.ctl := by unfold State.raise; split <;> rfl
@[simp] theorem State.raise_rqu : (s.raise e d).rqu = s.rqu := by unfold State.raise; split <;> rfl
@[simp] theorem State.raise_gmu : (s.raise e d).gmu = s.gmu := by unfold State.raise; split <;> rfl
@[simp] theorem State.raise_btu : (s.raise e d).btu = s.btu := by unfold State.raise; split <;> rfl
@[simp] theorem State.raise_swr : (s.raise e d).swr = s.swr := by unfold State.raise; split <;> rfl
@[simp] theorem State.raise_slu : (s.raise e d).slu = s.slu := by unfold State.raise; split <;> rfl
@[simp] theorem State.raise_har : (s.raise e d).har = s.har := by unfold State.raise; split <;> rfl
@[simp] theorem State.raise_mpt : (s.raise e d).mpt = s.mpt := by unfold State.raise; split <;> rfl

end

theorem EventFlag.getLsbD_bit (e : EventFlag) : e.bit.getLsbD e.index.val = true := by cases e <;> decide

theorem EventFlag.index_injective {e e' : EventFlag} (h : e.index = e'.index) : e = e' := by
  revert h; cases e <;> cases e' <;> decide

/-- A raised event's flag is set with its detail (R177). -/
theorem Evu.set_self (v : Evu) (e : EventFlag) (d : Nat) :
    (v.set e d).flags.getLsbD e.index.val = true ∧ (v.set e d).details[e.index.val] = d := by
  constructor
  · simp [Evu.set, EventFlag.getLsbD_bit]
  · exact Vector.getElem_set_self _

/-- Raising another event keeps a set flag and its detail (R177). -/
theorem Evu.set_other {v : Evu} {e e' : EventFlag} {d : Nat} (hne : e' ≠ e)
    (h : v.flags.getLsbD e.index.val = true ∧ v.details[e.index.val] = d) (d' : Nat) :
    (v.set e' d').flags.getLsbD e.index.val = true ∧ (v.set e' d').details[e.index.val] = d := by
  constructor
  · simp [Evu.set, h.1]
  · have hi : e'.index.val ≠ e.index.val := fun hi => hne (EventFlag.index_injective (Fin.ext hi))
    exact (Vector.getElem_set_ne e'.index.isLt e.index.isLt hi).trans h.2

/-! ### Recoveries that go on (R82) -/

/-- The recoveries in progress are those the items of the FIFOs count toward, and nothing else of the state. -/
theorem State.recoveries_congr {s t : State}
    (h : ∀ n, ((t.stream n).fifo.map Item.recoveries).flatten = ((s.stream n).fifo.map Item.recoveries).flatten) :
    t.recoveries = s.recoveries := by
  have hall (u : State) : ((allStreams.map fun n => (u.stream n).fifo).flatten.map Item.recoveries).flatten =
      (allStreams.map fun n => ((u.stream n).fifo.map Item.recoveries).flatten).flatten := by
    rw [List.map_flatten, List.map_map, List.flatten_flatten, List.map_map]; rfl
  simp only [State.recoveries, recoveriesOf, hall, h]

/-- No WRITE_FAULT is told where every recovery is still in progress (R82). -/
theorem State.raiseEnded_of_recoveries {s : State} {rs : List Recovery} (h : s.recoveries = rs) : s.raiseEnded rs = s := by
  rw [State.raiseEnded, h, List.filter_eq_nil_iff.2 (by simp)]
  rfl

/-! ### Work on a stream's head (R66 to R68) -/

theorem State.stream_updStream (s : State) (n m : Fin 9) (f : Stream → Stream) :
    (s.updStream n f).stream m = if m = n then f (s.stream n) else s.stream m :=
  State.stream_setStream ..

/-- A change of a stream that another one undoes. -/
theorem State.updStream_undo {s : State} {n : Fin 9} {f g : Stream → Stream} (h : g (f (s.stream n)) = s.stream n) :
    (s.updStream n f).updStream n g = s := by
  rw [State.updStream, State.stream_updStream, if_pos rfl, h]
  simp [State.updStream, State.setStream, State.stream]

section
variable {s : State} {n : Fin 9}

/-- A stream whose head is being written, or whose open waits, goes no further. -/
theorem State.pumpFor_busy (h : (s.stream n).writing.isSome = true ∨ (s.stream n).openPending = true) (fuel : Nat) :
    s.pumpFor n fuel = s := by
  cases fuel with
  | zero => rfl
  | succ fuel => rcases h with h | h <;> simp [State.pumpFor, h]

theorem State.pumpFor_empty (h : (s.stream n).fifo = []) (fuel : Nat) : s.pumpFor n fuel = s := by
  cases fuel with
  | zero => rfl
  | succ fuel => simp [State.pumpFor, h]

variable {it : Item} {rest : List Item} {b w : Nat}

/-- A head that is not stale is placed in the slot at the frontier of the open band (R68). -/
theorem State.pumpFor_place (hw : (s.stream n).writing = none) (hp : (s.stream n).openPending = false)
    (hf : (s.stream n).fifo = it :: rest) (hb : (s.stream n).openBand = some b) (hup : s.mpt.up = true)
    (hst : s.stale it = false) (fuel : Nat) :
    s.pumpFor n (fuel + 1) =
      (s.updStream n fun x => { x with writing := some (slotsBehind (s.frontier b)) }).queueRun n := by
  simp [State.pumpFor, hw, hp, hf, hb, hup, hst]

/-- The run that is queued next for the item being written: from the frontier to its slot's or its track's end (R68). -/
def State.placingRun (s : State) (n : Fin 9) (it : Item) (b w : Nat) : MediaOp :=
  { id := 0, cls := itemClass n it.work, isWrite := true, target := .band b
    track := (s.geo b).track0 + s.frontier b / (s.geo b).spt, first := s.frontier b % (s.geo b).spt
    count := min (16 * w + 16 - s.frontier b) ((s.geo b).spt - s.frontier b % (s.geo b).spt)
    place := s.frontier b - 16 * w, origin := .stream n, tag := it.work.tag }

theorem State.queueRun_eq (hb : (s.stream n).openBand = some b) (hw : (s.stream n).writing = some w)
    (hf : (s.stream n).fifo = it :: rest) (hin : s.frontier b < 16 * w + 16) :
    s.queueRun n = s.handOver (s.placingRun n it b w) := by
  obtain ⟨k, hk⟩ : ∃ k, 16 * w + 16 - s.frontier b = k + 1 := ⟨16 * w + 16 - s.frontier b - 1, by omega⟩
  have hcut : cutSpan (s.geo b).spt (s.frontier b) (16 * w + 16 - s.frontier b) = ⟨s.frontier b / (s.geo b).spt,
      s.frontier b % (s.geo b).spt, min (16 * w + 16 - s.frontier b) ((s.geo b).spt - s.frontier b % (s.geo b).spt), 0⟩ ::
        (cutSpan (s.geo b).spt (s.frontier b) (16 * w + 16 - s.frontier b)).tail := by
    rw [hk, cutSpan, cutFrom_succ (by omega), List.tail_cons]
  simp only [State.queueRun, hb, hw, hf, State.placingRun]
  rw [hcut]

theorem slotsBehind_mul (w : Nat) : slotsBehind (16 * w) = w := by
  simp only [slotsBehind, ceilDiv]; omega

/-- A head that is not stale, with the frontier at a slot's start: the slot is taken and its first run queued (R68). -/
theorem State.pumpFor_place_at_slot (hw : (s.stream n).writing = none) (hp : (s.stream n).openPending = false)
    (hf : (s.stream n).fifo = it :: rest) (hb : (s.stream n).openBand = some b) (hup : s.mpt.up = true)
    (hst : s.stale it = false) (hfr : s.frontier b = 16 * w) (fuel : Nat) :
    s.pumpFor n (fuel + 1) =
      (s.updStream n fun x => { x with writing := some w }).handOver (s.placingRun n it b w) := by
  rw [State.pumpFor_place hw hp hf hb hup hst, hfr, slotsBehind_mul]
  have hfr' : (s.updStream n fun x => { x with writing := some w }).frontier b = 16 * w := hfr
  refine State.queueRun_eq (rest := rest) ?_ ?_ ?_ (by omega) <;> simp [State.stream_updStream, hb, hf]

/-- A write joins its class queue and changes nothing else: it counts no reader. -/
theorem State.handOver_write {o : MediaOp} (hw : o.isWrite = true) (hr : o.recordRead = none) :
    s.handOver o = { s with har := s.har.join o } := by
  have hb : o.bandRead = none := by simp [MediaOp.bandRead, hw]
  simp [State.handOver_eq, Btu.countRead, Slu.countRead, hb, hr]

end

/-! ### A STORE's start (R65 to R68) -/

section
variable {s : State} {e : Entry} {lgn : Nat}

/-- The state in which the SWR works on the STORE: it is ACTIVE, and the last item of its stream's FIFO (R65). -/
def State.withStore (s : State) (e : Entry) (lgn : Nat) : State :=
  (s.withEntries [e.started]).updStream (streamOf e.stream) fun x =>
    { x with fifo := x.fifo ++ [e.placedItem lgn] }

/-- Items of no recovery join a FIFO: no recovery begins or ends by it (R65, R82). -/
theorem State.recoveries_append {items : List Item} (h : ∀ it ∈ items, it.recoveries = []) (s : State) (n : Fin 9) :
    (s.updStream n fun x => { x with fifo := x.fifo ++ items }).recoveries = s.recoveries := by
  have hnone : (items.map Item.recoveries).flatten = [] := by simpa using h
  refine State.recoveries_congr fun m => ?_
  rw [State.stream_updStream]
  split
  · next hm => rw [hm]; simp [hnone]
  · rfl

theorem State.enqueue_eq {s : State} {n : Fin 9} {items : List Item} (h : ∀ it ∈ items, it.recoveries = []) :
    s.enqueue n items = ((s.updStream n fun x => { x with fifo := x.fifo ++ items }).goOn n).raiseEnded s.recoveries := by
  rw [State.enqueue, State.pump, State.recoveries_append h]

theorem State.recoveries_withStore (s : State) (e : Entry) (lgn : Nat) : (s.withStore e lgn).recoveries = s.recoveries :=
  (State.recoveries_append (by simp) ..).trans rfl

/-- The SWR takes a STORE while the port is UP (R65). -/
theorem State.takeStore_up {s : State} {e : Entry} {lgn : Nat} (hup : s.mpt.up = true) (hlgns : e.lgns = some (lgn, lgn)) :
    s.takeStore e = s.enqueue (streamOf e.stream) [e.placedItem lgn] := by
  rw [State.takeStore, if_pos hup, hlgns]
  rfl

theorem exec_requestStart_store (h : s.startsGranule e lgn) :
    exec .requestStart s = .next
      (((s.withStore e lgn).goOn (streamOf e.stream)).raiseEnded s.recoveries) := by
  obtain ⟨hes, hw, hcode, hrange, hlgns, hup⟩ := h
  rw [exec_requestStart_only hes hw, State.handToOwner, if_pos (show e.started.code = codeStore from hcode),
    if_pos (show e.started.range = some (0, 16) from hrange),
    State.takeStore_up (s := s.withEntries [e.started]) (e := e.started) hup hlgns, State.enqueue_eq (by simp)]
  rfl

/-- The stream that a STORE has joined. -/
theorem State.stream_withStore (s : State) (e : Entry) (lgn : Nat) :
    (s.withStore e lgn).stream (streamOf e.stream) = { s.stream (streamOf e.stream) with
      fifo := (s.stream (streamOf e.stream)).fifo ++ [e.placedItem lgn] } := by
  rw [State.withStore, State.stream_updStream, if_pos rfl]
  rfl

theorem State.goOn_withStore (hfifo : (s.stream (streamOf e.stream)).fifo = []) :
    (s.withStore e lgn).goOn (streamOf e.stream) = (s.withStore e lgn).pumpFor (streamOf e.stream) 3 := by
  rw [State.goOn, State.stream_withStore, hfifo]
  rfl

/-- A write's recoveries are those of before: it changes no FIFO. -/
theorem State.recoveries_writing (s : State) (n : Fin 9) (w : Nat) (o : MediaOp) :
    ((s.updStream n fun x => { x with writing := some w }).handOver o).recoveries = s.recoveries := by
  refine State.recoveries_congr fun m => ?_
  have : ((s.updStream n fun x => { x with writing := some w }).handOver o).stream m =
      (s.updStream n fun x => { x with writing := some w }).stream m := by rw [State.handOver_eq]; rfl
  rw [this, State.stream_updStream]
  split
  · next hm => rw [hm]
  · rfl

/-- The STORE placed in slot `w` of the stream's open band `b`, its first run queued (R65, R68). -/
theorem store_start_placed {b w : Nat} (h : s.startsGranule e lgn)
    (hfifo : (s.stream (streamOf e.stream)).fifo = []) (hpend : (s.stream (streamOf e.stream)).openPending = false)
    (hwr : (s.stream (streamOf e.stream)).writing = none) (hb : (s.stream (streamOf e.stream)).openBand = some b)
    (hfr : s.frontier b = 16 * w) :
    exec .requestStart s = .next
      (((s.withStore e lgn).updStream (streamOf e.stream) fun x => { x with writing := some w }).handOver
        ((s.withStore e lgn).placingRun (streamOf e.stream) (e.placedItem lgn) b w)) := by
  obtain ⟨-, -, -, -, -, hup⟩ := id h
  rw [exec_requestStart_store h, State.goOn_withStore hfifo,
    State.pumpFor_place_at_slot (s := s.withStore e lgn) (it := e.placedItem lgn) (rest := []) (b := b) (w := w)
      ((congrArg Stream.writing (s.stream_withStore e lgn)).trans hwr)
      ((congrArg Stream.openPending (s.stream_withStore e lgn)).trans hpend)
      ((congrArg Stream.fifo (s.stream_withStore e lgn)).trans (by rw [hfifo]; rfl))
      ((congrArg Stream.openBand (s.stream_withStore e lgn)).trans hb) hup rfl hfr,
    State.raiseEnded_of_recoveries ((State.recoveries_writing ..).trans (s.recoveries_withStore e lgn))]

/-- The run that places a whole-granule STORE whose stream's frontier is at a slot's start (R68, R141). -/
theorem placingRun_placedItem {u : State} {b w : Nat} (hfr : u.frontier b = 16 * w) :
    u.placingRun (streamOf e.stream) (e.placedItem lgn) b w =
      { id := 0, cls := .write, isWrite := true, target := .band b
        track := (u.geo b).track0 + 16 * w / (u.geo b).spt, first := 16 * w % (u.geo b).spt
        count := min 16 ((u.geo b).spt - 16 * w % (u.geo b).spt), place := 0
        origin := .stream (streamOf e.stream), tag := some e.tag } := by
  simp [State.placingRun, hfr, itemClass, Work.tag]

/-- A STORE held for PRESSURE (R171). -/
def State.heldStore (s : State) (e : Entry) : State :=
  { s with rqu := { s.rqu with
      entries := [{ e with phase := .held, holdReason := some .pressure, holdTimer := some s.rqu.holdTimeout }]
      held := s.rqu.held ++ [e.tag] } }

/-- Where a STORE meets PRESSURE with no open band it is held, and nothing else changes (R28, R66, R171). -/
theorem store_start_held (h : s.startsGranule e lgn) (hbare : s.Bare (streamOf e.stream)) (hpr : s.btu.pressure = true) :
    exec .requestStart s = .next (s.heldStore e) := by
  obtain ⟨hfifo, hpend, hwr, hopen, hrec⟩ := hbare
  have hback : (s.withStore e lgn).updStream (streamOf e.stream) (fun x => { x with fifo := [] }) =
      s.withEntries [e.started] :=
    State.updStream_undo (s := s.withEntries [e.started]) (by
      show ({ s.stream (streamOf e.stream) with fifo := [] } : Stream) = s.stream (streamOf e.stream)
      rw [← hfifo])
  have hheld : (s.withEntries [e.started]).hold e.tag .pressure = s.heldStore e := by
    rw [State.hold, show e.tag = e.started.tag from rfl, State.updEntry_only (e := e.started) rfl]
    rfl
  have hpump : (s.withStore e lgn).pumpFor (streamOf e.stream) 3 = (s.heldStore e).pumpFor (streamOf e.stream) 2 := by
    have hpr' : (s.withStore e lgn).btu.pressure = true := hpr
    have hst := s.stream_withStore e lgn
    rw [hfifo, List.nil_append] at hst
    rw [State.pumpFor, hst]
    simp [hwr, hpend, hopen, hostOpen, Work.isStore, hrec, hpr', hback, Work.tag, hheld]
  rw [exec_requestStart_store h, State.goOn_withStore hfifo, hpump, State.pumpFor_empty (s := s.heldStore e) hfifo,
    State.raiseEnded_of_recoveries (s := s.heldStore e) (rs := s.recoveries) rfl]

end

/-! ### Opens (R25 to R28) -/

section
variable {s : State} {n : Fin 9} {b : Nat} {bd : Band}

/-- The lowest EMPTY band of a range of numbers is found (R25). -/
theorem State.firstFree_eq_some {lo hi : Nat} (hs : s.BandsSound) (hb : s.band? b = some bd) (he : bd.state = .empty)
    (hlo : lo ≤ b) (hhi : b < hi) (hmin : ∀ k bk, lo ≤ k → k < b → s.band? k = some bk → bk.state ≠ .empty) :
    s.firstFree lo hi = some b := by
  obtain ⟨hlt, hget⟩ := List.getElem?_eq_some_iff.1 hb
  have hnum : bd.number = b := (hs b bd hb).1
  have hfind : (s.btu.bands.find? fun x => x.isFree && decide (lo ≤ x.number) && decide (x.number < hi)) = some bd := by
    refine List.find?_eq_some_iff_getElem.2 ⟨by simp [Band.isFree, he, hnum, hlo, hhi], b, hlt, hget, fun k hk => ?_⟩
    have hbk : s.band? k = some s.btu.bands[k] := List.getElem?_eq_getElem (by omega)
    have hnk : s.btu.bands[k].number = k := (hs k _ hbk).1
    by_cases hlk : lo ≤ k
    · simp [Band.isFree, hmin k _ hlk hk hbk]
    · simp [hnk, hlk]
  rw [State.firstFree, hfind, Option.map_some, hnum]

/-- A range of numbers without an EMPTY band gives none (R25). -/
theorem State.firstFree_eq_none {lo hi : Nat} (hs : s.BandsSound)
    (h : ∀ k bk, lo ≤ k → k < hi → s.band? k = some bk → bk.state ≠ .empty) : s.firstFree lo hi = none := by
  rw [State.firstFree, Option.map_eq_none_iff, List.find?_eq_none]
  intro bk hbk
  obtain ⟨k, hk⟩ := List.mem_iff_getElem?.1 hbk
  have hnk : bk.number = k := (hs k bk hk).1
  by_cases hr : lo ≤ k ∧ k < hi
  · simp [Band.isFree, h k bk hr.1 hr.2 hk]
  · simp only [Bool.and_eq_true, decide_eq_true_eq, hnk]
    tauto

/-- The band an open takes, and whether it spills (R25). -/
theorem State.pickBand_of_takes (hs : s.BandsSound) (h : s.OpenTakes n b bd) :
    ∃ spill, s.pickBand n = some (b, spill) ∧ (s.OpenSpills n → spill = true) := by
  obtain ⟨hb, he, ⟨hlo, hhi, hmin⟩ | ⟨hsp, hmin⟩⟩ := h
  · refine ⟨false, ?_, fun hsp => absurd he (hsp b bd hlo hhi hb)⟩
    rw [State.pickBand, State.rangeFree, State.firstFree_eq_some hs hb he hlo hhi hmin]
  · refine ⟨true, ?_, fun _ => rfl⟩
    have hlt : b < s.btu.bands.length := (List.getElem?_eq_some_iff.1 hb).1
    rw [State.pickBand, State.rangeFree, State.firstFree_eq_none hs hsp,
      State.firstFree_eq_some hs hb he (Nat.zero_le b) hlt fun k bk _ => hmin k bk]
    rfl

theorem State.freeCount_pos (hb : s.band? b = some bd) (he : bd.state = .empty) : s.freeCount ≠ 0 := by
  have : 0 < s.freeCount := List.countP_pos_iff.2 ⟨bd, List.mem_of_getElem? hb, by simp [Band.isFree, he]⟩
  omega

theorem State.band?_updBand (s : State) (b k : Nat) (f : Band → Band) :
    (s.updBand b f).band? k = (s.band? k).map fun x => if b = k then f x else x := by
  simp only [State.band?, State.updBand, List.getElem?_modify]
  rfl

/-- What judging PRESSURE after a band left the pool can change (R28). -/
theorem State.judgePressureOn_frame (s : State) :
    s.judgePressureOn.swr = s.swr ∧ s.judgePressureOn.har = s.har ∧ s.judgePressureOn.rqu = s.rqu
      ∧ s.judgePressureOn.gmu = s.gmu ∧ s.judgePressureOn.slu = s.slu ∧ s.judgePressureOn.mpt = s.mpt
      ∧ s.judgePressureOn.btu.bands = s.btu.bands ∧ s.judgePressureOn.btu.zones = s.btu.zones := by
  unfold State.judgePressureOn
  split <;> simp

/-- PRESSURE judged, with its event where it is set by it (R28). -/
theorem State.judgePressureOn_btu (s : State) :
    (s.judgePressureOn.btu.pressure = true ↔ s.btu.pressure = true ∨ s.freeCount ≤ s.btu.reserve)
      ∧ s.judgePressureOn.evu =
        if s.btu.pressure = false ∧ s.freeCount ≤ s.btu.reserve then s.evu.set .pressureOn s.freeCount else s.evu := by
  unfold State.judgePressureOn
  split
  · next h => simp [State.raise_evu, h.2]
  · next h =>
    refine ⟨⟨.inl, fun ho => ?_⟩, rfl⟩
    cases hp : s.btu.pressure with
    | true => rfl
    | false => exact absurd ⟨hp, ho.resolve_left (by simp [hp])⟩ h

/-- The state with STREAM_SPILL raised where an open spills (R25). -/
def State.raiseSpill (s : State) (n : Fin 9) (spill : Bool) : State := if spill then s.raise .streamSpill n.val else s

theorem State.raiseSpill_frame (s : State) (n : Fin 9) (spill : Bool) :
    (s.raiseSpill n spill).swr = s.swr ∧ (s.raiseSpill n spill).har = s.har ∧ (s.raiseSpill n spill).rqu = s.rqu
      ∧ (s.raiseSpill n spill).gmu = s.gmu ∧ (s.raiseSpill n spill).slu = s.slu ∧ (s.raiseSpill n spill).mpt = s.mpt
      ∧ (s.raiseSpill n spill).btu = s.btu := by
  unfold State.raiseSpill
  split <;> simp

/-- The state with band `b` OPEN for stream `n`, before PRESSURE is judged (R27). -/
def State.openFor (s : State) (n : Fin 9) (b : Nat) : State :=
  (s.updBand b fun bd => { bd with state := .opened, stream := some n }).updStream n fun x =>
    { x with openBand := some b, openPending := false }

theorem State.grantBand_eq (s : State) (n : Fin 9) (b : Nat) (spill : Bool) :
    s.grantBand n b spill = ((s.raiseSpill n spill).openFor n b).judgePressureOn := rfl

theorem State.grantBand_frame (s : State) (n : Fin 9) (b : Nat) (spill : Bool) :
    (s.grantBand n b spill).har = s.har ∧ (s.grantBand n b spill).rqu = s.rqu ∧ (s.grantBand n b spill).gmu = s.gmu
      ∧ (s.grantBand n b spill).slu = s.slu ∧ (s.grantBand n b spill).mpt = s.mpt
      ∧ (s.grantBand n b spill).btu.zones = s.btu.zones
      ∧ (s.grantBand n b spill).stream n = { s.stream n with openBand := some b, openPending := false }
      ∧ ∀ m, ((s.grantBand n b spill).stream m).fifo = (s.stream m).fifo := by
  obtain ⟨hswr, hhar, hrqu, hgmu, hslu, hmpt, -, hzones⟩ := ((s.raiseSpill n spill).openFor n b).judgePressureOn_frame
  obtain ⟨hswr', hhar', hrqu', hgmu', hslu', hmpt', hbtu'⟩ := s.raiseSpill_frame n spill
  have hstream (m : Fin 9) : (s.grantBand n b spill).stream m =
      if m = n then { s.stream n with openBand := some b, openPending := false } else s.stream m := by
    have hs (k : Fin 9) : (s.raiseSpill n spill).stream k = s.stream k := congrArg (fun x => x.streams[k.val]) hswr'
    refine (congrArg (fun x => x.streams[m.val]) hswr : _ = ((s.raiseSpill n spill).openFor n b).stream m).trans ?_
    rw [State.openFor, State.stream_updStream]
    simp only [← hs]
    rfl
  rw [State.grantBand_eq] at hstream ⊢
  refine ⟨hhar.trans hhar', hrqu.trans hrqu', hgmu.trans hgmu', hslu.trans hslu', hmpt.trans hmpt',
    hzones.trans (congrArg Btu.zones hbtu' :), by simpa using hstream n, fun m => ?_⟩
  rw [hstream]
  split
  · next h => rw [h]
  · rfl

/-- A granted open, as R25 to R28 say it. -/
theorem State.opened_grantBand {spill : Bool} (hb : s.band? b = some bd) (hsp : s.OpenSpills n → spill = true) :
    s.Opened (s.grantBand n b spill) n b bd := by
  obtain ⟨-, -, -, -, -, -, hbands, -⟩ := ((s.raiseSpill n spill).openFor n b).judgePressureOn_frame
  obtain ⟨-, -, -, -, -, -, hbtu⟩ := s.raiseSpill_frame n spill
  obtain ⟨-, -, -, -, -, -, hstream, -⟩ := s.grantBand_frame n b spill
  obtain ⟨hpr, hevu⟩ := ((s.raiseSpill n spill).openFor n b).judgePressureOn_btu
  have hband (k : Nat) : (s.grantBand n b spill).band? k =
      (s.band? k).map fun x => if b = k then { x with state := .opened, stream := some n } else x := by
    rw [State.grantBand_eq, State.band?, hbands]
    refine ((s.raiseSpill n spill).band?_updBand b k _).trans ?_
    rw [State.band?, hbtu]
    rfl
  have hfree : (s.grantBand n b spill).freeCount = ((s.raiseSpill n spill).openFor n b).freeCount :=
    congrArg (List.countP Band.isFree) hbands
  have hpr0 : ((s.raiseSpill n spill).openFor n b).btu.pressure = s.btu.pressure :=
    (congrArg Btu.pressure hbtu :)
  have hres : ((s.raiseSpill n spill).openFor n b).btu.reserve = s.btu.reserve :=
    (congrArg Btu.reserve hbtu :)
  rw [hpr0, hres, ← hfree, ← State.grantBand_eq] at hpr hevu
  have hevu0 : ((s.raiseSpill n spill).openFor n b).evu = (s.raiseSpill n spill).evu := rfl
  rw [hevu0] at hevu
  refine ⟨by simp [hband, hb], fun k hk => ?_, by rw [hstream], by rw [hstream], hpr, fun hp hf => ?_, fun h => ?_⟩
  · rw [hband]
    simp [Ne.symm hk]
  · rw [hevu, if_pos ⟨hp, hf⟩]
    exact Evu.set_self ..
  · have hspill : (s.raiseSpill n spill).evu = s.evu.set .streamSpill n.val := by
      rw [State.raiseSpill, if_pos (hsp h), State.raise_evu]
    rw [hevu, hspill]
    split
    · exact Evu.set_other (by simp) (Evu.set_self ..) _
    · exact Evu.set_self ..

/-- What an open made of the bands, PRESSURE and events is not changed by work that leaves them alone. -/
theorem State.Opened.congr {s' t t' : State} (h : s.Opened t n b bd) (hs : s'.btu = s.btu)
    (hlo : (s'.stream n).lo = (s.stream n).lo) (hhi : (s'.stream n).hi = (s.stream n).hi) (ht : t'.btu = t.btu)
    (hevu : t'.evu = t.evu) (hopen : (t'.stream n).openBand = (t.stream n).openBand)
    (hpend : (t'.stream n).openPending = (t.stream n).openPending) : s'.Opened t' n b bd := by
  have hband (k : Nat) : s'.band? k = s.band? k := by rw [State.band?, hs]; rfl
  have hband' (k : Nat) : t'.band? k = t.band? k := by rw [State.band?, ht]; rfl
  have hfree : t'.freeCount = t.freeCount := by rw [State.freeCount, ht]; rfl
  simpa only [State.Opened, State.OpenSpills, hband, hband', hfree, hs, hlo, hhi, ht, hevu, hopen, hpend] using h

end

/-! ### A STORE that opens a band -/

section
variable {s : State} {e : Entry} {lgn b : Nat} {bd : Band}

/-- With PRESSURE clear the open is granted and the STORE takes the new band's first slot (R25 to R27, R66, R68). -/
theorem store_start_opened (h : s.startsGranule e lgn) (hbare : s.Bare (streamOf e.stream)) (hpr : s.btu.pressure = false)
    (hs : s.BandsSound) (hwait : s.btu.openWait = []) (hb : s.OpenTakes (streamOf e.stream) b bd) (hfr : bd.frontier = 0) :
    ∃ u : State, exec .requestStart s = .next
        ((u.updStream (streamOf e.stream) fun x => { x with writing := some 0 }).handOver
          (u.placingRun (streamOf e.stream) (e.placedItem lgn) b 0))
      ∧ (s.withStore e lgn).Opened u (streamOf e.stream) b bd ∧ u.frontier b = 0
      ∧ u.har = s.har ∧ u.rqu = (s.withStore e lgn).rqu ∧ u.gmu = s.gmu ∧ u.slu = s.slu ∧ u.mpt = s.mpt
      ∧ u.btu.zones = s.btu.zones
      ∧ u.stream (streamOf e.stream) = { (s.withStore e lgn).stream (streamOf e.stream) with
        openBand := some b, openPending := false } := by
  obtain ⟨hfifo, hpend, hwr, hopen, hrec⟩ := hbare
  have hst := s.stream_withStore e lgn
  rw [hfifo, List.nil_append] at hst
  have hb' : (s.withStore e lgn).OpenTakes (streamOf e.stream) b bd := by
    simp only [State.OpenTakes, State.OpenSpills, hst]
    exact hb
  obtain ⟨spill, hpick, hspill⟩ := State.pickBand_of_takes (s := s.withStore e lgn) hs hb'
  obtain ⟨hband, hempty, -⟩ := hb
  have hop := State.opened_grantBand (s := s.withStore e lgn) (spill := spill) hband hspill
  obtain ⟨hhar, hrqu, hgmu, hslu, hmpt, hzones, hstream, hfifos⟩ := (s.withStore e lgn).grantBand_frame
    (streamOf e.stream) b spill
  obtain ⟨u, hu⟩ : ∃ u, u = (s.withStore e lgn).grantBand (streamOf e.stream) b spill := ⟨_, rfl⟩
  rw [← hu] at hop hhar hrqu hgmu hslu hmpt hzones hstream
  simp only [← hu] at hfifos
  have hufr : u.frontier b = 0 := by rw [State.frontier, hop.1]; simpa using hfr
  refine ⟨u, ?_, hop, hufr, hhar, hrqu, hgmu, hslu, hmpt, hzones, hstream⟩
  have hpump : (s.withStore e lgn).pumpFor (streamOf e.stream) 3 = u.pumpFor (streamOf e.stream) 2 := by
    have hpr' : (s.withStore e lgn).btu.pressure = false := hpr
    have hwait' : (s.withStore e lgn).btu.openWait = [] := hwait
    have hfree : (s.withStore e lgn).freeCount ≠ 0 := State.freeCount_pos hband hempty
    have hgrant : (s.withStore e lgn).grantOpen (streamOf e.stream) = u := by rw [State.grantOpen, hpick, hu]
    rw [State.pumpFor, hst]
    simp [hwr, hpend, hopen, hpr', hwait', hfree, hgrant]
  obtain ⟨-, -, -, -, -, hup⟩ := id h
  have hrecov : u.recoveries = s.recoveries :=
    (State.recoveries_congr fun m => by rw [hfifos]).trans (s.recoveries_withStore e lgn)
  rw [exec_requestStart_store h, State.goOn_withStore hfifo, hpump,
    State.pumpFor_place_at_slot (it := e.placedItem lgn) (rest := []) (b := b) (w := 0) (by rw [hstream, hst]; exact hwr)
      (by rw [hstream]) (by rw [hstream, hst]) (by rw [hstream]) (by rw [hmpt]; exact hup) rfl (by rw [hufr]),
    State.raiseEnded_of_recoveries ((State.recoveries_writing ..).trans hrecov)]

end

end Sys2Proof.Machine
end

section
namespace Sys2Proof.Machine

/-! ### What the death of records leaves alone (R46, R89, R97, R101) -/

theorem State.finish_of_none {s : State} {tag : Nat} (h : s.entry? tag = none) (st : Status) (fields : List Field) :
    s.finish tag st fields = s := by
  simp [State.finish, h]

/-- The head advance drops records from the directory's front; the fold, the waiting STOREs and the FOLD requests stay. -/
theorem Slu.advance_frame (l : Slu) : l.advance.dir = keepFrom l.dir ∧ l.advance.fold = l.fold
    ∧ l.advance.overlayWait = l.overlayWait ∧ l.advance.foldReqs = l.foldReqs := by
  unfold Slu.advance; dsimp only
  split <;> split <;> exact ⟨rfl, rfl, rfl, rfl⟩

theorem Slu.mem_advance {l : Slu} {r : Record} (h : r ∈ l.advance.dir) : r ∈ l.dir := by
  obtain ⟨hdir, -⟩ := l.advance_frame
  rw [hdir] at h
  exact (List.dropWhile_suffix _).subset h

/-- FOLD requests of which none holds an entry end without a trace but their leaving the list. -/
theorem State.judgeFoldReqs_of_none {s : State} (h : ∀ q ∈ s.slu.foldReqs, s.entry? q.tag = none) :
    ∃ reqs, (reqs = s.slu.foldReqs ∨ reqs = []) ∧ s.judgeFoldReqs = { s with slu := { s.slu with foldReqs := reqs } } := by
  unfold State.judgeFoldReqs
  split
  · refine ⟨[], .inr rfl, ?_⟩
    generalize s.slu.foldReqs = qs at h
    induction qs with
    | nil => rfl
    | cons q qs ih =>
      rw [List.foldl_cons, State.finish_of_none (s := { s with slu := { s.slu with foldReqs := [] } }) (h q (by simp))]
      exact ih fun x hx => h x (by simp [hx])
  · exact ⟨_, .inl rfl, rfl⟩

/-- What killing records can change where no FOLD request holds an entry: the SLU alone, and there no record comes, the
named ones are DEAD, and no FOLD request joins (R46, R89, R97, R101). -/
theorem State.killRecords_spec {s : State} (h : ∀ q ∈ s.slu.foldReqs, s.entry? q.tag = none) (ps : List Nat) :
    ∃ l, s.killRecords ps = { s with slu := l } ∧ (∀ x ∈ l.dir, x.pos ∈ ps → x.state = .dead)
      ∧ ∀ q ∈ l.foldReqs, q ∈ s.slu.foldReqs := by
  obtain ⟨l, hl⟩ : ∃ l : Slu, l = { s.slu with dir := s.slu.dir.map fun r : Record => r.killedBy ps } := ⟨_, rfl⟩
  obtain ⟨-, -, -, hadv⟩ := l.advance_frame
  have hreqs : l.advance.foldReqs = s.slu.foldReqs := by rw [hadv, hl]
  have hkill : s.killRecords ps = ({ s with slu := l.advance } : State).judgeFoldReqs := by rw [hl]; rfl
  obtain ⟨reqs, hr, hj⟩ := State.judgeFoldReqs_of_none (s := { s with slu := l.advance }) (by rw [hreqs]; exact h)
  refine ⟨_, hkill.trans hj, fun x hx hp => ?_, fun q hq => ?_⟩
  · have hx : x ∈ l.dir := Slu.mem_advance hx
    rw [hl] at hx
    obtain ⟨r, -, rfl⟩ := List.mem_map.1 hx
    have hpos : (r.killedBy ps).pos = r.pos := by
      unfold Record.killedBy
      split
      · rfl
      · split
        · rfl
        · split
          · split <;> rfl
          · rfl
    rw [hpos] at hp
    simp [Record.killedBy, hp]
  · have hq : q ∈ reqs := hq
    rcases hr with hr | hr
    · rw [hr] at hq; rwa [← hreqs]
    · simp [hr] at hq

/-! ### Home changes (R58, R181) -/

/-- A home-change report touches the EVU and the outbound queue alone. -/
theorem State.homeChange_frame (s : State) (lgn : Nat) (cause : HomeCause) (old new : Option Home) :
    (s.homeChange lgn cause old new).rqu = s.rqu ∧ (s.homeChange lgn cause old new).gmu = s.gmu
      ∧ (s.homeChange lgn cause old new).btu = s.btu ∧ (s.homeChange lgn cause old new).swr = s.swr
      ∧ (s.homeChange lgn cause old new).slu = s.slu ∧ (s.homeChange lgn cause old new).har = s.har
      ∧ (s.homeChange lgn cause old new).mpt = s.mpt := by
  unfold State.homeChange
  dsimp only
  split
  · simp
  · unfold State.offerWatch
    split <;> simp

/-! ### A DISCARD (R22, R46, R54) -/

theorem Band.supersede_state (bd : Band) (w : Nat) : (bd.supersede w).state = bd.state := by
  unfold Band.supersede
  split
  · split <;> rfl
  · rfl

/-- A superseded report for a slot makes a LIVE entry of a band that takes reports DEAD. -/
theorem Band.slots_supersede_self {bd : Band} {w : Nat} (ht : bd.takesReports = true)
    (hs : (∃ l, bd.slots[w]? = some (.live l)) ∨ bd.slots[w]? = some .dead) : (bd.supersede w).slots[w]? = some .dead := by
  rcases hs with ⟨l, hl⟩ | hd
  · have hlt : w < bd.slots.length := (List.getElem?_eq_some_iff.1 hl).1
    simp only [Band.supersede, if_pos ht, hl]
    exact List.getElem?_set_self hlt
  · simp [Band.supersede, ht, hd]

/-- What a superseded report leaves of any slot. -/
theorem Band.slots_supersede (bd : Band) (w k : Nat) :
    (bd.supersede w).slots[k]? = bd.slots[k]? ∨ (bd.supersede w).slots[k]? = some .dead := by
  unfold Band.supersede
  split
  · split
    · by_cases hk : w = k
      · subst hk; rw [List.getElem?_set_self']; cases bd.slots[w]? <;> simp
      · left; exact List.getElem?_set_ne hk
    · exact .inl rfl
  · exact .inl rfl

/-- A slot of band `b` that a superseded report finds LIVE, or has found so already: in a band of state `st` that takes
reports, LIVE or DEAD. -/
def State.SlotStands (s : State) (b w : Nat) (st : BandState) : Prop :=
  ∃ bd, s.band? b = some bd ∧ bd.state = st ∧ bd.takesReports = true
    ∧ ((∃ l, bd.slots[w]? = some (.live l)) ∨ bd.slots[w]? = some .dead)

/-- A slot of band `b`, its state `st`, that is DEAD. -/
def State.SlotDead (s : State) (b w : Nat) (st : BandState) : Prop :=
  ∃ bd, s.band? b = some bd ∧ bd.slots[w]? = some .dead ∧ bd.state = st

theorem State.band?_supersede (s : State) (h : Home) (k : Nat) :
    (s.supersede (some h)).band? k = (s.band? k).map fun x => if h.band = k then x.supersede h.slot else x :=
  State.band?_updBand ..

theorem Band.takesReports_supersede (bd : Band) (w : Nat) : (bd.supersede w).takesReports = bd.takesReports := by
  simp only [Band.takesReports, Band.supersede_state]

/-- What `h` being superseded leaves of every slot. -/
theorem State.supersede_slots (s : State) (h : Option Home) (b w : Nat) (st : BandState) :
    (s.SlotStands b w st → (s.supersede h).SlotStands b w st) ∧ (s.SlotDead b w st → (s.supersede h).SlotDead b w st) := by
  cases h with
  | none => exact ⟨id, id⟩
  | some h =>
    constructor
    · rintro ⟨bd, hb, hst, ht, hs⟩
      refine ⟨if h.band = b then bd.supersede h.slot else bd, by rw [State.band?_supersede, hb]; rfl, ?_⟩
      split
      · refine ⟨by rw [Band.supersede_state, hst], by rw [Band.takesReports_supersede, ht], ?_⟩
        rcases bd.slots_supersede h.slot w with hw | hw
        · rw [hw]; exact hs
        · exact .inr hw
      · exact ⟨hst, ht, hs⟩
    · rintro ⟨bd, hb, hd, hst⟩
      refine ⟨if h.band = b then bd.supersede h.slot else bd, by rw [State.band?_supersede, hb]; rfl, ?_⟩
      split
      · refine ⟨?_, by rw [Band.supersede_state, hst]⟩
        rcases bd.slots_supersede h.slot w with hw | hw
        · rw [hw, hd]
        · exact hw
      · exact ⟨hd, hst⟩

theorem State.supersede_self {s : State} {h : Home} {st : BandState} (hs : s.SlotStands h.band h.slot st) :
    (s.supersede (some h)).SlotDead h.band h.slot st := by
  obtain ⟨bd, hb, hst, ht, hsl⟩ := hs
  refine ⟨bd.supersede h.slot, by rw [State.band?_supersede, hb]; simp, Band.slots_supersede_self ht hsl, ?_⟩
  rw [Band.supersede_state, hst]

/-- What applying a DISCARD of sequence `p` to the LGNs of `ks` makes of `s` in `t`. -/
structure Discards (s t : State) (p : Nat) (ks : Nat → Prop) : Prop where
  rqu : t.rqu = s.rqu
  swr : t.swr = s.swr
  har : t.har = s.har
  mpt : t.mpt = s.mpt
  sequence : t.gmu.sequence = s.gmu.sequence
  canonical : t.MapCanonical
  reqs : ∀ q ∈ t.slu.foldReqs, q ∈ s.slu.foldReqs
  entry : ∀ k, ks k → t.entryOf k = { base := p }
  other : ∀ k, ¬ ks k → t.entryOf k = s.entryOf k
  stands : ∀ b w st, s.SlotStands b w st → t.SlotStands b w st
  dead : ∀ b w st, s.SlotDead b w st → t.SlotDead b w st
  homes : ∀ k h st, ks k → (s.entryOf k).home = some h → s.SlotStands h.band h.slot st → t.SlotDead h.band h.slot st

theorem State.supersede_frame (s : State) (h : Option Home) :
    ∃ x, s.supersede h = { s with btu := x } := by
  cases h with
  | none => exact ⟨s.btu, rfl⟩
  | some h => exact ⟨_, rfl⟩

/-- One LGN of a DISCARD (R46, R54). -/
theorem State.discardOne_spec {s : State} (hmap : s.MapCanonical) (hreqs : ∀ q ∈ s.slu.foldReqs, s.entry? q.tag = none)
    (lgn p : Nat) :
    Discards s (s.discardOne lgn p) p (· = lgn)
      ∧ ∀ r ∈ s.chain lgn, ∀ x ∈ (s.discardOne lgn p).slu.dir, x.pos = r.pos → x.state = .dead := by
  obtain ⟨x, hx⟩ := s.supersede_frame (s.entryOf lgn).home
  obtain ⟨u, hu⟩ : ∃ u, u = (s.supersede (s.entryOf lgn).home).setEntryOf lgn { home := none, base := p } := ⟨_, rfl⟩
  have hu' : u = (({ s with btu := x } : State).setEntryOf lgn { home := none, base := p }) := by rw [hu, hx]
  obtain ⟨l, hkill, hdead, hl⟩ := State.killRecords_spec (s := u) (by rw [hu']; exact hreqs) ((s.chain lgn).map Record.pos)
  have hmid : s.supersedeGranule lgn p none = { u with slu := l } := by rw [← hkill, hu]; rfl
  obtain ⟨hrqu, hgmu, hbtu, hswr, hslu, hhar, hmpt⟩ : (s.discardOne lgn p).rqu = s.rqu
      ∧ (s.discardOne lgn p).gmu = u.gmu ∧ (s.discardOne lgn p).btu = u.btu ∧ (s.discardOne lgn p).swr = s.swr
      ∧ (s.discardOne lgn p).slu = l ∧ (s.discardOne lgn p).har = s.har ∧ (s.discardOne lgn p).mpt = s.mpt := by
    rw [State.discardOne, hmid, hu']
    split
    · exact State.homeChange_frame ..
    · exact ⟨rfl, rfl, rfl, rfl, rfl, rfl, rfl⟩
  have hentry (k : Nat) : (s.discardOne lgn p).entryOf k = if k = lgn then { base := p } else s.entryOf k := by
    rw [State.entryOf, hgmu, hu']
    split
    · next h => rw [h]; exact tableGet_tablePut_self hmap ..
    · next h => exact tableGet_tablePut_of_ne h _ hmap
  have hband (k : Nat) : (s.discardOne lgn p).band? k = (s.supersede (s.entryOf lgn).home).band? k := by
    rw [State.band?, hbtu, hu', hx]; rfl
  have hslots (b w : Nat) (st : BandState) : ((s.supersede (s.entryOf lgn).home).SlotStands b w st →
      (s.discardOne lgn p).SlotStands b w st) ∧ ((s.supersede (s.entryOf lgn).home).SlotDead b w st →
        (s.discardOne lgn p).SlotDead b w st) := by
    simp only [State.SlotStands, State.SlotDead, hband]
    exact ⟨id, id⟩
  refine ⟨⟨hrqu, hswr, hhar, hmpt, by rw [hgmu, hu']; rfl, ?_, ?_, fun k hk => by rw [hentry, if_pos hk],
    fun k hk => by rw [hentry, if_neg hk], fun b w st h => (hslots b w st).1 ((s.supersede_slots _ b w st).1 h),
    fun b w st h => (hslots b w st).2 ((s.supersede_slots _ b w st).2 h), ?_⟩, ?_⟩
  · rw [State.MapCanonical, hgmu, hu']
    exact tableWf_tablePut hmap ..
  · rw [hslu]
    intro q hq
    have := hl q hq
    rwa [hu'] at this
  · rintro k h st rfl hh hst
    rw [hh] at hslots
    exact (hslots _ _ st).2 (State.supersede_self hst)
  · intro r hr y hy hp
    rw [hslu] at hy
    exact hdead y hy (by rw [hp]; exact List.mem_map_of_mem hr)

theorem Discards.refl {s : State} (hmap : s.MapCanonical) (p : Nat) : Discards s s p fun _ => False :=
  ⟨rfl, rfl, rfl, rfl, rfl, hmap, fun _ h => h, nofun, fun _ _ => rfl, fun _ _ _ h => h, fun _ _ _ h => h, nofun⟩

theorem Discards.trans {s t u : State} {p : Nat} {ks js : Nat → Prop} (h : Discards s t p ks) (h' : Discards t u p js)
    (hdis : ∀ k, js k → ¬ ks k) : Discards s u p fun k => ks k ∨ js k where
  rqu := h'.rqu.trans h.rqu
  swr := h'.swr.trans h.swr
  har := h'.har.trans h.har
  mpt := h'.mpt.trans h.mpt
  sequence := h'.sequence.trans h.sequence
  canonical := h'.canonical
  reqs q hq := h.reqs q (h'.reqs q hq)
  entry k hk := by
    by_cases hj : js k
    · exact h'.entry k hj
    · rw [h'.other k hj]; exact h.entry k (hk.resolve_right hj)
  other k hk := by rw [h'.other k fun hj => hk (.inr hj), h.other k fun hj => hk (.inl hj)]
  stands b w st hs := h'.stands b w st (h.stands b w st hs)
  dead b w st hs := h'.dead b w st (h.dead b w st hs)
  homes k x st hk hx hs := by
    rcases hk with hk | hk
    · exact h'.dead _ _ _ (h.homes k x st hk hx hs)
    · exact h'.homes k x st hk (by rw [h.other k (hdis k hk)]; exact hx) (h.stands _ _ _ hs)

/-- A range of LGNs, one after the other (R54). -/
theorem State.discardRange_spec {s : State} (hmap : s.MapCanonical)
    (hreqs : ∀ q ∈ s.slu.foldReqs, s.entry? q.tag = none) (p n lgn : Nat) :
    Discards s (s.discardRange p n lgn) p fun k => lgn ≤ k ∧ k < lgn + n := by
  induction n generalizing s lgn with
  | zero =>
    have : (fun k => lgn ≤ k ∧ k < lgn + 0) = fun _ => False := by funext k; simp
    rw [this]
    exact Discards.refl hmap p
  | succ n ih =>
    obtain ⟨hone, -⟩ := State.discardOne_spec hmap hreqs lgn p
    have hreqs' : ∀ q ∈ (s.discardOne lgn p).slu.foldReqs, (s.discardOne lgn p).entry? q.tag = none := fun q hq => by
      rw [State.entry?, hone.rqu]
      exact hreqs q (hone.reqs q hq)
    have := hone.trans (ih hone.canonical hreqs' (lgn + 1)) fun k hk h => by omega
    rw [show (fun k => lgn ≤ k ∧ k < lgn + (n + 1)) = fun k => k = lgn ∨ lgn + 1 ≤ k ∧ k < lgn + 1 + n by
      funext k; simp only [eq_iff_iff]; omega]
    exact this

/-- The start of the one DISCARD in use (R54, R170). -/
theorem exec_requestStart_discard {s : State} {e : Entry} {lo hi p : Nat} (hes : s.rqu.entries = [e])
    (hw : e.phase = .waiting) (hcode : e.code = codeDiscard) (hlgns : e.lgns = some (lo, hi)) (hseq : e.sequence = some p) :
    exec .requestStart s = .next (((s.withEntries [e.started]).discardRange p (hi + 1 - lo) lo).finish e.tag .done
      [.num 4 lo, .num 4 hi, .num 4 0, .num 8 p]) := by
  rw [exec_requestStart_only hes hw]
  simp [State.handToOwner, State.startDiscard, Entry.discardFields, Entry.started, hcode, hlgns, hseq, codeDiscard,
    codeStore, codeFetch]

/-- With the one entry of a DISCARD in use no FOLD request holds an entry. -/
theorem State.entry?_started_ne {s : State} {e : Entry} {tag : Nat} (h : tag ≠ e.tag) :
    (s.withEntries [e.started]).entry? tag = none := by
  simp [State.entry?, State.withEntries, Entry.started, h.symm]

/-- The start of a DISCARD, with what it makes of the part (R22, R46, R54, R170). -/
theorem discard_start_applied {s : State} {e : Entry} {lo hi p : Nat} (hes : s.rqu.entries = [e])
    (hw : e.phase = .waiting) (hcode : e.code = codeDiscard) (hlgns : e.lgns = some (lo, hi)) (hseq : e.sequence = some p)
    (hmap : s.MapCanonical) (hreqs : ∀ q ∈ s.slu.foldReqs, q.tag ≠ e.tag) :
    ∃ u t : State, exec .requestStart s = .next t ∧ u = (s.withEntries [e.started]).discardRange p (hi + 1 - lo) lo
      ∧ Discards (s.withEntries [e.started]) u p (fun k => lo ≤ k ∧ k < lo + (hi + 1 - lo))
      ∧ t.gmu = u.gmu ∧ t.btu = u.btu ∧ t.slu = u.slu ∧ t.har = u.har ∧ t.swr = u.swr ∧ t.mpt = u.mpt
      ∧ t.rqu.entries = []
      ∧ t.flu.outbound.getLast? = some (replyFrame codeDiscard e.tag e.clamped .done
        [.num 4 lo, .num 4 hi, .num 4 0, .num 8 p]) := by
  obtain ⟨u, hu⟩ : ∃ u, u = (s.withEntries [e.started]).discardRange p (hi + 1 - lo) lo := ⟨_, rfl⟩
  have hd := State.discardRange_spec (s := s.withEntries [e.started]) hmap
    (fun q hq => State.entry?_started_ne (hreqs q hq)) p (hi + 1 - lo) lo
  rw [← hu] at hd
  have hent : u.rqu.entries = [e.started] := by rw [hd.rqu]; rfl
  refine ⟨u, _, exec_requestStart_discard hes hw hcode hlgns hseq, hu, hd, ?_⟩
  rw [← hu, State.finish_only (e := e.started) (tag := e.tag) hent rfl]
  exact ⟨rfl, rfl, rfl, rfl, rfl, rfl, rfl, by rw [← hcode]; exact List.getLast?_concat⟩

/-- Settles O18: the STORE placed, held or given a new band, then the DISCARD. -/
theorem store_and_discard_start : Obligations.Store_and_discard_start := by
  refine ⟨fun s e lgn b w h hfifo hpend hwr hb hfr => ?_, fun s e lgn h hbare => ⟨store_start_held h hbare,
    fun b bd hpr hs hwait hb hfr => ?_⟩, fun s e lo hi p hes hw hcode hlgns hle hseq hmap hreqs => ?_⟩
  · refine ⟨_, store_start_placed h hfifo hpend hwr hb hfr, ?_⟩
    have hfr' : (s.withStore e lgn).frontier b = 16 * w := hfr
    rw [placingRun_placedItem hfr', State.handOver_write rfl rfl]
    have hst := (s.withStore e lgn).stream_updStream (streamOf e.stream) (streamOf e.stream)
      fun x => { x with writing := some w }
    rw [if_pos rfl, State.stream_withStore, hfifo] at hst
    exact ⟨congrArg Stream.fifo hst, congrArg Stream.writing hst, Har.queue_join .., rfl, rfl, rfl, rfl, rfl, rfl, rfl⟩
  · obtain ⟨u, hexec, hop, hufr, hhar, hrqu, hgmu, hslu, hmpt, hzones, hstream⟩ :=
      store_start_opened h hbare hpr hs hwait hb hfr
    refine ⟨_, hexec, ?_⟩
    have hgeo : u.geo b = s.geo b := by rw [State.geo, hzones]; rfl
    rw [placingRun_placedItem (w := 0) hufr, State.handOver_write rfl rfl, hgeo]
    have hst := u.stream_updStream (streamOf e.stream) (streamOf e.stream) fun x => { x with writing := some 0 }
    have hbefore := s.stream_withStore e lgn
    rw [if_pos rfl] at hst
    have hst' := hst
    rw [hstream, hbefore, hbare.1] at hst
    have hrun : (u.updStream (streamOf e.stream) fun x => { x with writing := some 0 }).har = s.har := hhar
    refine ⟨hop.congr rfl (congrArg Stream.lo hbefore).symm (congrArg Stream.hi hbefore).symm rfl rfl
      (congrArg Stream.openBand hst' :) (congrArg Stream.openPending hst' :), congrArg Stream.fifo hst,
      congrArg Stream.writing hst, (Har.queue_join ..).trans ?_, (congrArg Rqu.entries hrqu :),
      (congrArg Rqu.held hrqu :), hgmu, hslu, hmpt⟩
    rw [hrun]
    simp [MediaOp.fresh]
  · obtain ⟨u, t, hexec, hu, hd, hgmu, hbtu, hslu, hhar, hswr, hmpt, hent, hout⟩ :=
      discard_start_applied hes hw hcode hlgns hseq hmap hreqs
    have hentry (k : Nat) : t.entryOf k = u.entryOf k := by rw [State.entryOf, hgmu]; rfl
    refine ⟨t, hexec, hent, fun k hlo hhi => ?_, fun k hk => ?_, fun k h bd hlo hhi hh hb hst hlive => ?_,
      fun heq r hr x hx hpos => ?_, hout, by rw [hgmu, hd.sequence]; rfl, hhar.trans hd.har, hswr.trans hd.swr,
      hmpt.trans hd.mpt⟩
    · rw [hentry, hd.entry k (by omega)]
    · rw [hentry, hd.other k (by omega)]; rfl
    · have hstands : (s.withEntries [e.started]).SlotStands h.band h.slot bd.state :=
        ⟨bd, hb, rfl, Band.takesReports_iff.2 hst, .inl hlive⟩
      obtain ⟨bd', hb', hdead, hst'⟩ := hd.homes k h bd.state (by omega) hh hstands
      exact ⟨bd', by rw [State.band?, hbtu]; exact hb', hdead, hst'⟩
    · have hone := State.discardOne_spec (s := s.withEntries [e.started]) hmap
        (fun q hq => State.entry?_started_ne (hreqs q hq)) lo p
      refine hone.2 r hr x ?_ hpos
      rw [hslu, hu, ← heq, Nat.add_sub_cancel_left] at hx
      exact hx

end Sys2Proof.Machine
end

section
namespace Sys2Proof.Machine

/-! ### The cause of a fold (R100, R107) -/

/-- Where no cause can stand (R100, R107). -/
theorem State.foldCause_of_not_ready {s : State} (h : ¬ (s.slu.fold = none ∧ s.mpt.up = true
    ∧ (s.ctl.mode = .online ∨ s.ctl.mode = .quiescing))) : s.foldCause = none := by
  have hguard : (s.slu.fold.isSome || !s.mpt.up ||
      !(decide (s.ctl.mode = .online) || decide (s.ctl.mode = .quiescing))) = true := by
    cases hf : s.slu.fold <;> cases hu : s.mpt.up <;> simp_all
  exact if_pos hguard

/-- With the engine ready and a STORE waiting for an overlay, its granule is the cause. -/
theorem State.foldCause_of_wait {s : State} (h : s.slu.fold = none ∧ s.mpt.up = true
    ∧ (s.ctl.mode = .online ∨ s.ctl.mode = .quiescing)) {tag : Nat} {rest : List Nat}
    (hw : s.slu.overlayWait = tag :: rest) : s.foldCause = (s.entry? tag).map fun e => (e.lgns.getD (0, 0)).1 := by
  obtain ⟨hf, hu, hm⟩ := h
  have hguard : ¬ ((s.slu.fold.isSome || !s.mpt.up ||
      !(decide (s.ctl.mode = .online) || decide (s.ctl.mode = .quiescing))) = true) := by
    rw [hf, hu]; simpa using or_iff_not_imp_left.1 hm
  refine (if_neg hguard).trans ?_
  rw [hw]

/-- With the engine ready and none waiting, the LIVE record nearest the head is, if a request or a threshold asks it. -/
theorem State.foldCause_of_no_wait {s : State} (h : s.slu.fold = none ∧ s.mpt.up = true
    ∧ (s.ctl.mode = .online ∨ s.ctl.mode = .quiescing)) (hw : s.slu.overlayWait = []) :
    s.foldCause = if s.slu.foldReqs ≠ [] ∨ s.ctl.mode = .online
        ∧ (areaCap s.slu.area / 2 ≤ s.slu.used ∨ 8192 ≤ s.slu.dir.length) then
      (s.slu.dir.find? fun x => decide (x.state = .live)).map Record.lgn else none := by
  obtain ⟨hf, hu, hm⟩ := h
  have hguard : ¬ ((s.slu.fold.isSome || !s.mpt.up ||
      !(decide (s.ctl.mode = .online) || decide (s.ctl.mode = .quiescing))) = true) := by
    rw [hf, hu]; simpa using or_iff_not_imp_left.1 hm
  refine (if_neg hguard).trans ?_
  rw [hw]
  cases hq : s.slu.foldReqs with
  | nil =>
    simp only [List.isEmpty_nil, Bool.not_true, Bool.false_eq_true, if_false, Bool.and_eq_true, Bool.or_eq_true,
      decide_eq_true_eq, ne_eq, not_true_eq_false, false_or]
    rfl
  | cons q qs => simp

/-- A cause stands for a granule where the engine is idle, the port UP, and the first cause names it. -/
theorem State.foldCause_eq_some {s : State} {lgn : Nat} :
    s.foldCause = some lgn ↔ s.slu.fold = none ∧ s.mpt.up = true ∧ s.foldsFor lgn := by
  by_cases h : s.slu.fold = none ∧ s.mpt.up = true ∧ (s.ctl.mode = .online ∨ s.ctl.mode = .quiescing)
  · obtain ⟨hf, hu, hm⟩ := id h
    cases hw : s.slu.overlayWait with
    | cons tag rest => simp [State.foldCause_of_wait h hw, State.foldsFor, hf, hu, hm, hw]
    | nil =>
      rw [State.foldCause_of_no_wait h hw]
      simp [State.foldsFor, hf, hu, hm, hw]
      tauto
  · rw [State.foldCause_of_not_ready h]
    exact ⟨nofun, fun ⟨hf, hu, hm, _⟩ => absurd ⟨hf, hu, hm⟩ h⟩

/-! ### Maximal runs of indices (R102) -/

/-- The runs of ascending numbers are maximal. -/
theorem maximalRuns_consecutive {js : List Nat} (h : js.Pairwise (· < ·)) : MaximalRuns js (consecutive js) := by
  induction js with
  | nil => exact ⟨rfl, nofun, .nil⟩
  | cons j js ih =>
    obtain ⟨hj, hjs⟩ := List.pairwise_cons.1 h
    obtain ⟨hflat, hpos, hgap⟩ := ih hjs
    rw [consecutive]
    split
    · next k n rest hrest =>
      rw [hrest] at hflat hpos hgap
      obtain ⟨hk, hrestgap⟩ := List.pairwise_cons.1 hgap
      have hn : 1 ≤ n := hpos (k, n) (by simp)
      have hjk : j < k := hj k (by
        rw [← hflat]
        exact List.mem_append_left _ (List.mem_range'_1.2 (by dsimp only; omega)))
      split
      · next hadj =>
        subst hadj
        refine ⟨?_, ?_, List.pairwise_cons.2 ⟨fun x hx => ?_, hrestgap⟩⟩
        · rw [← hflat]; simp [List.range'_succ]
        · intro x hx
          rcases List.mem_cons.1 hx with rfl | hx
          · simp
          · exact hpos x (by simp [hx])
        · have := hk x hx; dsimp only at this ⊢; omega
      · next hadj =>
        refine ⟨by rw [← hflat]; simp, ?_, List.pairwise_cons.2 ⟨fun x hx => ?_, hgap⟩⟩
        · intro x hx
          rcases List.mem_cons.1 hx with rfl | hx
          · simp
          · exact hpos x hx
        · rcases List.mem_cons.1 hx with rfl | hx
          · dsimp only; omega
          · have := hk x hx; dsimp only at this ⊢; omega
    · next hrest =>
      rw [hrest] at hflat
      exact ⟨by rw [← hflat]; rfl, by simp, List.pairwise_singleton ..⟩

/-! ### The newest of records (R99) -/

/-- One more record kept in mind. -/
def newerOf (m : Nat × Nat) (r : Record) : Nat × Nat := if m.1 < r.sequence then (r.sequence, r.stream) else m

theorem le_newerOf (m : Nat × Nat) (r : Record) :
    m.1 ≤ (newerOf m r).1 ∧ r.sequence ≤ (newerOf m r).1 ∧ (newerOf m r = m ∨ newerOf m r = (r.sequence, r.stream)) := by
  unfold newerOf
  split
  · exact ⟨by dsimp only; omega, le_rfl, .inr rfl⟩
  · exact ⟨le_rfl, by omega, .inl rfl⟩

theorem foldl_newerOf (rs : List Record) (m : Nat × Nat) :
    m.1 ≤ (rs.foldl newerOf m).1 ∧ (∀ x ∈ rs, x.sequence ≤ (rs.foldl newerOf m).1)
      ∧ (rs.foldl newerOf m = m ∨ ∃ x ∈ rs, rs.foldl newerOf m = (x.sequence, x.stream)) := by
  induction rs generalizing m with
  | nil => simp
  | cons r rs ih =>
    obtain ⟨hm, hr, hone⟩ := le_newerOf m r
    obtain ⟨hle, hmax, hfrom⟩ := ih (newerOf m r)
    rw [List.foldl_cons]
    refine ⟨hm.trans hle, ?_, ?_⟩
    · intro x hx
      rcases List.mem_cons.1 hx with rfl | hx
      · exact hr.trans hle
      · exact hmax x hx
    · rcases hfrom with h | ⟨x, hx, h⟩
      · rw [h]
        exact hone.imp id fun h => ⟨r, by simp, h⟩
      · exact .inr ⟨x, by simp [hx], h⟩

/-- The newest of records has their highest sequence, and its record's stream. -/
theorem newestOf_spec {rs : List Record} (hne : rs ≠ []) :
    (∀ x ∈ rs, x.sequence ≤ (newestOf rs).1)
      ∧ ∃ x ∈ rs, x.sequence = (newestOf rs).1 ∧ (0 < x.sequence → (newestOf rs).2 = x.stream) := by
  have hnew : newestOf rs = rs.foldl newerOf (0, 0) := rfl
  obtain ⟨-, hmax, hfrom⟩ := foldl_newerOf rs (0, 0)
  rw [hnew]
  refine ⟨hmax, ?_⟩
  rcases hfrom with h0 | ⟨x, hx, hxe⟩
  · obtain ⟨x, hx⟩ := List.exists_mem_of_ne_nil rs hne
    have hx0 : x.sequence = 0 := Nat.le_zero.1 (by simpa [h0] using hmax x hx)
    exact ⟨x, hx, by rw [h0, hx0], fun h => by omega⟩
  · exact ⟨x, hx, by rw [hxe], fun _ => by rw [hxe]⟩

end Sys2Proof.Machine
end

section
namespace Sys2Proof.Machine

/-! ### The fold record built at a choice (R99, R102) -/

/-- The runs a fold reads a record in, as the operations handed over (R86, R102). -/
def State.foldRecordRuns (s : State) (r : Record) : List MediaOp :=
  s.recordRuns r.pos 0 r.len 0 .fold (.foldRecord r.pos) none

/-- The runs a fold reads uncovered sectors of a home in, as the operations handed over (R8, R102). -/
def State.foldHomeRuns (s : State) (h : Home) (runs : List (Nat × Nat)) : List MediaOp :=
  (runs.map fun x => s.homeRuns h x.1 x.2 .fold .foldHome none).flatten

/-- Where the sectors of the indices `bare` come from, with the home buffer at the choice and the runs that read the
home (R102): nowhere with no home, the held copy of a home, or its slot. -/
def State.HomeChosen (s : State) (bare : List Nat) (home : Option Home) (source : HomeSource) (buffer : Granule)
    (ops : List MediaOp) : Prop :=
  home = none ∧ source = .none ∧ buffer = freshBuffer s.residue ∧ ops = []
  ∨ ∃ h, home = some h ∧ ((∃ g, s.heldCopy h = some g ∧ source = .held
        ∧ buffer = copySectors g (freshBuffer s.residue) bare ∧ ops = [])
      ∨ s.heldCopy h = none ∧ source = .slot h ∧ buffer = freshBuffer s.residue
        ∧ ops = s.foldHomeRuns h (consecutive bare))

theorem State.exists_homeChosen (s : State) (bare : List Nat) (home : Option Home) :
    ∃ source buffer ops, s.HomeChosen bare home source buffer ops := by
  cases home with
  | none => exact ⟨_, _, _, .inl ⟨rfl, rfl, rfl, rfl⟩⟩
  | some h =>
    cases hg : s.heldCopy h with
    | none => exact ⟨_, _, _, .inr ⟨h, rfl, .inr ⟨hg, rfl, rfl, rfl⟩⟩⟩
    | some g => exact ⟨_, _, _, .inr ⟨h, rfl, .inl ⟨g, hg, rfl, rfl, rfl⟩⟩⟩

/-- The source a fold's record is at the choice (R99). -/
def State.foldSource (s : State) (r : Record) : FoldSource :=
  { pos := r.pos, len := r.len, first := r.first, count := r.count, sequence := r.sequence
    left := (s.foldRecordRuns r).length, buffer := freshBuffer s.residue }

/-- The indices that records hold. -/
def coveredBy (rs : List Record) : List Nat := (List.range 16).filter fun j => rs.any fun r => inRange r.first r.count j

/-- The fold record of the records `rs` at the choice (R99). -/
def State.chosenFold (s : State) (lgn : Nat) (rs : List Record) (source : HomeSource) (buffer : Granule) (left : Nat) :
    Fold :=
  { stage := .reading, lgn := lgn, sources := rs.map s.foldSource, generation := (newestOf rs).1
    target := streamOf (newestOf rs).2, covered := coveredBy rs, homeSource := source, homeBuffer := buffer
    homeLeft := left }

theorem map_zip_map {α β γ : Type} (f : α → β) (g : α × β → γ) (xs : List α) :
    (xs.zip (xs.map f)).map g = xs.map fun x => g (x, f x) := by
  induction xs with
  | nil => rfl
  | cons x xs ih => simp [ih]

/-- The indices outside the covered ones are those no record holds. -/
theorem filter_not_coveredBy (rs : List Record) :
    (List.range 16).filter (fun j => !(coveredBy rs).contains j) =
      (List.range 16).filter fun j => decide (∀ x ∈ rs, j < x.first ∨ x.first + x.count ≤ j) := by
  refine List.filter_congr fun j hj => ?_
  have hj := List.mem_range.1 hj
  rw [Bool.eq_iff_iff]
  simp [coveredBy, inRange, hj, imp_iff_not_or]

/-- What FOLD_CHOICE makes of the records of a granule, some being LIVE (R99, R102). -/
theorem State.startFold_eq {s : State} {lgn : Nat} {rs : List Record} {bare : List Nat} {home : Option Home}
    {source : HomeSource} {buffer : Granule} {ops : List MediaOp}
    (hrs : rs = s.slu.dir.filter fun x => decide (x.lgn = lgn) && decide (x.state = .live)) (hne : rs ≠ [])
    (hbare : bare = (List.range 16).filter fun j => decide (∀ x ∈ rs, j < x.first ∨ x.first + x.count ≤ j))
    (hhome : home = if bare = [] then none else (s.entryOf lgn).home) (hops : s.HomeChosen bare home source buffer ops) :
    s.startFold lgn = { s with
        slu := { s.slu with fold := some (s.chosenFold lgn rs source buffer ops.length) }
        residue := s.residue + 1 }.handOverAll ((rs.map s.foldRecordRuns).flatten ++ ops) := by
  have hbare' := hbare.trans (filter_not_coveredBy rs).symm
  have hhome' : (if bare.isEmpty then none else (s.entryOf lgn).home) = home := by rw [hhome]; simp
  have hne' : rs.isEmpty = false := by simpa using hne
  unfold State.startFold
  dsimp only
  rw [← hrs, hne', if_neg (by simp)]
  change State.handOverAll _ _ = _
  simp only [coveredBy] at hbare'
  rw [← hbare', hhome']
  simp only [State.foldRuns, map_zip_map]
  rcases hops with ⟨rfl, rfl, rfl, rfl⟩ | ⟨h, rfl, ⟨g, hg, rfl, rfl, rfl⟩ | ⟨hg, rfl, rfl, rfl⟩⟩
  · rfl
  · simp only [Option.bind_some, hg]; rfl
  · simp only [Option.bind_some, hg]; rfl

/-! ### What the reads of a fold count (R37, R96, R102) -/

theorem State.foldRecordRuns_mem {s : State} {r : Record} {o : MediaOp} (h : o ∈ s.foldRecordRuns r) :
    o.cls = .fold ∧ o.bandRead = none ∧ o.recordRead = some r.pos := by
  obtain ⟨c, -, rfl⟩ := List.mem_map.1 h
  exact ⟨rfl, rfl, rfl⟩

theorem State.foldHomeRuns_mem {s : State} {h : Home} {runs : List (Nat × Nat)} {o : MediaOp}
    (ho : o ∈ s.foldHomeRuns h runs) : o.cls = .fold ∧ o.bandRead = some h.band ∧ o.recordRead = none := by
  obtain ⟨_, hl, ho⟩ := List.mem_flatten.1 ho
  obtain ⟨x, -, rfl⟩ := List.mem_map.1 hl
  obtain ⟨c, -, rfl⟩ := List.mem_map.1 ho
  exact ⟨rfl, rfl, rfl⟩

theorem State.length_foldRecordRuns (s : State) (r : Record) :
    (s.foldRecordRuns r).length = (cutLog s.slu.area r.pos r.len).length := List.length_map ..

theorem State.map_foldRecordRuns (s : State) (r : Record) :
    (s.foldRecordRuns r).map (fun o => (o.origin, o.run)) = s.recordReads r := by
  simp [State.foldRecordRuns, State.recordRuns, State.recordReads, MediaOp.run]

theorem State.map_foldHomeRuns (s : State) (h : Home) (runs : List (Nat × Nat)) :
    (s.foldHomeRuns h runs).map (fun o => (o.origin, o.run)) = s.homeReads h runs := by
  simp [State.foldHomeRuns, State.homeRuns, State.homeReads, MediaOp.run, List.map_flatten, List.map_map, Function.comp_def]

/-- The reads of a record among those of all: the record's own. -/
theorem State.countP_foldRecordRuns (s : State) (rs : List Record) (p : Nat) :
    (rs.map s.foldRecordRuns).flatten.countP (fun o => decide (o.recordRead = some p)) =
      ((rs.filter fun y => decide (y.pos = p)).map fun y => (cutLog s.slu.area y.pos y.len).length).sum := by
  induction rs with
  | nil => rfl
  | cons r rs ih =>
    rw [List.map_cons, List.flatten_cons, List.countP_append, ih, List.filter_cons]
    by_cases hp : r.pos = p
    · rw [if_pos (by simpa using hp), List.map_cons, List.sum_cons, ← s.length_foldRecordRuns, List.countP_eq_length.2]
      intro o ho
      simp [(State.foldRecordRuns_mem ho).2.2, hp]
    · rw [if_neg (by simpa using hp), List.countP_eq_zero.2, Nat.zero_add]
      intro o ho
      simp [(State.foldRecordRuns_mem ho).2.2, hp]

/-! ### FOLD_CHOICE (R99 to R102) -/

theorem exec_foldChoice (s : State) : exec .foldChoice s = execFoldChoice s := rfl

theorem exec_foldChoice_of_cause {s : State} {lgn : Nat} (h : s.foldCause = some lgn) :
    exec .foldChoice s = .next (s.startFold lgn) := by
  rw [exec_foldChoice, execFoldChoice, h]

/-- Where no cause stands for a granule with a LIVE record, nothing changes. -/
theorem foldChoice_nothing {s : State} (h : ∀ lgn, s.foldCause = some lgn → ∀ x ∈ s.slu.dir, x.lgn = lgn → x.state ≠ .live) :
    exec .foldChoice s = .next s := by
  cases hc : s.foldCause with
  | none => rw [exec_foldChoice, execFoldChoice, hc]
  | some lgn =>
    have hrs : (s.slu.dir.filter fun x => decide (x.lgn = lgn) && decide (x.state = .live)) = [] :=
      List.filter_eq_nil_iff.2 fun x hx hl => by
        simp only [Bool.and_eq_true, decide_eq_true_eq] at hl
        exact h lgn hc x hx hl.1 hl.2
    rw [exec_foldChoice_of_cause hc, State.startFold]
    simp only [hrs, List.isEmpty_nil, if_true]

/-- The bands' readers after a fold's reads (R37). -/
theorem Band.reading_eq (bd : Band) (n : Nat) : bd.reading n = { bd with
    readers := bd.readers + if bd.state = .opened ∨ bd.state = .full ∨ bd.state = .cleaning then n else 0 } := by
  by_cases h : bd.state = .opened ∨ bd.state = .full ∨ bd.state = .cleaning
  · rw [if_pos h, Band.reading_of_takes (Band.takesReports_iff.2 h)]
  · rw [if_neg h, Band.reading_of_not_takes (by rw [← Bool.not_eq_true, Band.takesReports_iff]; exact h)]; rfl

/-- The copy's sectors are in the buffer where they were copied. -/
theorem granuleGet_copySectors {src dst : Granule} {js : List Nat} {j : Nat} (hj : j ∈ js) (hlt : j < 16) :
    granuleGet (copySectors src dst js) j = granuleGet src j := by
  rw [copySectors, granuleGet_foldl_put, if_pos ⟨hj, hlt⟩]

section
variable {s : State} {lgn : Nat} {rs : List Record} {bare : List Nat} {home : Option Home} {source : HomeSource}
  {buffer : Granule} {ops : List MediaOp}

/-- The reads of a home are of the fold's class, and of no record. -/
theorem State.HomeChosen.cls (h : s.HomeChosen bare home source buffer ops) :
    ∀ o ∈ ops, o.cls = .fold ∧ o.recordRead = none := by
  rcases h with ⟨-, -, -, rfl⟩ | ⟨h, -, ⟨g, -, -, -, rfl⟩ | ⟨-, -, -, rfl⟩⟩
  · simp
  · simp
  · exact fun o ho => ⟨(State.foldHomeRuns_mem ho).1, (State.foldHomeRuns_mem ho).2.2⟩

theorem State.HomeChosen.of_none (h : s.HomeChosen bare none source buffer ops) : source = .none ∧ ops = [] := by
  rcases h with ⟨-, hsource, -, hops⟩ | ⟨h, hh, -⟩
  · exact ⟨hsource, hops⟩
  · cases hh

theorem State.HomeChosen.of_held {h : Home} {g : Granule} (hc : s.HomeChosen bare (some h) source buffer ops)
    (hg : s.heldCopy h = some g) :
    source = .held ∧ ops = [] ∧ buffer = copySectors g (freshBuffer s.residue) bare := by
  rcases hc with ⟨hh, -⟩ | ⟨h', hh, ⟨g', hg', hsource, hbuffer, hops⟩ | ⟨hno, -⟩⟩ <;> cases hh
  · cases hg.symm.trans hg'
    exact ⟨hsource, hops, hbuffer⟩
  · cases hg.symm.trans hno

theorem State.HomeChosen.of_not_held {h : Home} (hc : s.HomeChosen bare (some h) source buffer ops)
    (hno : s.heldCopy h = none) : source = .slot h ∧ ops = s.foldHomeRuns h (consecutive bare) := by
  rcases hc with ⟨hh, -⟩ | ⟨h', hh, ⟨g', hg', -⟩ | ⟨-, hsource, -, hops⟩⟩ <;> cases hh
  · cases hno.symm.trans hg'
  · exact ⟨hsource, hops⟩

/-- Every read of a fold is of its class. -/
theorem State.HomeChosen.cls_all (h : s.HomeChosen bare home source buffer ops) :
    ∀ o ∈ (rs.map s.foldRecordRuns).flatten ++ ops, o.cls = .fold := by
  intro o ho
  rcases List.mem_append.1 ho with ho | ho
  · obtain ⟨_, hl, ho⟩ := List.mem_flatten.1 ho
    obtain ⟨r, -, rfl⟩ := List.mem_map.1 hl
    exact (State.foldRecordRuns_mem ho).1
  · exact (h.cls o ho).1

/-- The reads of a fold join FOLD in order (R102). -/
theorem State.HomeChosen.queue (h : s.HomeChosen bare home source buffer ops) (x : Har) :
    (((((rs.map s.foldRecordRuns).flatten ++ ops).foldl Har.join x).queue .fold).map fun o => (o.origin, o.run)) =
      ((x.queue .fold).map fun o => (o.origin, o.run)) ++ (rs.map s.recordReads).flatten
        ++ ops.map fun o => (o.origin, o.run) := by
  refine (Har.map_queue_joinAll (g := fun o => (o.origin, o.run)) (fun _ _ => rfl) h.cls_all x).trans ?_
  simp only [List.map_append, List.map_flatten, List.map_map, Function.comp_def, State.map_foldRecordRuns,
    List.append_assoc]

/-- The records' readers after a fold's reads (R96). -/
theorem State.HomeChosen.countReads (h : s.HomeChosen bare home source buffer ops) (l : Slu) :
    ((rs.map s.foldRecordRuns).flatten ++ ops).foldl Slu.countRead l = { l with dir := l.dir.map fun x => { x with
      readers := x.readers + ((rs.filter fun y => decide (y.pos = x.pos)).map fun y =>
        (cutLog s.slu.area y.pos y.len).length).sum } } := by
  rw [List.foldl_append, Slu.countReads_of_none fun o ho => (h.cls o ho).2, Slu.countReads_eq]
  simp only [State.countP_foldRecordRuns]

/-- The bands' readers after a fold's reads: those of the home copy's run alone are counted (R37). -/
theorem State.foldl_countRead_foldRuns (x : Btu) :
    ((rs.map s.foldRecordRuns).flatten ++ ops).foldl Btu.countRead x = ops.foldl Btu.countRead x := by
  rw [List.foldl_append, Btu.countReads_of_none (os := (rs.map s.foldRecordRuns).flatten)]
  intro o ho
  obtain ⟨_, hl, ho⟩ := List.mem_flatten.1 ho
  obtain ⟨r, -, rfl⟩ := List.mem_map.1 hl
  exact (State.foldRecordRuns_mem ho).2.1

end

/-- The readers of each band after the reads of a home (R37). -/
theorem State.band_foldHomeRuns (s : State) (x : Btu) (h : Home) (runs : List (Nat × Nat)) (k : Nat) :
    ((s.foldHomeRuns h runs).foldl Btu.countRead x).bands[k]? = if k = h.band then
      x.bands[k]?.map fun bd => bd.reading (s.homeReads h runs).length else x.bands[k]? := by
  rw [Btu.bands_countReads, ← State.map_foldHomeRuns, List.length_map]
  split
  · next hk =>
    rw [List.countP_eq_length.2]
    intro o ho
    simp [(State.foldHomeRuns_mem ho).2.1, hk]
  · next hk =>
    rw [List.countP_eq_zero.2]
    · simp
    · intro o ho
      simpa [(State.foldHomeRuns_mem ho).2.1] using Ne.symm hk

end Sys2Proof.Machine
end

section
namespace Sys2Proof.Machine

/-! ### The merged granule (R104) -/

/-- The better of a source in mind and another, at an index. -/
def betterSource (j : Nat) (best : Option FoldSource) (x : FoldSource) : Option FoldSource :=
  if inRange x.first x.count j then
    match best with
    | some b => if b.sequence < x.sequence then some x else some b
    | none => some x
  else best

theorem bestSource_eq_foldl (xs : List FoldSource) (j : Nat) : bestSource xs j = xs.foldl (betterSource j) none := rfl

theorem betterSource_of_not_covers {x : FoldSource} {j : Nat} (h : ¬ x.covers j) (best : Option FoldSource) :
    betterSource j best x = best := if_neg (by simpa [inRange] using h)

theorem betterSource_none {x : FoldSource} {j : Nat} (h : x.covers j) : betterSource j none x = some x :=
  if_pos (by simpa [inRange] using h)

theorem betterSource_some {x : FoldSource} {j : Nat} (h : x.covers j) (b : FoldSource) :
    betterSource j (some b) x = if b.sequence < x.sequence then some x else some b :=
  if_pos (by simpa [inRange] using h)

/-- The source that beats every other one at an index it covers is the best (R104). -/
theorem foldl_betterSource {xs : List FoldSource} {x : FoldSource} {j : Nat} {best : Option FoldSource} (hc : x.covers j)
    (hbest : ∀ b, best = some b → b = x ∨ b.sequence < x.sequence)
    (hall : ∀ y ∈ xs, y.covers j → y = x ∨ y.sequence < x.sequence) (hx : x ∈ xs ∨ best = some x) :
    xs.foldl (betterSource j) best = some x := by
  induction xs generalizing best with
  | nil => simpa using hx
  | cons y ys ih =>
    have hys : ∀ z ∈ ys, z.covers j → z = x ∨ z.sequence < x.sequence := fun z hz => hall z (by simp [hz])
    rw [List.foldl_cons]
    by_cases hy : y.covers j
    · rcases hall y (by simp) hy with rfl | hlt
      · have hself : betterSource j best y = some y := by
          cases best with
          | none => exact betterSource_none hy
          | some b =>
            rw [betterSource_some hy]
            rcases hbest b rfl with rfl | hb
            · exact ite_self _
            · exact if_pos hb
        exact ih (fun b hb => .inl (Option.some.inj (hb.symm.trans hself))) hys (.inr hself)
      · cases best with
        | none =>
          rw [betterSource_none hy]
          refine ih (fun b hb => .inr (by cases hb; exact hlt)) hys (.inl ?_)
          rcases hx with hx | hx
          · rcases List.mem_cons.1 hx with rfl | hx
            · exact absurd hlt (lt_irrefl _)
            · exact hx
          · cases hx
        | some b =>
          rw [betterSource_some hy]
          refine ih (fun c hcb => ?_) hys ?_
          · split at hcb
            · cases hcb; exact .inr hlt
            · exact hbest c hcb
          · rcases hx with hx | hx
            · rcases List.mem_cons.1 hx with rfl | hx
              · exact absurd hlt (lt_irrefl _)
              · exact .inl hx
            · cases hx
              exact .inr (if_neg (by omega))
    · rw [betterSource_of_not_covers hy]
      refine ih hbest hys (hx.imp_left fun hx => ?_)
      rcases List.mem_cons.1 hx with rfl | hx
      · exact absurd hc hy
      · exact hx

theorem bestSource_eq_some {xs : List FoldSource} {x : FoldSource} {j : Nat} (hx : x ∈ xs) (hc : x.covers j)
    (hall : ∀ y ∈ xs, y.covers j → y = x ∨ y.sequence < x.sequence) : bestSource xs j = some x :=
  (bestSource_eq_foldl xs j).trans (foldl_betterSource hc nofun hall (.inl hx))

theorem bestSource_eq_none {xs : List FoldSource} {j : Nat} (h : ∀ x ∈ xs, ¬ x.covers j) : bestSource xs j = none := by
  rw [bestSource_eq_foldl]
  induction xs with
  | nil => rfl
  | cons x xs ih =>
    rw [List.foldl_cons, betterSource_of_not_covers (h x (by simp))]
    exact ih fun y hy => h y (by simp [hy])

theorem Fold.granuleGet_mergedGranule (f : Fold) {j : Nat} (hj : j < 16) :
    granuleGet f.mergedGranule j = f.mergedSector j := by
  simp [granuleGet, Fold.mergedGranule, hj]

/-- The merged granule is what R104 says, with the sectors that no source covers as given. -/
theorem Fold.mergesTo_mergedGranule {f : Fold} {home : Nat → Sector}
    (hhome : ∀ j, bestSource f.sources j = none → f.mergedSector j = home j) : f.MergesTo home f.mergedGranule := by
  intro j hj
  rw [f.granuleGet_mergedGranule hj]
  refine ⟨fun x hx hc hall => ?_, fun hnone => hhome j (bestSource_eq_none hnone)⟩
  have hle : x.first ≤ j := hc.1
  rw [Fold.mergedSector, bestSource_eq_some hx hc hall, ← Nat.add_sub_assoc hle]

/-- What a fold merges turns on the ranges, the sequences and the buffers of its sources alone. -/
theorem Fold.MergesTo.of_map {f f' : Fold} {φ : FoldSource → FoldSource} {home : Nat → Sector} {g : Granule}
    (hφ : ∀ x, (φ x).first = x.first ∧ (φ x).count = x.count ∧ (φ x).sequence = x.sequence ∧ (φ x).buffer = x.buffer)
    (hs : f'.sources = f.sources.map φ) (h : f'.MergesTo home g) : f.MergesTo home g := by
  have hcovers (x : FoldSource) (j : Nat) : (φ x).covers j ↔ x.covers j := by
    obtain ⟨hfirst, hcount, -, -⟩ := hφ x
    rw [FoldSource.covers, hfirst, hcount]
  intro j hj
  obtain ⟨hsome, hnone⟩ := h j hj
  rw [hs] at hsome hnone
  refine ⟨fun x hx hc hall => ?_, fun hn => hnone fun y hy => ?_⟩
  · obtain ⟨hfirst, -, hseq, hbuf⟩ := hφ x
    have := hsome (φ x) (List.mem_map_of_mem hx) ((hcovers x j).2 hc) fun y hy hyc => by
      obtain ⟨z, hz, rfl⟩ := List.mem_map.1 hy
      obtain ⟨-, -, hzseq, -⟩ := hφ z
      exact (hall z hz ((hcovers z j).1 hyc)).imp (congrArg φ) fun hlt => by rwa [hzseq, hseq]
    rwa [hfirst, hbuf] at this
  · obtain ⟨x, hx, rfl⟩ := List.mem_map.1 hy
    rw [hcovers]; exact hn x hx

/-! ### The hand-over of a merged granule (R104, R105) -/

/-- The item of a merged fold (R105). -/
def Fold.item (f : Fold) : Item :=
  { work := .fold f.generation (f.sources.map FoldSource.pos), lgn := f.lgn, content := f.mergedGranule }

/-- A part whose fold has merged, the item at the tail of the target stream's FIFO (R104, R105). -/
def State.withMerged (s : State) (f : Fold) : State :=
  ({ s with slu := { s.slu with fold := some { f with stage := .writing, merged := some f.mergedGranule } } }).updStream
    f.target fun x => { x with fifo := x.fifo ++ [f.item] }

theorem State.stream_withMerged (s : State) (f : Fold) :
    ((s.withMerged f).stream f.target).fifo = (s.stream f.target).fifo ++ [f.item] := by
  rw [State.withMerged, State.stream_updStream, if_pos rfl]
  rfl

/-- While the target stream writes, the item waits in its FIFO. -/
theorem State.mergeFold_busy {s : State} {f : Fold} (h : (s.stream f.target).writing.isSome = true) :
    s.mergeFold f = s.withMerged f := by
  rw [State.mergeFold, State.enqueue_eq (by simp)]
  have hgo : (s.withMerged f).goOn f.target = s.withMerged f := by
    refine State.pumpFor_busy (.inl ?_) _
    rw [State.withMerged, State.stream_updStream, if_pos rfl]
    exact h
  refine (congrArg (fun t : State => t.raiseEnded _) hgo).trans ?_
  exact State.raiseEnded_of_recoveries (State.recoveries_append (by simp [Fold.item]) ..)

theorem Fold.left_eq_zero {f : Fold} (hhome : f.homeLeft = 0) (hs : ∀ y ∈ f.sources, y.left = 0) : f.left = 0 := by
  rw [Fold.left, hhome, Nat.zero_add]
  exact List.sum_eq_zero (by simpa using hs)

/-- A fold whose last run has ended with no failure merges (R104). -/
theorem State.setFold_merges {s : State} {f : Fold} (hleft : f.left = 0) (hf : f.failures = [])
    (h : (s.stream f.target).writing.isSome = true) : s.setFold f = s.withMerged f := by
  rw [State.setFold, State.judgeFold, if_neg (by simpa using hleft), if_pos (by simp [hf]),
    State.mergeFold_busy (by exact h)]
  rfl

/-- One whose only failure is a home copy, lost for good and reported, merges without it (R57, R103). -/
theorem State.setFold_merges_without_home {s : State} {f : Fold} (hleft : f.left = 0)
    (hf : f.failures = [.homeUnrecovered]) (hlost : (s.entryOf f.lgn).lost = true) (hhome : (s.entryOf f.lgn).home = none)
    (h : (s.stream f.target).writing.isSome = true) : s.setFold f = s.withMerged { f with homeSource := .none } := by
  have hlost' : (({ s with slu := { s.slu with fold := some f } } : State).entryOf f.lgn).lost = true := hlost
  have hhome' : (({ s with slu := { s.slu with fold := some f } } : State).entryOf f.lgn).home = none := hhome
  rw [State.setFold, State.judgeFold, if_neg (by simpa using hleft), if_neg (by simp [hf]),
    if_pos (by simp [hf, hlost', hhome']), State.mergeFold_busy (by exact h)]
  rfl

/-! ### The end of a fold (R101, R106) -/

theorem State.rejudgeOverlays_of_no_wait {s : State} (h : s.slu.overlayWait = []) : s.rejudgeOverlays = s := by
  rw [State.rejudgeOverlays, h]; rfl

theorem State.judgeFoldReqs_of_live {s : State} (h : s.anyLiveRecord = true) : s.judgeFoldReqs = s :=
  if_neg (by simp [h])

theorem State.judgeFoldReqs_of_fold {s : State} (h : s.slu.fold.isSome = true) : s.judgeFoldReqs = s :=
  if_neg (by simp [Option.isSome_iff_ne_none.1 h])

theorem State.judgeFoldReqs_of_no_reqs {s : State} (h : s.slu.foldReqs = []) : s.judgeFoldReqs = s := by
  unfold State.judgeFoldReqs
  split
  · rw [h, List.foldl_nil, ← h]
  · rfl

/-- A fold that ends with no FOLD request and no STORE waiting leaves the engine idle, and nothing else. -/
theorem State.foldEnd_no_reqs {s : State} (hwait : s.slu.overlayWait = []) (hreqs : s.slu.foldReqs = [])
    (c : FoldReq → FoldReq) : s.foldEnd c = { s with slu := { s.slu with fold := none } } := by
  have hcount : ({ s with slu := { s.slu with fold := none } } : State).countFold c =
      { s with slu := { s.slu with fold := none } } := by simp only [State.countFold, hreqs]
  rw [State.foldEnd, hcount, State.judgeFoldReqs_of_no_reqs (by exact hreqs), State.rejudgeOverlays_of_no_wait (by exact hwait)]

/-- One that ends with a request wanting more counts toward it (R101, R106). -/
theorem State.foldEnd_counts {s : State} {c : FoldReq → FoldReq} {q : FoldReq} {rest : List FoldReq}
    (hwait : s.slu.overlayWait = []) (hreqs : s.slu.foldReqs = q :: rest)
    (hmore : (c q).accepted + (c q).rejected + (c q).abandoned < (c q).count) (hlive : s.anyLiveRecord = true) :
    s.foldEnd c = { s with slu := { s.slu with fold := none, foldReqs := c q :: rest } } := by
  have hcount : ({ s with slu := { s.slu with fold := none } } : State).countFold c =
      { s with slu := { s.slu with fold := none, foldReqs := c q :: rest } } := by
    simp only [State.countFold, hreqs]
    exact if_neg (by omega)
  rw [State.foldEnd, hcount, State.judgeFoldReqs_of_live (by exact hlive),
    State.rejudgeOverlays_of_no_wait (by exact hwait)]

/-- A fold whose failures are not the home copy's alone, or whose granule is not reported lost, is abandoned where the
port stayed UP (R103, R106). -/
theorem State.setFold_abandons {s : State} {f : Fold} (hleft : f.left = 0) (hf : f.failures ≠ [])
    (hkeep : (∃ x ∈ f.failures, x ≠ .homeUnrecovered) ∨ (s.entryOf f.lgn).home ≠ none) (hup : .portDown ∉ f.failures) :
    s.setFold f = ({ s with slu := { s.slu with fold := some f } }).foldEnd fun q =>
      { q with abandoned := q.abandoned + 1 } := by
  have hcond : ¬ ((f.failures.all (fun x => decide (x = .homeUnrecovered))
      && (({ s with slu := { s.slu with fold := some f } } : State).entryOf f.lgn).lost
      && (({ s with slu := { s.slu with fold := some f } } : State).entryOf f.lgn).home.isNone) = true) := by
    simp only [Bool.and_eq_true, List.all_eq_true, decide_eq_true_eq, Option.isNone_iff_eq_none]
    rintro ⟨⟨hall, -⟩, hnone⟩
    rcases hkeep with ⟨x, hx, hne⟩ | hhome
    · exact hne (hall x hx)
    · exact hhome hnone
  rw [State.setFold, State.judgeFold, if_neg (by simpa using hleft), if_neg (by simpa using hf), if_neg hcond,
    if_neg (by simpa using hup)]

end Sys2Proof.Machine
end

section
namespace Sys2Proof.Machine

/-! ### The answers that end a read of a fold (R148, R152, R153, R156) -/

section
variable {s : State} {o : MediaOp} (d x : Nat)

theorem exec_finished (n st : Nat) : exec (.finished n st d x) s = execFinished n st d x s := rfl

theorem exec_finished_ok (hstage : s.mpt.stage = .running) (hop : s.mpt.op = some o) :
    exec (.finished s.mpt.order.number 0 d x) s =
      .next (s.countSuccess.portIdle.reportOutcome { o with sectorsDone := o.count } .complete) := by
  simp only [exec_finished, execFinished, Answer.ofCode, if_true, hop, State.finishOp, hstage, Answer.taken]
  rfl

/-- An UNRECOVERED answer to a read with no retry left (R153). -/
theorem exec_finished_unrecovered (hstage : s.mpt.stage = .running) (hop : s.mpt.op = some o) (hw : o.isWrite = false)
    (hret : 8 ≤ o.retries) :
    exec (.finished s.mpt.order.number 2 d x) s = .next ((s.reportUnrecovered o).portIdle.reportOutcome
      { o with sectorsDone := o.doneBefore x } .unrecovered) := by
  have hlimit : ¬ o.retries < retryLimit := by simp only [retryLimit]; omega
  have htaken : Answer.unrecovered.taken o.isWrite s.mpt.order.count d = .unrecovered := by rw [hw]; rfl
  simp only [exec_finished, execFinished, Answer.ofCode, if_true, hop, State.finishOp, hstage, htaken, State.finishRun,
    State.readUnrecovered, if_neg hlimit]
  rfl

end

/-- An unrecovered report touches the band, the refresh list and the events alone (R38). -/
theorem State.reportUnrecovered_frame (s : State) (o : MediaOp) :
    (s.reportUnrecovered o).gmu = s.gmu ∧ (s.reportUnrecovered o).swr = s.swr ∧ (s.reportUnrecovered o).slu = s.slu
      ∧ (s.reportUnrecovered o).har = s.har := by
  unfold State.reportUnrecovered
  split
  · unfold State.unrecoveredReport
    split
    · split
      · split <;> simp [State.updBand]
      · simp
    · simp
  · simp

theorem State.reportUnrecovered_of_none {s : State} {o : MediaOp} (h : o.bandRead = none) : s.reportUnrecovered o = s := by
  rw [State.reportUnrecovered, h]

theorem MediaOp.bandRead_of_staging {o : MediaOp} (h : o.target = .staging) : o.bandRead = none := by
  unfold MediaOp.bandRead
  rw [h]
  cases o.isWrite <;> cases o.cls <;> rfl

/-- A home run's end reaches the fold engine, its band's readers counted down (R37, R156). -/
theorem State.reportOutcome_foldHome (s : State) {o : MediaOp} {out : Outcome} (ho : o.origin = .foldHome)
    (hout : out ≠ .stopped) : ∃ b, s.reportOutcome o out = ({ s with btu := b } : State).foldHomeOutcome out := by
  have hr : o.recordRead = none := by rw [MediaOp.recordRead, ho]
  rw [State.reportOutcome, if_neg hout, State.ownerOutcome, ho, State.endReaders, hr]
  dsimp only
  split
  · exact ⟨_, rfl⟩
  · exact ⟨s.btu, rfl⟩

/-- A record run's end reaches the fold engine, its record's readers counted down (R96, R156). -/
theorem State.reportOutcome_foldRecord (s : State) {o : MediaOp} {p : Nat} {out : Outcome} (ho : o.origin = .foldRecord p)
    (ht : o.target = .staging) (hout : out ≠ .stopped) :
    s.reportOutcome o out = (s.recordReadEnd p).foldRecordOutcome p out := by
  have hr : o.recordRead = some p := by rw [MediaOp.recordRead, ho]
  rw [State.reportOutcome, if_neg hout, State.ownerOutcome, ho, State.endReaders, hr, MediaOp.bandRead_of_staging ht]

section
variable {s : State} {o : MediaOp} {f : Fold} {h : Home} (d x : Nat)

theorem Fold.fail_of_nil (hfail : f.failures = []) (y : FoldFailure) : f.fail y = { f with failures := [y] } := by
  rw [Fold.fail, hfail]; rfl

theorem State.foldHomeOutcome_complete (hfold : s.slu.fold = some f) (hleft : f.homeLeft = 1) :
    s.foldHomeOutcome .complete = s.setFold { f with homeLeft := 0 } := by
  have hended : s.foldHomeOutcome .complete = s.setFold { f with homeLeft := f.homeLeft - 1 } := by
    unfold State.foldHomeOutcome; rw [hfold]; rfl
  rw [hended, hleft]

theorem State.foldHomeOutcome_unrecovered (hfold : s.slu.fold = some f) (hfail : f.failures = [])
    (hsrc : f.homeSource = .slot h) (hleft : f.homeLeft = 1) :
    s.foldHomeOutcome .unrecovered = (s.lostReport f.lgn h).setFold
      { f with homeLeft := 0, failures := [.homeUnrecovered] } := by
  have hlost : s.foldHomeOutcome .unrecovered = s.foldHomeLost f := by unfold State.foldHomeOutcome; rw [hfold]
  have hended (t : State) : t.foldHomeEnded f (some .homeUnrecovered) =
      t.setFold (({ f with homeLeft := f.homeLeft - 1 } : Fold).fail .homeUnrecovered) := rfl
  have hslot : s.foldHomeLost f = (s.lostReport f.lgn h).foldHomeEnded f (some .homeUnrecovered) := by
    unfold State.foldHomeLost; rw [hsrc]
  rw [hlost, hslot, hended, Fold.fail_of_nil (f := { f with homeLeft := f.homeLeft - 1 }) hfail, hleft]

theorem exec_finished_home_ok (hr : s.foldReads o f) (ho : o.origin = .foldHome)
    (hleft : f.homeLeft = 1) :
    ∃ b, exec (.finished s.mpt.order.number 0 d x) s =
      .next (({ s.countSuccess.portIdle with btu := b } : State).setFold { f with homeLeft := 0 }) := by
  obtain ⟨hstage, hop, -, -, hfold, -⟩ := hr
  obtain ⟨b, hb⟩ := s.countSuccess.portIdle.reportOutcome_foldHome (o := { o with sectorsDone := o.count })
    (out := .complete) ho nofun
  refine ⟨b, ?_⟩
  rw [exec_finished_ok d x hstage hop, hb]
  exact congrArg Host.Outcome.next (State.foldHomeOutcome_complete hfold hleft)

theorem exec_finished_home_unrecovered (hr : s.foldReads o f) (ho : o.origin = .foldHome) (hret : 8 ≤ o.retries)
    (hsrc : f.homeSource = .slot h) (hleft : f.homeLeft = 1) :
    ∃ u : State, exec (.finished s.mpt.order.number 2 d x) s = .next ((u.lostReport f.lgn h).setFold
        { f with homeLeft := 0, failures := [.homeUnrecovered] })
      ∧ u.gmu = s.gmu ∧ u.swr = s.swr ∧ u.slu = s.slu ∧ u.har = s.har := by
  obtain ⟨hstage, hop, hw, -, hfold, hfail⟩ := hr
  obtain ⟨hgmu, hswr, hslu, hhar⟩ := s.reportUnrecovered_frame o
  obtain ⟨b, hb⟩ := (s.reportUnrecovered o).portIdle.reportOutcome_foldHome
    (o := { o with sectorsDone := o.doneBefore x }) (out := .unrecovered) ho nofun
  refine ⟨{ (s.reportUnrecovered o).portIdle with btu := b }, ?_, hgmu, hswr, hslu, hhar⟩
  rw [exec_finished_unrecovered d x hstage hop hw hret, hb]
  exact congrArg Host.Outcome.next
    (State.foldHomeOutcome_unrecovered ((congrArg Slu.fold hslu).trans hfold) hfail hsrc hleft)

end

/-! ### A lost report (R57) -/

theorem State.lostReport_of_home {s : State} {lgn : Nat} {h : Home} (hh : (s.entryOf lgn).home = some h) :
    ∃ b, s.lostReport lgn h = ({ s with
      gmu := { s.gmu with map := tablePut {} s.gmu.map lgn { s.entryOf lgn with home := none, lost := true } }
      btu := b } : State).raise .granuleLost lgn := by
  obtain ⟨b, hb⟩ := (s.setEntryOf lgn { s.entryOf lgn with home := none, lost := true }).supersede_frame (some h)
  refine ⟨b, ?_⟩
  rw [State.lostReport]
  exact (if_pos hh).trans (by rw [hb]; rfl)

theorem State.lostReport_of_moved {s : State} {lgn : Nat} {h : Home} (hh : (s.entryOf lgn).home ≠ some h) :
    s.lostReport lgn h = s := if_neg hh

/-! ### What the head advance keeps (R97) -/

theorem find?_dropWhile {α : Type} {q d : α → Bool} {xs : List α} {x : α} (h : xs.find? q = some x)
    (hd : d x = false) : (xs.dropWhile d).find? q = some x := by
  rw [← List.takeWhile_append_dropWhile (p := d) (l := xs), List.find?_append] at h
  cases hfind : (xs.takeWhile d).find? q with
  | none => simpa [hfind] using h
  | some y =>
    obtain rfl : y = x := by simpa [hfind] using h
    have := List.mem_takeWhile_imp (List.mem_of_find?_eq_some hfind)
    rw [hd] at this
    cases this

theorem mem_dropWhile_of_not {α : Type} {d : α → Bool} {xs : List α} {x : α} (h : x ∈ xs) (hd : d x = false) :
    x ∈ xs.dropWhile d := by
  rw [← List.takeWhile_append_dropWhile (p := d) (l := xs)] at h
  refine (List.mem_append.1 h).resolve_left fun h => ?_
  rw [List.mem_takeWhile_imp h] at hd
  cases hd

theorem Slu.find?_advance {l : Slu} {p : Nat} {r : Record} (h : (l.dir.find? fun x => decide (x.pos = p)) = some r)
    (hl : r.state = .live) : (l.advance.dir.find? fun x => decide (x.pos = p)) = some r := by
  obtain ⟨hdir, -⟩ := l.advance_frame
  rw [hdir]
  exact find?_dropWhile h (by simp [hl])

theorem Slu.mem_advance_of_live {l : Slu} {r : Record} (h : r ∈ l.dir) (hl : r.state = .live) : r ∈ l.advance.dir := by
  obtain ⟨hdir, -⟩ := l.advance_frame
  rw [hdir]
  exact mem_dropWhile_of_not h (by simp [hl])

/-! ### A record of a fold, its last read ended (R89, R96, R97, R103) -/

/-- What a directory's change keeps of the fold and its waiting lists. -/
def Slu.SameFold (l l' : Slu) : Prop :=
  l'.fold = l.fold ∧ l'.overlayWait = l.overlayWait ∧ l'.foldReqs = l.foldReqs

theorem Slu.sameFold_advance {l l' : Slu} (h : l.SameFold l') : l.SameFold l'.advance := by
  obtain ⟨hfold, hwait, hreqs⟩ := h
  obtain ⟨-, hfold', hwait', hreqs'⟩ := l'.advance_frame
  exact ⟨hfold'.trans hfold, hwait'.trans hwait, hreqs'.trans hreqs⟩

/-- The end of a record's read: LIVE records stay, the one read with a reader less (R96). -/
theorem State.recordReadEnd_spec (s : State) (p : Nat) :
    ∃ l, s.recordReadEnd p = { s with slu := l } ∧ s.slu.SameFold l
      ∧ (∀ r, s.record? p = some r → r.state = .live →
        (l.dir.find? fun x => decide (x.pos = p)) = some { r with readers := r.readers - 1 })
      ∧ ∀ z ∈ s.slu.dir, z.pos ≠ p → z.state = .live → z ∈ l.dir := by
  refine ⟨_, rfl, Slu.sameFold_advance ⟨rfl, rfl, rfl⟩, fun r hr hl => Slu.find?_advance ?_ hl, fun z hz hp hl =>
    Slu.mem_advance_of_live (List.mem_map.2 ⟨z, hz, if_neg hp⟩) hl⟩
  have hpos (x : Record) : (if x.pos = p then { x with readers := x.readers - 1 } else x).pos = x.pos := by
    split <;> rfl
  have hrp : r.pos = p := by simpa using List.find?_some hr
  have hr : (s.slu.dir.find? fun x => decide (x.pos = p)) = some r := hr
  refine List.find?_map.trans ?_
  simp only [Function.comp_def, hpos, hr, Option.map_some, if_pos hrp]

theorem Record.afterDeath_live {x dead : Record} (hx : x.state = .live) (hp : x.pos ≠ dead.pos) :
    (x.afterDeath dead).state = .live := by
  rw [Record.afterDeath, if_neg hp]
  split <;> exact hx

theorem Record.afterDeath_pos (x dead : Record) : (x.afterDeath dead).pos = x.pos := by
  unfold Record.afterDeath
  split
  · rfl
  · split <;> rfl

theorem Record.afterDeath_dead {x dead : Record} (hp : x.pos = dead.pos) : (x.afterDeath dead).state = .dead := by
  rw [Record.afterDeath, if_pos hp]

/-- A LIVE record made DEAD while a fold runs (R45, R89, R97). -/
theorem State.makeDead_spec {s : State} {p : Nat} {r : Record} (hr : s.record? p = some r) (hl : r.state = .live)
    (hf : s.slu.fold.isSome = true) :
    ∃ l, s.makeDead p = { s with
        gmu := { s.gmu with map := tablePut {} s.gmu.map r.lgn ((s.entryOf r.lgn).recordDead r) }, slu := l }
      ∧ s.slu.SameFold l ∧ (∀ z ∈ l.dir, z.pos = p → z.state = .dead)
      ∧ ∀ z ∈ s.slu.dir, z.pos ≠ p → z.state = .live → ∃ z' ∈ l.dir, z'.state = .live := by
  have hrp : r.pos = p := by simpa using List.find?_some hr
  obtain ⟨l, hl'⟩ : ∃ l : Slu, l = { s.slu with dir := s.slu.dir.map fun x : Record => x.afterDeath r } := ⟨_, rfl⟩
  have hsame : s.slu.SameFold l.advance := Slu.sameFold_advance (by rw [hl']; exact ⟨rfl, rfl, rfl⟩)
  obtain ⟨hfold, -, -⟩ := id hsame
  refine ⟨l.advance, ?_, hsame, fun z hz hzp => ?_, fun z hz hzp hzl => ?_⟩
  · unfold State.makeDead
    rw [hr]
    dsimp only
    rw [if_neg (by rw [hl]; nofun), ← hl']
    exact State.judgeFoldReqs_of_fold ((congrArg Option.isSome hfold).trans hf)
  · have hz := Slu.mem_advance hz
    rw [hl'] at hz
    obtain ⟨x, -, rfl⟩ := List.mem_map.1 hz
    exact Record.afterDeath_dead (by rw [← Record.afterDeath_pos x r, hzp, hrp])
  · refine ⟨z.afterDeath r, Slu.mem_advance_of_live ?_ ?_, ?_⟩
    · rw [hl']; exact List.mem_map_of_mem hz
    all_goals exact Record.afterDeath_live hzl (by rw [hrp]; exact hzp)

/-- A fold once its source at `p` has changed. -/
theorem Fold.updSource_eq {f : Fold} {before after : List FoldSource} {y : FoldSource} {p : Nat}
    (hs : f.sources = before ++ y :: after) (hy : y.pos = p) (hne : ∀ z ∈ before ++ after, z.pos ≠ p)
    (g : FoldSource → FoldSource) : f.updSource p g = { f with sources := before ++ g y :: after } := by
  have hsame (zs : List FoldSource) (h : ∀ z ∈ zs, z.pos ≠ p) :
      (zs.map fun x => if x.pos = p then g x else x) = zs :=
    (List.map_congr_left fun z hz => if_neg (h z hz)).trans (List.map_id _)
  rw [Fold.updSource, hs, List.map_append, List.map_cons, hsame before fun z hz => hne z (by simp [hz]),
    hsame after fun z hz => hne z (by simp [hz]), if_pos hy]

/-- A source whose last read lost its record (R103). -/
def FoldSource.lostOne (x : FoldSource) : FoldSource := { x with left := x.left - 1, failed := true }

/-- A fold whose last read lost a LIVE record: the record is given up and the fold abandoned, with another record LIVE
and a FOLD request that wants more (R101, R103, R106). -/
theorem State.foldRecordLost_abandons {s : State} {f : Fold} {before after : List FoldSource} {y : FoldSource}
    {p : Nat} {r : Record} {q : FoldReq} {rest : List FoldReq} (hfold : s.slu.fold = some f) (hfail : f.failures = [])
    (hhome : f.homeLeft = 0) (hs : f.sources = before ++ y :: after) (hy : y.pos = p) (hleft : y.left = 1)
    (hne : ∀ z ∈ before ++ after, z.pos ≠ p ∧ z.left = 0) (hr : s.record? p = some r) (hl : r.state = .live)
    (hlive : ∃ z ∈ s.slu.dir, z.pos ≠ p ∧ z.state = .live) (hwait : s.slu.overlayWait = [])
    (hreqs : s.slu.foldReqs = q :: rest) (hmore : q.accepted + q.rejected + q.abandoned + 1 < q.count) :
    ∃ t, s.foldRecordLost f p = t ∧ t.slu.fold = none ∧ (∀ z ∈ t.slu.dir, z.pos = p → z.state = .dead)
      ∧ t.gmu = { s.gmu with map := tablePut {} s.gmu.map r.lgn ((s.entryOf r.lgn).recordDead r) }
      ∧ t.slu.foldReqs = { q with abandoned := q.abandoned + 1 } :: rest ∧ t.evu = s.evu.set .granuleLost f.lgn
      ∧ t.btu = s.btu ∧ t.swr = s.swr ∧ t.har = s.har ∧ t.rqu = s.rqu := by
  obtain ⟨l, hdead, ⟨-, hwait', hreqs'⟩, hgone, hlive'⟩ := State.makeDead_spec hr hl (by rw [hfold]; rfl)
  obtain ⟨z, hz, hzp, hzl⟩ := hlive
  obtain ⟨z', hz', hzl'⟩ := hlive' z hz hzp hzl
  obtain ⟨u, hu⟩ : ∃ u, u = s.giveUp p f.lgn := ⟨_, rfl⟩
  have hgive : u = (s.makeDead p).raise .granuleLost f.lgn := by
    rw [hu]; unfold State.giveUp; rw [hr]; exact if_pos hl
  have hslu : u.slu = l := by rw [hgive, State.raise_slu, hdead]
  have hsrc : (f.updSource p FoldSource.lostOne).sources = before ++ y.lostOne :: after :=
    congrArg Fold.sources (Fold.updSource_eq hs hy (fun z hz => (hne z hz).1) FoldSource.lostOne)
  obtain ⟨g, hg⟩ : ∃ g, g = (f.updSource p FoldSource.lostOne).fail .recordGivenUp := ⟨_, rfl⟩
  have hg' : g = { f.updSource p FoldSource.lostOne with failures := [.recordGivenUp] } := by
    rw [hg]; exact Fold.fail_of_nil (f := f.updSource p FoldSource.lostOne) hfail _
  have hgleft : g.left = 0 := by
    refine Fold.left_eq_zero (by rw [hg']; exact hhome) fun z hz => ?_
    rw [hg'] at hz
    have hz : z ∈ before ++ y.lostOne :: after := by rw [← hsrc]; exact hz
    rcases List.mem_append.1 hz with hz | hz
    · exact (hne z (by simp [hz])).2
    · rcases List.mem_cons.1 hz with rfl | hz
      · simp [FoldSource.lostOne, hleft]
      · exact (hne z (by simp [hz])).2
  have hgfail : g.failures = [.recordGivenUp] := by rw [hg']
  refine ⟨_, rfl, ?_⟩
  have hlost : s.foldRecordLost f p = u.setFold g := by rw [hg, hu]; rfl
  have hend := State.setFold_abandons (s := u) hgleft (by simp [hgfail]) (.inl (by simp [hgfail])) (by simp [hgfail])
  rw [State.foldEnd_counts (by exact (congrArg Slu.overlayWait hslu).trans (hwait'.trans hwait))
    (by exact (congrArg Slu.foldReqs hslu).trans (hreqs'.trans hreqs)) (by dsimp only; omega) ?_] at hend
  · rw [hlost, hend]
    refine ⟨rfl, ?_, ?_, rfl, ?_, ?_, ?_, ?_, ?_⟩
    · dsimp only; rw [hslu]; exact hgone
    · dsimp only; rw [hgive, State.raise_gmu, hdead]
    · dsimp only; rw [hgive, State.raise_evu, hdead]
    all_goals dsimp only; rw [hgive]; simp [hdead]
  · have : z' ∈ u.slu.dir := by rw [hslu]; exact hz'
    exact List.any_eq_true.2 ⟨z', this, by simpa using hzl'⟩

/-- The last run of a source of a fold, completed with its header as it was written: the source has none left (R102). -/
theorem State.foldRecordRead_matches {s : State} {f : Fold} {y : FoldSource} {p : Nat}
    (hy : (f.sources.find? fun x => decide (x.pos = p)) = some y)
    (hm : headerMatches (granuleGet y.buffer 0) f.lgn y.first y.count y.sequence = true) :
    s.foldRecordRead f p = s.setFold (f.updSource p fun x => { x with left := x.left - 1 }) := by
  unfold State.foldRecordRead
  rw [hy]
  exact if_neg (by simp [hm])

/-- One whose header is another's is lost (R102, R103). -/
theorem State.foldRecordRead_mismatch {s : State} {f : Fold} {y : FoldSource} {p : Nat}
    (hy : (f.sources.find? fun x => decide (x.pos = p)) = some y) (hleft : y.left = 1) (hfailed : y.failed = false)
    (hm : headerMatches (granuleGet y.buffer 0) f.lgn y.first y.count y.sequence = false) :
    s.foldRecordRead f p = s.foldRecordLost f p := by
  unfold State.foldRecordRead
  rw [hy]
  exact if_pos ⟨hleft.le, hfailed, hm⟩

theorem find?_middle {α : Type} {q : α → Bool} {before after : List α} {y : α} (hb : ∀ z ∈ before, q z = false)
    (hy : q y = true) : (before ++ y :: after).find? q = some y := by
  rw [List.find?_append, List.find?_eq_none.2 fun z hz => by simp [hb z hz], Option.none_or, List.find?_cons_of_pos hy]

section
variable {s : State} {o : MediaOp} {f : Fold} {p : Nat} (d x : Nat)

theorem exec_finished_record_ok (hr : s.foldReads o f) (ho : o.origin = .foldRecord p) (ht : o.target = .staging) :
    ∃ l, exec (.finished s.mpt.order.number 0 d x) s =
        .next (({ s.countSuccess.portIdle with slu := l } : State).foldRecordRead f p)
      ∧ ({ s.countSuccess.portIdle with slu := l } : State) = s.countSuccess.portIdle.recordReadEnd p := by
  obtain ⟨hstage, hop, -, -, hfold, -⟩ := hr
  obtain ⟨l, hl, ⟨hfold', -⟩, -⟩ := s.countSuccess.portIdle.recordReadEnd_spec p
  refine ⟨l, ?_, hl.symm⟩
  rw [exec_finished_ok d x hstage hop, State.reportOutcome_foldRecord (o := { o with sectorsDone := o.count })
    (out := .complete) _ ho ht nofun, hl]
  unfold State.foldRecordOutcome
  have : ({ s.countSuccess.portIdle with slu := l } : State).slu.fold = some f := hfold'.trans hfold
  rw [this]

theorem exec_finished_record_unrecovered (hr : s.foldReads o f) (ho : o.origin = .foldRecord p) (ht : o.target = .staging)
    (hret : 8 ≤ o.retries) :
    ∃ l, exec (.finished s.mpt.order.number 2 d x) s =
        .next (({ s.portIdle with slu := l } : State).foldRecordLost f p)
      ∧ ({ s.portIdle with slu := l } : State) = s.portIdle.recordReadEnd p := by
  obtain ⟨hstage, hop, hw, -, hfold, -⟩ := hr
  obtain ⟨l, hl, ⟨hfold', -⟩, -⟩ := s.portIdle.recordReadEnd_spec p
  refine ⟨l, ?_, hl.symm⟩
  rw [exec_finished_unrecovered d x hstage hop hw hret, State.reportUnrecovered_of_none (MediaOp.bandRead_of_staging ht),
    State.reportOutcome_foldRecord (o := { o with sectorsDone := o.doneBefore x }) (out := .unrecovered) _ ho ht nofun,
    hl]
  unfold State.foldRecordOutcome
  have : ({ s.portIdle with slu := l } : State).slu.fold = some f := hfold'.trans hfold
  rw [this]

end

end Sys2Proof.Machine
end

section
namespace Sys2Proof.Machine

theorem mem_coveredBy {rs : List Record} {bare : List Nat} {j : Nat}
    (hbare : bare = (List.range 16).filter fun j => decide (∀ x ∈ rs, j < x.first ∨ x.first + x.count ≤ j)) :
    j ∈ coveredBy rs ↔ j < 16 ∧ j ∉ bare := by
  have hlt : j ∈ coveredBy rs → j < 16 := fun h => List.mem_range.1 (List.mem_of_mem_filter h)
  rw [hbare, ← filter_not_coveredBy]
  simp only [List.mem_filter, List.mem_range, List.contains_eq_mem, Bool.not_eq_eq_eq_not, Bool.not_true,
    decide_eq_false_iff_not, not_and, not_not]
  exact ⟨fun h => ⟨hlt h, fun _ => h⟩, fun ⟨h, h'⟩ => h' h⟩

theorem State.entryOf_congr {s t : State} (h : t.gmu = s.gmu) (k : Nat) : t.entryOf k = s.entryOf k := by
  rw [State.entryOf, h]; rfl

theorem State.stream_congr {s t : State} (h : t.swr = s.swr) (n : Fin 9) : t.stream n = s.stream n := by
  rw [State.stream, h]; rfl

/-- The map entries of a part whose GMU has one entry replaced (R42). -/
theorem State.entryOf_tablePut {s t : State} {lgn : Nat} {e : MapEntry} (hmap : s.MapCanonical)
    (h : t.gmu = { s.gmu with map := tablePut {} s.gmu.map lgn e }) :
    t.entryOf lgn = e ∧ ∀ k, k ≠ lgn → t.entryOf k = s.entryOf k := by
  rw [State.entryOf, h]
  refine ⟨tableGet_tablePut_self hmap .., fun k hk => ?_⟩
  rw [State.entryOf, h]
  exact tableGet_tablePut_of_ne hk _ hmap

theorem State.withMerged_slu (s : State) (f : Fold) : (s.withMerged f).slu =
    { s.slu with fold := some { f with stage := .writing, merged := some f.mergedGranule } } := rfl

section
variable {s : State} {o : MediaOp} {f : Fold} (d x : Nat)

/-- The last home run of a fold lost for good, its copy still the granule's home: the granule is reported lost and the
fold merges without the copy (R57, R103). -/
theorem exec_finished_home_lost {h : Home} (hr : s.foldReads o f) (ho : o.origin = .foldHome) (hret : 8 ≤ o.retries)
    (hsrc : f.homeSource = .slot h) (hleft : f.homeLeft = 1) (hsources : ∀ y ∈ f.sources, y.left = 0)
    (hwriting : (s.stream f.target).writing.isSome = true) (hmap : s.MapCanonical)
    (hhome : (s.entryOf f.lgn).home = some h) :
    ∃ v : State, exec (.finished s.mpt.order.number 2 d x) s = .next (v.withMerged
        { f with homeLeft := 0, failures := [.homeUnrecovered], homeSource := .none })
      ∧ v.gmu = { s.gmu with
        map := tablePut {} s.gmu.map f.lgn { s.entryOf f.lgn with home := none, lost := true } }
      ∧ v.swr = s.swr ∧ v.slu = s.slu ∧ v.har = s.har
      ∧ v.evu.flags.getLsbD EventFlag.granuleLost.index.val = true
      ∧ v.evu.details[EventFlag.granuleLost.index.val] = f.lgn := by
  obtain ⟨u, hu, hgmu, hswr, hslu, hhar⟩ := exec_finished_home_unrecovered d x hr ho hret hsrc hleft
  obtain ⟨b, hb⟩ := State.lostReport_of_home (s := u) (lgn := f.lgn) (h := h)
    (by rw [State.entryOf_congr hgmu]; exact hhome)
  have hvgmu : (u.lostReport f.lgn h).gmu = { s.gmu with
      map := tablePut {} s.gmu.map f.lgn { s.entryOf f.lgn with home := none, lost := true } } := by
    rw [hb, State.raise_gmu, State.entryOf_congr hgmu, hgmu]
  have hvswr : (u.lostReport f.lgn h).swr = s.swr := by rw [hb, State.raise_swr]; exact hswr
  obtain ⟨hentry, -⟩ := State.entryOf_tablePut hmap hvgmu
  rw [State.setFold_merges_without_home (f := { f with homeLeft := 0, failures := [.homeUnrecovered] })
    (Fold.left_eq_zero rfl hsources) rfl (by exact congrArg MapEntry.lost hentry)
    (by exact congrArg MapEntry.home hentry) (by rw [State.stream_congr hvswr]; exact hwriting)] at hu
  refine ⟨_, hu, hvgmu, hvswr, by rw [hb, State.raise_slu]; exact hslu, by rw [hb, State.raise_har]; exact hhar, ?_⟩
  rw [hb, State.raise_evu]
  exact Evu.set_self ..

/-- The last home run of a fold lost for good, the granule's home elsewhere: the fold is abandoned (R103, R106). -/
theorem exec_finished_home_moved {h moved : Home} (hr : s.foldReads o f) (ho : o.origin = .foldHome)
    (hret : 8 ≤ o.retries) (hsrc : f.homeSource = .slot h) (hleft : f.homeLeft = 1)
    (hsources : ∀ y ∈ f.sources, y.left = 0) (hhome : (s.entryOf f.lgn).home = some moved) (hne : moved ≠ h)
    (hwait : s.slu.overlayWait = []) (hreqs : s.slu.foldReqs = []) :
    ∃ t, exec (.finished s.mpt.order.number 2 d x) s = .next t ∧ t.slu = { s.slu with fold := none }
      ∧ t.gmu = s.gmu ∧ t.swr = s.swr ∧ t.har = s.har := by
  obtain ⟨u, hu, hgmu, hswr, hslu, hhar⟩ := exec_finished_home_unrecovered d x hr ho hret hsrc hleft
  have hhome' : (u.entryOf f.lgn).home = some moved := by rw [State.entryOf_congr hgmu]; exact hhome
  obtain ⟨g, hg⟩ : ∃ g : Fold, g = { f with homeLeft := 0, failures := [.homeUnrecovered] } := ⟨_, rfl⟩
  have hgleft : g.left = 0 := by rw [hg]; exact Fold.left_eq_zero rfl hsources
  have hend := State.setFold_abandons (s := u) hgleft (by simp [hg]) (.inr (by simp [hg, hhome'])) (by simp [hg])
  rw [State.lostReport_of_moved (by rw [hhome']; simpa using hne), ← hg, hend, State.foldEnd_no_reqs
    (by exact (congrArg Slu.overlayWait hslu).trans hwait) (by exact (congrArg Slu.foldReqs hslu).trans hreqs)] at hu
  exact ⟨_, hu, congrArg (fun l : Slu => { l with fold := none }) hslu, hgmu, hswr, hhar⟩

/-- The last record run of a fold complete, its header as written: the fold merges (R102, R104, R105). -/
theorem exec_finished_record_merges {before after : List FoldSource} {y : FoldSource} {p : Nat} (hr : s.foldReads o f)
    (ho : o.origin = .foldRecord p) (ht : o.target = .staging) (hhome : f.homeLeft = 0)
    (hs : f.sources = before ++ y :: after) (hy : y.pos = p) (hleft : y.left = 1)
    (hne : ∀ z ∈ before ++ after, z.pos ≠ p ∧ z.left = 0)
    (hfind : (f.sources.find? fun z => decide (z.pos = p)) = some y)
    (hm : headerMatches (granuleGet y.buffer 0) f.lgn y.first y.count y.sequence = true)
    (hwriting : (s.stream f.target).writing.isSome = true) :
    ∃ l, exec (.finished s.mpt.order.number 0 d x) s = .next (({ s.countSuccess.portIdle with slu := l }).withMerged
      { f with sources := before ++ { y with left := 0 } :: after }) := by
  obtain ⟨-, -, -, -, -, hfail⟩ := id hr
  obtain ⟨l, hexec, -⟩ := exec_finished_record_ok d x hr ho ht
  have hleft' : ({ f with sources := before ++ { y with left := 0 } :: after } : Fold).left = 0 := by
    refine Fold.left_eq_zero hhome fun z hz => ?_
    rcases List.mem_append.1 hz with hz | hz
    · exact (hne z (by simp [hz])).2
    · rcases List.mem_cons.1 hz with rfl | hz
      · rfl
      · exact (hne z (by simp [hz])).2
  rw [State.foldRecordRead_matches hfind hm, Fold.updSource_eq hs hy (fun z hz => (hne z hz).1), hleft,
    State.setFold_merges hleft' hfail (by exact hwriting)] at hexec
  exact ⟨l, hexec⟩

/-- The last record run of a fold lost for good, by its answer or by its header (R103). -/
theorem exec_finished_record_lost {y : FoldSource} {p : Nat} {i : Instr} (hr : s.foldReads o f)
    (ho : o.origin = .foldRecord p) (ht : o.target = .staging) (hleft : y.left = 1) (hfailed : y.failed = false)
    (hfind : (f.sources.find? fun z => decide (z.pos = p)) = some y)
    (hi : 8 ≤ o.retries ∧ i = .finished s.mpt.order.number 2 d x
      ∨ headerMatches (granuleGet y.buffer 0) f.lgn y.first y.count y.sequence = false
        ∧ i = .finished s.mpt.order.number 0 d x) :
    ∃ m, exec i s = .next ((({ s with mpt := m } : State).recordReadEnd p).foldRecordLost f p) := by
  rcases hi with ⟨hret, rfl⟩ | ⟨hm, rfl⟩
  · obtain ⟨l, hexec, hl⟩ := exec_finished_record_unrecovered d x hr ho ht hret
    exact ⟨s.portIdle.mpt, by rw [hexec, hl]; rfl⟩
  · obtain ⟨l, hexec, hl⟩ := exec_finished_record_ok d x hr ho ht
    exact ⟨s.countSuccess.portIdle.mpt, by
      rw [hexec, hl, State.foldRecordRead_mismatch hfind hleft hfailed hm]; rfl⟩

end

/-- What a fold whose source at `p` has ended its last run merges is what it merged before the run (R104). -/
theorem Fold.MergesTo.of_ended {f : Fold} {before after : List FoldSource} {y : FoldSource} {home : Nat → Sector}
    {g : Granule} (hs : f.sources = before ++ y :: after) (hy : ∀ z ∈ before ++ after, z.pos ≠ y.pos)
    (h : ({ f with sources := before ++ { y with left := 0 } :: after } : Fold).MergesTo home g) : f.MergesTo home g := by
  refine h.of_map (φ := fun x => if x.pos = y.pos then { x with left := 0 } else x) (fun x => ?_) ?_
  · split <;> exact ⟨rfl, rfl, rfl, rfl⟩
  · exact (congrArg Fold.sources (Fold.updSource_eq hs rfl hy fun x => { x with left := 0 })).symm

/-- The last record run of a fold ended with the record lost for good (R96, R103). -/
theorem State.recordReadEnd_lost {s : State} {f : Fold} {before after : List FoldSource} {y : FoldSource}
    {p : Nat} {r : Record} {q : FoldReq} {rest : List FoldReq} (hfold : s.slu.fold = some f) (hfail : f.failures = [])
    (hhome : f.homeLeft = 0) (hs : f.sources = before ++ y :: after) (hy : y.pos = p) (hleft : y.left = 1)
    (hne : ∀ z ∈ before ++ after, z.pos ≠ p ∧ z.left = 0) (hr : s.record? p = some r) (hl : r.state = .live)
    (hlive : ∃ z ∈ s.slu.dir, z.pos ≠ p ∧ z.state = .live) (hwait : s.slu.overlayWait = [])
    (hreqs : s.slu.foldReqs = q :: rest) (hmore : q.accepted + q.rejected + q.abandoned + 1 < q.count) :
    ∃ t, (s.recordReadEnd p).foldRecordLost f p = t ∧ t.slu.fold = none
      ∧ (∀ z ∈ t.slu.dir, z.pos = p → z.state = .dead)
      ∧ t.gmu = { s.gmu with map := tablePut {} s.gmu.map r.lgn ((s.entryOf r.lgn).recordDead r) }
      ∧ t.slu.foldReqs = { q with abandoned := q.abandoned + 1 } :: rest ∧ t.evu = s.evu.set .granuleLost f.lgn
      ∧ t.btu = s.btu ∧ t.swr = s.swr ∧ t.har = s.har ∧ t.rqu = s.rqu := by
  obtain ⟨l, hend, ⟨hfold', hwait', hreqs'⟩, hread, hkeep⟩ := s.recordReadEnd_spec p
  obtain ⟨z, hz, hzp, hzl⟩ := hlive
  rw [hend]
  exact State.foldRecordLost_abandons (s := { s with slu := l }) (r := { r with readers := r.readers - 1 })
    (hfold'.trans hfold) hfail hhome hs hy hleft hne (hread r hr hl) hl ⟨z, hkeep z hz hzp hzl, hzp, hzl⟩
    (hwait'.trans hwait) (hreqs'.trans hreqs) hmore

/-- Settles O38: the choice with its reads, no choice, the last run of the home copy, then that of a record. -/
theorem fold_choice_merge_and_abandon : Obligations.Fold_choice_merge_and_abandon := by
  refine ⟨fun s lgn merged bare home hfold hup hfor hmerged hne hbare hhome => ?_, fun s h => ?_, ?_, ?_⟩
  · obtain ⟨source, buffer, ops, hops⟩ := s.exists_homeChosen bare home
    have hexec := exec_foldChoice_of_cause (State.foldCause_eq_some.2 ⟨hfold, hup, hfor⟩)
    rw [State.startFold_eq hmerged hne hbare hhome hops, State.handOverAll_eq, s.foldl_countRead_foldRuns] at hexec
    obtain ⟨hmax, x, hx, hseq, htarget⟩ := newestOf_spec hne
    refine ⟨_, s.chosenFold lgn merged source buffer ops.length, consecutive bare, ops.map fun o => (o.origin, o.run),
      hexec, maximalRuns_consecutive ?_, rfl, rfl, rfl, rfl, (List.length_map ..).symm, fun j => mem_coveredBy hbare, ?_,
      hmax, ⟨x, hx, hseq, fun h => congrArg streamOf (htarget h)⟩, hops.countReads _, hops.queue _,
      fun c hc => Har.queue_joinAll_of_ne hops.cls_all hc _, ?_, ?_, rfl, rfl, rfl, rfl, rfl, rfl, rfl, rfl⟩
    · rw [hbare]; exact List.pairwise_lt_range.filter _
    · simp [State.chosenFold, State.foldSource, State.length_foldRecordRuns]
    · rintro rfl
      obtain ⟨rfl, rfl⟩ := hops.of_none
      exact ⟨rfl, rfl, rfl⟩
    · rintro h rfl
      refine ⟨fun g hg => ?_, fun hno => ?_⟩
      · obtain ⟨rfl, rfl, rfl⟩ := hops.of_held hg
        refine ⟨rfl, rfl, rfl, fun j hj => granuleGet_copySectors hj ?_⟩
        rw [hbare] at hj
        exact List.mem_range.1 (List.mem_of_mem_filter hj)
      · obtain ⟨rfl, rfl⟩ := hops.of_not_held hno
        refine ⟨rfl, s.map_foldHomeRuns h _, fun bd hbd => ?_,
          fun k hk => (s.band_foldHomeRuns s.btu h (consecutive bare) k).trans (if_neg hk)⟩
        have hbd : s.btu.bands[h.band]? = some bd := hbd
        refine (s.band_foldHomeRuns s.btu h (consecutive bare) h.band).trans ?_
        rw [if_pos rfl, hbd, State.map_foldHomeRuns]
        exact congrArg some (bd.reading_eq _)
  · refine foldChoice_nothing fun lgn hc => ?_
    obtain ⟨hfold, hup, hfor⟩ := State.foldCause_eq_some.1 hc
    rcases h with h | h | h
    · exact absurd hfold h
    · simp [h] at hup
    · exact h lgn hfor
  · intro s o f h d x hr ho hsrc hleft hsources hwriting
    obtain ⟨-, -, -, -, -, hfail⟩ := id hr
    refine ⟨?_, fun hret hmap hhome => ?_, fun moved hret hhome hne hwait hreqs =>
      exec_finished_home_moved d x hr ho hret hsrc hleft hsources hhome hne hwait hreqs⟩
    · obtain ⟨b, hb⟩ := exec_finished_home_ok d x hr ho hleft
      rw [State.setFold_merges (f := { f with homeLeft := 0 }) (Fold.left_eq_zero rfl hsources) hfail
        (by exact hwriting)] at hb
      refine ⟨_, _, hb, Fold.mergesTo_mergedGranule (f := { f with homeLeft := 0 }) fun j hj => ?_, rfl,
        State.stream_withMerged .., rfl, rfl, rfl, rfl, rfl⟩
      rw [Fold.mergedSector, hj, hsrc]
    · obtain ⟨v, hv, hgmu, hswr, hslu, hhar, hflag, hdetail⟩ :=
        exec_finished_home_lost d x hr ho hret hsrc hleft hsources hwriting hmap hhome
      obtain ⟨hentry, hothers⟩ := State.entryOf_tablePut hmap hgmu
      refine ⟨_, _, hv, Fold.mergesTo_mergedGranule
        (f := { f with homeLeft := 0, failures := [.homeUnrecovered], homeSource := .none }) fun j hj => ?_,
        by rw [State.withMerged_slu, hslu], (State.stream_withMerged ..).trans ?_, hentry, hothers, hflag, hdetail, hhar⟩
      · rw [Fold.mergedSector, hj]
      · rw [State.stream_congr hswr]; rfl
  · intro s o f before after y p d x hr ho ht hhome hs hy hleft hfailed hne
    obtain ⟨-, -, -, -, hfold, hfail⟩ := id hr
    have hfind : (f.sources.find? fun z => decide (z.pos = p)) = some y := by
      rw [hs]
      exact find?_middle (fun z hz => by simpa using (hne z (by simp [hz])).1) (by simpa using hy)
    refine ⟨fun hm hwriting => ?_, fun r q rest i hmap hrec hlive hother hwait hreqs hmore hi => ?_⟩
    · obtain ⟨l, hl⟩ := exec_finished_record_merges d x hr ho ht hhome hs hy hleft hne hfind hm hwriting
      refine ⟨_, _, hl, Fold.MergesTo.of_ended hs (fun z hz => hy ▸ (hne z hz).1)
        (Fold.mergesTo_mergedGranule fun j hj => ?_), rfl, (State.stream_withMerged ..).trans ?_, rfl, rfl, rfl, rfl, rfl⟩
      · cases f.homeSource <;> simp [Fold.mergedSector, hj]
      · rw [hs, Fold.item, List.map_append, List.map_append]; rfl
    · obtain ⟨m, hexec⟩ := exec_finished_record_lost d x hr ho ht hleft hfailed hfind hi
      obtain ⟨t, htl, hidle, hdead, hgmu, htreqs, hevu, hkept⟩ := State.recordReadEnd_lost (s := { s with mpt := m })
        hfold hfail hhome hs hy hleft hne hrec hlive hother hwait hreqs hmore
      obtain ⟨hentry, hothers⟩ := State.entryOf_tablePut hmap hgmu
      have hpos : r.pos = p := by simpa using List.find?_some hrec
      have hset := s.evu.set_self .granuleLost f.lgn
      rw [← hevu] at hset
      obtain ⟨hflag, hdetail⟩ := hset
      refine ⟨t, htl ▸ hexec, hidle, hdead, ?_, hothers, htreqs, hflag, hdetail, hkept⟩
      rw [hentry, MapEntry.recordDead, hpos]
      rfl

end Sys2Proof.Machine
end

section
namespace Sys2Proof.Machine

/-! ### The reset state -/

/-- Settles O2: every record of the reset state is written out, and a power-on reset rebuilds them. -/
theorem reset_state_values : Obligations.Reset_state_values := by
  unfold Obligations.Reset_state_values
  refine ⟨rfl, rfl, rfl, rfl, rfl, rfl, rfl, ?streams, rfl, rfl, rfl, rfl, rfl, rfl, rfl, ?classes, rfl, rfl, rfl, rfl, rfl,
    rfl, rfl, rfl, ?flags, ?windows, fun _ => rfl⟩
  case streams => decide
  case classes => decide
  case flags => decide
  case windows => decide

theorem State.reset_bandsSound : State.reset.BandsSound := fun _ _ h => nomatch h

/-- Settles O3: the reset state has no band record, no operation and no request. -/
theorem reset_meets_invariants : Obligations.Reset_meets_invariants :=
  ⟨rfl, State.reset_bandsSound, by decide, by decide, by decide⟩

end Sys2Proof.Machine
end

section
namespace Sys2Proof.Machine

/-! ### What a property of the state must survive to be kept by the blocks' work

`Kept.Base P` says that `P` survives every change of the records all blocks share; `Pump`, `Frontier`, `Log`, `Homes`,
`Cleaner` and `Qual` add the changes of one block's own work, `All` those of every block. Each operation of the model then
has one lemma: it keeps every such `P`. A frame ("this work leaves that block alone") is the case where the property is
that the block's record is a given one. -/

/-- `P` survives changes of the outbound queue, the request entries, the event flags, the class queues and the buffers. -/
structure Kept.Base (P : State → Prop) : Prop where
  outbound : ∀ {s : State} o, P s → P { s with flu := { s.flu with outbound := o } }
  requests : ∀ {s : State} es l, P s → P { s with rqu := { s.rqu with entries := es, held := l } }
  events : ∀ {s : State} f d, P s → P { s with evu := { s.evu with flags := f, details := d } }
  queues : ∀ {s : State} q k n, P s → P { s with har := { s.har with queues := q, skips := k, nextId := n } }
  buffers : ∀ {s : State} r, P s → P { s with residue := r }

/-- `P` survives a stream going on with its head: its record but the zone range and the exposed set, and opens. -/
structure Kept.Pump (P : State → Prop) (n : Fin 9) : Prop extends Kept.Base P where
  stream : ∀ {s : State} {x : Stream}, x.lo = (s.stream n).lo → x.hi = (s.stream n).hi →
    x.exposed = (s.stream n).exposed → P s → P (s.setStream n x)
  wait : ∀ {s : State} l, P s → P { s with btu := { s.btu with openWait := l } }
  grant : ∀ {s : State}, P s → P (s.grantOpen n)

/-- `P` survives all a stream's own work: its exposed set, its band's frontier and closes too. -/
structure Kept.Frontier (P : State → Prop) (n : Fin 9) : Prop extends Kept.Pump P n where
  place : ∀ {s : State} {x : Stream}, x.lo = (s.stream n).lo → x.hi = (s.stream n).hi → P s → P (s.setStream n x)
  report : ∀ {s : State} b f v, P s → P (s.frontierReport b f v)
  close : ∀ {s : State} b why, P s → P (s.closeBand b why)
  serial : ∀ {s : State} k, P s → P { s with swr := { s.swr with faultSerial := k } }

/-- `P` survives reads: the log's records with their readers, and readers of bands. -/
structure Kept.Reads (P : State → Prop) : Prop extends Kept.Base P where
  log : ∀ {s : State} x, P s → P { s with slu := x }
  readStart : ∀ {s : State} b, P s → P (s.readStart b)
  readEnd : ∀ {s : State} b, P s → P (s.readEnd b)

/-- `P` survives the log's work: the log, the map entries its records have, and readers of bands. -/
structure Kept.Log (P : State → Prop) : Prop extends Kept.Reads P where
  map : ∀ {s : State} m, P s → P { s with gmu := { s.gmu with map := m } }

/-- `P` survives home changes: the log's work, superseded slots, and the watch windows and notices. -/
structure Kept.Homes (P : State → Prop) : Prop extends Kept.Log P where
  supersede : ∀ {s : State} h, P s → P (s.supersede h)
  watch : ∀ {s : State} w q, P s → P { s with evu := { s.evu with windows := w, watchQueue := q } }

/-- `P` survives the cleaner's work on its victim. -/
structure Kept.Cleaner (P : State → Prop) : Prop extends Kept.Reads P, Kept.Pump P relocation where
  cleaner : ∀ {s : State} g v l, P s → P { s with cle := { s.cle with stage := g, victim := v, hostList := l } }
  spend : ∀ {s : State}, P s →
    P { s with cle := { s.cle with pacer := { s.cle.pacer with credits := s.cle.pacer.credits - 1 } } }
  leave : ∀ {s : State} b m, P s → P (s.leaveCleaning b m)

/-- `P` survives a qualification's work. -/
structure Kept.Qual (P : State → Prop) : Prop extends Kept.Base P where
  qen : ∀ {s : State} x, P s → P { s with qen := x }
  ends : ∀ {s : State} b out, P s → P (s.endQualifying b out)

/-- `P` survives the work of every block behind the media port. -/
structure Kept.All (P : State → Prop) : Prop extends Kept.Homes P, Kept.Cleaner P, Kept.Qual P where
  frontier : ∀ n, Kept.Frontier P n
  placed : ∀ {s : State}, P s → P s.placedGranule

namespace Kept
variable {P : State → Prop} {s : State} {n : Fin 9}

theorem foldl {α : Type} {f : State → α → State} (hf : ∀ {s : State}, P s → ∀ a, P (f s a)) (hs : P s) (l : List α) :
    P (l.foldl f s) := by
  induction l generalizing s with
  | nil => exact hs
  | cons a l ih => exact ih (hf hs a)

/-! ### The shared records -/

namespace Base
variable (h : Base P)
include h

theorem push (hs : P s) (f : OutFrame) : P (s.push f) := h.outbound _ hs

theorem reply (hs : P s) (code tag : Nat) (c : Bool) (st : Status) (fs : List Field) : P (s.reply code tag c st fs) :=
  h.push hs _

theorem updEntry (hs : P s) (tag : Nat) (f : Entry → Entry) : P (s.updEntry tag f) := h.requests _ _ hs

theorem freeEntry (hs : P s) (tag : Nat) : P (s.freeEntry tag) := h.requests _ _ hs

theorem finish (hs : P s) (tag : Nat) (st : Status) (fs : List Field) : P (s.finish tag st fs) := by
  unfold State.finish
  split
  · exact h.freeEntry (h.reply hs ..) _
  · exact hs

theorem finishAll (hs : P s) (tags : List Nat) (st : Status) : P (s.finishAll tags st) := by
  unfold State.finishAll
  exact foldl (P := P) (fun k t => h.finish k ..) hs _

theorem hold (hs : P s) (tag : Nat) (why : HoldReason) : P (s.hold tag why) := h.requests _ _ (h.updEntry hs ..)

theorem unhold (hs : P s) (tag : Nat) : P (s.unhold tag) := h.requests _ _ (h.updEntry hs ..)

theorem takeBuffer (hs : P s) : P s.takeBuffer := h.buffers _ hs

theorem raise (hs : P s) (e : EventFlag) (d : Nat) : P (s.raise e d) := by
  unfold State.raise
  dsimp only
  split
  · exact h.push (h.events _ _ hs) _
  · exact h.events _ _ hs

theorem raiseEnded (hs : P s) (rs : List Recovery) : P (s.raiseEnded rs) := by
  unfold State.raiseEnded
  exact foldl (P := P) (fun k r => h.raise k ..) hs _

/-- A write run is counted in no reader. -/
theorem handOver_write (hs : P s) {o : MediaOp} (ho : o.bandRead = none) (hr : o.recordRead = none) :
    P (s.handOver o) := by
  have hb : (o.fresh s.har.nextId).bandRead = none := ho
  have hc : (o.fresh s.har.nextId).recordRead = none := hr
  unfold State.handOver State.countReaders
  dsimp only
  rw [hb, hc]
  exact h.queues _ _ _ hs

theorem spendIds (hs : P s) (k : Nat) : P (s.spendIds k) := h.queues _ _ _ hs

theorem requeueHead (hs : P s) (o : MediaOp) : P (s.requeueHead o) := h.queues _ _ _ hs

theorem withdrawQual (hs : P s) : P s.withdrawQual := h.queues _ _ _ hs

theorem judgeFetch (hs : P s) (tag : Nat) : P (s.judgeFetch tag) := by
  unfold State.judgeFetch
  repeat' first | exact hs | apply h.finish | split

theorem fetchRunEnded (hs : P s) (tag : Nat) (failed down : Bool) : P (s.fetchRunEnded tag failed down) :=
  h.judgeFetch (h.updEntry hs ..) _

theorem fetchOutcome (hs : P s) (o : MediaOp) (out : Outcome) : P (s.fetchOutcome o out) := by
  unfold State.fetchOutcome
  repeat' first | exact hs | apply h.fetchRunEnded | split

theorem storeDone (hs : P s) (tag : Nat) : P (s.storeDone tag) := by
  unfold State.storeDone
  split
  · exact h.finish hs ..
  · exact hs

theorem judgePressureOn (hb : ∀ {s : State} p, P s → P { s with btu := { s.btu with pressure := p } }) (hs : P s) :
    P s.judgePressureOn := by
  unfold State.judgePressureOn
  split
  · exact h.raise (hb _ hs) ..
  · exact hs

theorem judgePressureOff (hb : ∀ {s : State} p, P s → P { s with btu := { s.btu with pressure := p } }) (hs : P s) :
    P s.judgePressureOff := by
  unfold State.judgePressureOff
  split
  · exact h.raise (hb _ hs) ..
  · exact hs

end Base

/-! ### Streams -/

namespace Pump
variable (h : Pump P n)
include h

theorem dropHead (hs : P s) : P (s.dropHead n) := h.stream rfl rfl rfl hs

theorem keepItems (hs : P s) (keep : Item → Bool) : P (s.keepItems n keep) := h.stream rfl rfl rfl hs

theorem queueRun (hs : P s) : P (s.queueRun n) := by
  unfold State.queueRun
  dsimp only
  split
  · split
    · exact h.handOver_write hs rfl rfl
    · exact hs
  · exact hs

theorem pumpFor (hs : P s) (fuel : Nat) : P (s.pumpFor n fuel) := by
  induction fuel generalizing s with
  | zero => exact hs
  | succ fuel ih =>
    unfold State.pumpFor
    dsimp only
    split
    · exact hs
    split
    · exact hs
    split
    · split
      · refine ih ?_
        split
        · refine h.hold ?_ ..
          exact h.stream rfl rfl rfl hs
        · exact h.stream rfl rfl rfl hs
      · split
        · exact h.wait _ (h.stream rfl rfl rfl hs)
        · exact ih (h.grant hs)
    · split
      · exact hs
      · split
        · exact ih (h.dropHead hs)
        · exact h.queueRun (h.stream rfl rfl rfl hs)

theorem goOn (hs : P s) : P (s.goOn n) := h.pumpFor hs _

theorem pump (hs : P s) : P (s.pump n) := h.raiseEnded (h.goOn hs) _

theorem enqueue (hs : P s) (items : List Item) : P (s.enqueue n items) := h.pump (h.stream rfl rfl rfl hs)

theorem downHead (hs : P s) : P (s.downHead n) := by
  unfold State.downHead
  repeat' first | exact hs | apply h.dropHead | apply h.finish | split

theorem streamDown (hs : P s) : P (s.streamDown n) := h.keepItems (h.finishAll hs ..) _

theorem streamReset (hs : P s) : P (s.streamReset n) := h.stream rfl rfl rfl (h.keepItems hs _)

end Pump

theorem pumpAll (h : ∀ n, Pump P n) (hs : P s) : P s.pumpAll :=
  (h 0).raiseEnded (foldl (P := P) (fun k n => (h n).goOn k) hs _) _

theorem swrDown (h : ∀ n, Pump P n) (hs : P s) : P s.swrDown := by
  unfold State.swrDown
  exact foldl (P := P) (fun k n => (h n).streamDown k) hs _

theorem swrReset (h : ∀ n, Pump P n) (hs : P s) : P s.swrReset :=
  (h 0).raiseEnded (foldl (P := P) (fun k n => (h n).streamReset k) hs _) _

theorem takeStore (h : ∀ n, Pump P n) (hs : P s) (e : Entry) : P (s.takeStore e) := by
  unfold State.takeStore
  split
  · exact (h _).enqueue hs _
  · exact (h 0).finish hs ..

namespace Frontier
variable (h : Frontier P n)
include h

theorem updStream (hs : P s) {f : Stream → Stream} (hf : ∀ x, (f x).lo = x.lo ∧ (f x).hi = x.hi) :
    P (s.updStream n f) := h.place (hf _).1 (hf _).2 hs

theorem moveFrontier (hs : P s) (b f : Nat) (v : Option Slot) (release : Bool) :
    P (s.moveFrontier n b f v release) := by
  unfold State.moveFrontier
  dsimp only
  split
  · exact h.place rfl rfl (h.report _ _ _ hs)
  · exact h.report _ _ _ hs

theorem capacityClose (hs : P s) (b : Nat) : P (s.capacityClose n b) := by
  unfold State.capacityClose
  split
  · exact h.close _ _ (h.place rfl rfl hs)
  · exact hs

theorem writeFault (hs : P s) (d : Nat) : P (s.writeFault n d) := by
  unfold State.writeFault
  dsimp only
  split
  · exact h.pump (h.place rfl rfl (h.serial _ (h.close _ _ (h.moveFrontier hs ..))))
  · exact hs

theorem abortRound (hs : P s) (d : Nat) : P (s.abortRound n d) := by
  unfold State.abortRound
  dsimp only
  split
  · refine h.place rfl rfl ?_
    split
    · exact hs
    · exact h.capacityClose (h.moveFrontier (h.moveFrontier hs ..) ..) _
  · exact hs

theorem runStopped (hs : P s) (d : Nat) : P (s.runStopped n d) := by
  unfold State.runStopped
  repeat' first | exact hs | apply h.moveFrontier | split

end Frontier

/-! ### The log and the fold engine -/

namespace Reads
variable (h : Reads P)
include h

theorem updRecord (hs : P s) (p : Nat) (f : Record → Record) : P (s.updRecord p f) := h.log _ hs

theorem handOver (hs : P s) (o : MediaOp) : P (s.handOver o) := by
  have hq : P { s with har := { s.har.setQueue o.cls (s.har.queue o.cls ++ [o.fresh s.har.nextId]) with
      nextId := nextOpId s.har.nextId } } := h.queues _ _ _ hs
  unfold State.handOver State.countReaders
  dsimp only
  have hr : ∀ {s : State}, P s → P (match (o.fresh s.har.nextId).bandRead with
      | some b => s.readStart b
      | none => s) := by
    intro s hs
    split
    · exact h.readStart _ hs
    · exact hs
  split <;> split
  all_goals first | exact hq | exact h.readStart _ hq | exact h.updRecord hq .. | exact h.updRecord (h.readStart _ hq) ..

theorem handOverAll (hs : P s) (os : List MediaOp) : P (s.handOverAll os) := by
  unfold State.handOverAll
  exact foldl (P := P) (fun k o => h.handOver k o) hs _

theorem advanceHead (hs : P s) : P s.advanceHead := h.log _ hs

end Reads

namespace Log
variable (h : Log P)
include h

theorem setEntryOf (hs : P s) (lgn : Nat) (e : MapEntry) : P (s.setEntryOf lgn e) := h.map _ hs

theorem judgeFoldReqs (hs : P s) : P s.judgeFoldReqs := by
  unfold State.judgeFoldReqs
  split
  · refine foldl (P := P) (fun k q => h.finish k ..) ?_ _
    exact h.log _ hs
  · exact hs

theorem killRecords (hs : P s) (ps : List Nat) : P (s.killRecords ps) := h.judgeFoldReqs (h.advanceHead (h.log _ hs))

theorem makeDead (hs : P s) (p : Nat) : P (s.makeDead p) := by
  unfold State.makeDead
  split
  · split
    · exact hs
    · exact h.judgeFoldReqs (h.advanceHead (h.setEntryOf (h.log _ hs) ..))
  · exact hs

theorem recordReadEnd (hs : P s) (p : Nat) : P (s.recordReadEnd p) := h.advanceHead (h.updRecord hs ..)

theorem endReaders (hs : P s) (o : MediaOp) : P (s.endReaders o) := by
  unfold State.endReaders
  dsimp only
  split <;> split
  all_goals first
    | exact hs | exact h.readEnd _ hs | exact h.recordReadEnd hs _ | exact h.recordReadEnd (h.readEnd _ hs) _

theorem queueStaged (hs : P s) (p tag off : Nat) : P (s.queueStaged p tag off) := by
  unfold State.queueStaged
  repeat' first | exact hs | apply h.handOver | split

theorem appendRecord (hs : P s) (tag lgn first count sequence stream : Nat) (prev : Option Nat) (again : Bool) :
    P (s.appendRecord tag lgn first count sequence stream prev again) :=
  h.queueStaged (h.setEntryOf (h.log _ hs) ..) ..

theorem judgeAdmission (hs : P s) (e : Entry) : P (s.judgeAdmission e) := by
  unfold State.judgeAdmission
  dsimp only
  split
  · exact h.appendRecord hs ..
  · exact h.hold (h.raise (h.log _ hs) ..) ..

theorem takePartial (hs : P s) (e : Entry) : P (s.takePartial e) := by
  unfold State.takePartial
  dsimp only
  split
  · exact h.finish hs ..
  · split
    · exact h.log _ hs
    · exact h.judgeAdmission hs _

theorem rejudgeOverlay (hs : P s) (tag : Nat) : P (s.rejudgeOverlay tag) := by
  unfold State.rejudgeOverlay
  split
  · split
    · exact h.judgeAdmission (h.log _ hs) _
    · exact hs
  · exact hs

theorem rejudgeOverlays (hs : P s) : P s.rejudgeOverlays := by
  unfold State.rejudgeOverlays
  exact foldl (P := P) (fun k t => h.rejudgeOverlay k t) hs _

theorem dropWrite (hs : P s) (p : Nat) : P (s.dropWrite p) := h.log _ hs

theorem stagedAdvance (hs : P s) (p next : Nat) : P (s.stagedAdvance p next) := by
  unfold State.stagedAdvance
  repeat' first
    | exact hs | apply h.queueStaged | apply h.storeDone | apply h.dropWrite | apply h.updRecord | split

theorem stagedFault (hs : P s) (p : Nat) : P (s.stagedFault p) := by
  unfold State.stagedFault
  repeat' first
    | exact hs | apply h.appendRecord | apply h.finish | apply h.makeDead | apply h.dropWrite | split | dsimp only

theorem stagedDown (hs : P s) (p : Nat) : P (s.stagedDown p) := by
  unfold State.stagedDown
  repeat' first | exact hs | apply h.finish | apply h.makeDead | apply h.dropWrite | split

theorem stagedOutcome (hs : P s) (p : Nat) (o : MediaOp) (x : Outcome) : P (s.stagedOutcome p o x) := by
  unfold State.stagedOutcome
  split
  all_goals first | exact hs | exact h.stagedAdvance hs .. | exact h.stagedFault hs _ | exact h.stagedDown hs _

theorem startFold (hs : P s) (lgn : Nat) : P (s.startFold lgn) := by
  unfold State.startFold
  dsimp only
  split
  · exact hs
  · exact h.handOverAll (h.takeBuffer (h.log _ hs)) _

theorem countFold (hs : P s) (f : FoldReq → FoldReq) : P (s.countFold f) := by
  unfold State.countFold
  split
  · dsimp only
    split
    · refine h.finish ?_ ..
      exact h.log _ hs
    · exact h.log _ hs
  · exact hs

theorem foldEnd (hs : P s) (f : FoldReq → FoldReq) : P (s.foldEnd f) := by
  unfold State.foldEnd
  refine h.rejudgeOverlays (h.judgeFoldReqs (h.countFold ?_ _))
  exact h.log _ hs

theorem foldPlaced (hs : P s) (v : Verdict) : P (s.foldPlaced v) := by
  unfold State.foldPlaced
  split <;> exact h.foldEnd hs _

theorem giveUp (hs : P s) (p lgn : Nat) : P (s.giveUp p lgn) := by
  unfold State.giveUp
  repeat' first | exact hs | apply h.raise | apply h.makeDead | split

theorem sluDown (hs : P s) (reqs : List FoldReq) : P (s.sluDown reqs) := by
  unfold State.sluDown
  refine h.finishAll (h.finishAll ?_ ..) ..
  exact h.log _ hs

theorem sluReset (hs : P s) : P s.sluReset := by
  unfold State.sluReset
  refine h.advanceHead (foldl (P := P) (fun k p => h.makeDead k p) ?_ _)
  exact h.log _ hs

theorem issueFetch (hs : P s) (tag : Nat) (runs : List MediaOp) : P (s.issueFetch tag runs) := by
  unfold State.issueFetch
  split
  · exact h.judgeFetch (h.handOverAll (h.updEntry hs ..) _) _
  · split
    · exact h.judgeFetch hs _
    · exact h.finish (h.spendIds hs _) ..

theorem startFetch (hs : P s) (e : Entry) : P (s.startFetch e) := by
  unfold State.startFetch
  dsimp only
  split
  · exact h.finish hs ..
  · exact h.issueFetch (h.updEntry hs ..) ..

end Log

namespace Homes
variable (h : Homes P)
include h

theorem offerWatch (hs : P s) (x : WatchNotice) : P (s.offerWatch x) := by
  unfold State.offerWatch
  split
  · exact h.watch _ _ hs
  · exact h.raise (h.watch _ _ hs) ..

theorem homeChange (hs : P s) (lgn : Nat) (cause : HomeCause) (old new : Option Home) :
    P (s.homeChange lgn cause old new) := by
  unfold State.homeChange
  dsimp only
  split
  · exact hs
  · exact h.offerWatch hs _

theorem supersedeGranule (hs : P s) (lgn p : Nat) (new : Option Home) : P (s.supersedeGranule lgn p new) :=
  h.killRecords (h.setEntryOf (h.supersede _ hs) ..) _

theorem acceptFold (hs : P s) (lgn q : Nat) (merged : List Nat) (new : Home) : P (s.acceptFold lgn q merged new) :=
  h.homeChange (h.killRecords (h.setEntryOf (h.supersede _ hs) ..) _) ..

theorem acceptCopy (hs : P s) (lgn : Nat) (src new : Home) (cause : HomeCause) : P (s.acceptCopy lgn src new cause) :=
  h.homeChange (h.setEntryOf (h.supersede _ hs) ..) ..

theorem propose (hs : P s) (it : Item) (new : Home) : P (s.propose it new) := by
  unfold State.propose
  split
  · exact hs
  · split
    · exact h.homeChange (h.supersedeGranule hs ..) ..
    · exact h.acceptFold hs ..
    · exact h.acceptCopy hs ..
    · exact h.acceptCopy hs ..

theorem lostReport (hs : P s) (lgn : Nat) (x : Home) : P (s.lostReport lgn x) := by
  unfold State.lostReport
  dsimp only
  split
  · exact h.raise (h.supersede _ (h.setEntryOf hs ..)) ..
  · exact hs

theorem discardOne (hs : P s) (lgn p : Nat) : P (s.discardOne lgn p) := by
  unfold State.discardOne
  dsimp only
  split
  · exact h.homeChange (h.supersedeGranule hs ..) ..
  · exact h.supersedeGranule hs ..

theorem discardRange (hs : P s) (p k lgn : Nat) : P (s.discardRange p k lgn) := by
  induction k generalizing s lgn with
  | zero => exact hs
  | succ k ih => exact ih (h.discardOne hs ..) _

end Homes

/-! ### The cleaner -/

namespace Cleaner
variable (h : Cleaner P)
include h

theorem setStage (hs : P s) (g : CleanStage) : P (s.setStage g) := h.cleaner _ _ _ hs

theorem setVictim (hs : P s) (v : Victim) : P (s.setVictim v) := h.cleaner _ _ _ hs

theorem victimEnd (hs : P s) (v : Victim) (after : BandState) : P (s.victimEnd v after) := by
  unfold State.victimEnd
  dsimp only
  split
  · exact h.finish (h.cleaner _ _ _ (h.cleaner _ _ _ hs)) ..
  · exact h.cleaner _ _ _ hs

theorem walkEnd (hs : P s) (v : Victim) : P (s.walkEnd v) := by
  unfold State.walkEnd
  split
  · split
    · exact h.setStage (h.setVictim hs _) _
    · exact h.victimEnd (h.raise (h.leave _ _ hs) ..) ..
  · exact hs

theorem handBatch (hs : P s) : P s.handBatch := by
  unfold State.handBatch
  split
  · exact h.enqueue (h.setVictim hs _) _
  · exact hs

theorem gatherBatch (hs : P s) (v : Victim) (bd : Band) : P (s.gatherBatch v bd) := by
  unfold State.gatherBatch
  dsimp only
  split
  · exact h.walkEnd hs _
  · exact h.handBatch (h.handOverAll (h.takeBuffer (h.setStage (h.setVictim hs _) _)) _)

theorem startBatch (hs : P s) : P s.startBatch := by
  unfold State.startBatch
  split
  · split
    · split
      · exact h.walkEnd hs _
      · split
        · split
          · exact h.setStage hs _
          · exact h.gatherBatch (h.spend hs) ..
        · exact h.gatherBatch hs ..
    · exact hs
  · exact hs

theorem judgeBatch (hs : P s) : P s.judgeBatch := by
  unfold State.judgeBatch
  split
  · dsimp only
    split
    · have hv := h.setVictim hs { ‹Victim› with batch := [] }
      split
      · exact h.walkEnd hv _
      · split
        · exact h.startBatch hv
        · exact h.setStage hv _
    · exact hs
  · exact hs

theorem copyPlaced (hs : P s) (src : Home) (v : Verdict) : P (s.copyPlaced src v) := by
  unfold State.copyPlaced
  repeat' first | exact hs | apply h.judgeBatch | apply h.setVictim | split

theorem cleanRunEnded (hs : P s) (slot : Nat) (f : BatchEntry → BatchEntry) : P (s.cleanRunEnded slot f) := by
  unfold State.cleanRunEnded
  repeat' first | exact hs | apply h.judgeBatch | apply h.handBatch | apply h.setVictim | split

theorem cleanReadDown (hs : P s) (slot place count : Nat) : P (s.cleanReadDown slot place count) := by
  unfold State.cleanReadDown
  split
  · exact h.setVictim hs _
  · exact hs

theorem reissueBatch (hs : P s) : P s.reissueBatch := by
  unfold State.reissueBatch
  split
  · exact h.handOverAll (h.setVictim hs _) _
  · exact hs

theorem cleDown (hs : P s) : P s.cleDown := by
  unfold State.cleDown
  refine h.finishAll ?_ ..
  exact h.cleaner _ _ _ hs

theorem cleQuiescing (hs : P s) : P s.cleQuiescing := by
  unfold State.cleQuiescing
  split
  · exact h.setStage hs _
  · exact hs

theorem takeVictim (he : ∀ {s : State} b, P s → P (s.enterCleaning b)) (hs : P s) (b : Nat) (origin : VictimOrigin)
    (tag : Option Nat) : P (s.takeVictim b origin tag) := h.startBatch (h.setVictim (he _ hs) _)

theorem ownChoice (he : ∀ {s : State} b, P s → P (s.enterCleaning b)) (hs : P s) (allowed : Bool) :
    P (s.ownChoice allowed) := by
  unfold State.ownChoice
  dsimp only
  repeat' first | exact hs | exact h.takeVictim he hs .. | apply h.raise | split

theorem choose (he : ∀ {s : State} b, P s → P (s.enterCleaning b)) (hs : P s) (own : Bool) (l : List (Nat × Nat)) :
    P (s.choose own l) := by
  induction l generalizing s with
  | nil => exact h.ownChoice he hs _
  | cons e es ih =>
    unfold State.choose
    repeat' first
      | exact h.takeVictim he hs .. | exact ih (h.finish (h.cleaner _ _ _ hs) ..) | split

end Cleaner

/-! ### The qualification engine -/

namespace Qual
variable (h : Qual P)
include h

theorem setQual (hs : P s) (q : Machine.Qual) : P (s.setQual q) := h.qen _ hs

theorem endQual (hs : P s) (q : Machine.Qual) (out : QualOutcome) : P (s.endQual q out) := by
  unfold State.endQual
  dsimp only
  refine h.qen _ ?_
  split
  · exact h.finish (h.raise (h.ends _ _ (h.qen _ hs)) ..) ..
  · exact h.raise (h.ends _ _ (h.qen _ hs)) ..

theorem queueQual (hs : P s) (q : Machine.Qual) (first count : Nat) : P (s.queueQual q first count) := by
  unfold State.queueQual
  refine h.handOver_write (h.setQual hs _) ?_ rfl
  unfold MediaOp.bandRead
  split <;> simp_all

theorem startTrackWrite (hs : P s) (q : Machine.Qual) : P (s.startTrackWrite q) := h.queueQual (h.qen _ hs) ..

theorem startTrackRead (hs : P s) (q : Machine.Qual) (k : Nat) : P (s.startTrackRead q k) := by
  induction k generalizing q with
  | zero => exact h.endQual hs ..
  | succ k ih =>
    unfold State.startTrackRead
    dsimp only
    split
    · exact ih _
    · exact h.queueQual hs ..

theorem qualWriteEnded (hs : P s) (q : Machine.Qual) : P (s.qualWriteEnded q) := by
  unfold State.qualWriteEnded
  dsimp only
  repeat' first | exact h.endQual hs .. | exact h.startTrackWrite hs _ | exact h.startTrackRead hs .. | split

theorem qualReadEnded (hs : P s) (q : Machine.Qual) : P (s.qualReadEnded q) := by
  unfold State.qualReadEnded
  dsimp only
  split
  · exact h.endQual hs ..
  · exact h.startTrackRead hs ..

theorem qualContinue (hs : P s) (q : Machine.Qual) (first count : Nat) : P (s.qualContinue q first count) := by
  unfold State.qualContinue
  split
  · exact h.endQual hs ..
  · exact h.queueQual hs ..

theorem qualOutcome (hs : P s) (o : MediaOp) (out : Outcome) : P (s.qualOutcome o out) := by
  unfold State.qualOutcome State.qualWriteOutcome State.qualReadOutcome State.qualReadUnserved State.qualFault
  repeat' first
    | exact hs | exact h.qualWriteEnded hs _ | exact h.qualReadEnded hs _ | exact h.qualContinue hs ..
    | exact h.endQual hs .. | exact h.setQual hs _ | split | dsimp only

theorem judgeQualStop (hs : P s) : P s.judgeQualStop := by
  unfold State.judgeQualStop
  repeat' first | exact hs | exact h.endQual (h.withdrawQual hs) .. | split

theorem stopQual (hs : P s) (tag : Option Nat) : P (s.stopQual tag) := by
  unfold State.stopQual
  dsimp only
  repeat' first | exact hs | exact h.setQual hs _ | exact h.endQual (h.setQual (h.withdrawQual hs) _) .. | split

theorem qualDown (hs : P s) : P s.qualDown := by
  unfold State.qualDown
  split
  · exact h.endQual hs ..
  · exact hs

theorem qualReset (hs : P s) : P s.qualReset := by
  unfold State.qualReset
  split
  · exact h.qen _ (h.ends _ _ hs)
  · exact hs

end Qual

/-! ### Work that crosses the blocks -/

namespace All
variable (h : All P)
include h

theorem pump' (n : Fin 9) : Pump P n := (h.frontier n).toPump

theorem mergeFold (hs : P s) (f : Fold) : P (s.mergeFold f) := (h.pump' _).enqueue (h.log _ hs) _

theorem judgeFold (hs : P s) (f : Fold) : P (s.judgeFold f) := by
  unfold State.judgeFold
  repeat' first | exact hs | exact h.mergeFold hs _ | exact h.log _ hs | exact h.foldEnd hs _ | split

theorem setFold (hs : P s) (f : Fold) : P (s.setFold f) := h.judgeFold (h.log _ hs) _

theorem foldRecordOutcome (hs : P s) (p : Nat) (out : Outcome) : P (s.foldRecordOutcome p out) := by
  unfold State.foldRecordOutcome State.foldRecordRead State.foldRecordLost State.foldRecordUnserved
  repeat' first | exact hs | apply h.setFold | apply h.giveUp | split

theorem foldHomeOutcome (hs : P s) (out : Outcome) : P (s.foldHomeOutcome out) := by
  unfold State.foldHomeOutcome State.foldHomeLost State.foldHomeEnded
  repeat' first | exact hs | apply h.setFold | apply h.lostReport | split

theorem cleanReadLost (hs : P s) (slot : Nat) : P (s.cleanReadLost slot) := by
  unfold State.cleanReadLost
  split
  · exact h.cleanRunEnded (h.lostReport hs ..) ..
  · exact hs

theorem cleanOutcome (hs : P s) (slot : Nat) (o : MediaOp) (x : Outcome) : P (s.cleanOutcome slot o x) := by
  unfold State.cleanOutcome
  split
  all_goals first
    | exact hs | exact h.cleanRunEnded hs .. | exact h.cleanReadLost hs _ | exact h.handOver hs _
    | exact h.cleanReadDown hs ..

theorem reportItem (hs : P s) (it : Item) (v : Verdict) : P (s.reportItem it v) := by
  unfold State.reportItem
  split
  all_goals first | exact hs | exact h.storeDone hs _ | exact h.foldPlaced hs _ | exact h.copyPlaced hs ..

theorem itemComplete (hs : P s) (n : Fin 9) (b w : Nat) (it : Item) : P (s.itemComplete n b w it) := by
  have hf := h.frontier n
  have hp := hf.moveFrontier (h.propose hs it ⟨b, w⟩) b (16 * (w + 1)) (some ((s.verdict it).slot it.lgn)) true
  have hx := hf.updStream hp (f := fun x => { x with exposed := x.exposed ++ [⟨w, it.lgn, it.content⟩] })
    fun _ => ⟨rfl, rfl⟩
  have hr := h.reportItem hx it (s.verdict it)
  unfold State.itemComplete
  dsimp only
  apply h.raiseEnded
  apply hf.goOn
  apply hf.capacityClose
  refine hf.updStream ?_ fun _ => ⟨rfl, rfl⟩
  apply hf.dropHead
  split
  · exact hr
  · exact h.placed hr

theorem runAdvanced (hs : P s) (n : Fin 9) (d : Nat) : P (s.runAdvanced n d) := by
  unfold State.runAdvanced
  split
  · dsimp only
    split
    · exact h.itemComplete hs ..
    · split
      · exact (h.pump' n).queueRun hs
      · exact (h.pump' n).queueRun ((h.frontier n).moveFrontier hs ..)
  · exact hs

theorem streamOutcome (hs : P s) (n : Fin 9) (o : MediaOp) (x : Outcome) : P (s.streamOutcome n o x) := by
  have hf := h.frontier n
  unfold State.streamOutcome
  split
  all_goals first
    | exact h.runAdvanced hs .. | exact hf.runStopped hs _ | exact hf.writeFault hs _
    | exact hf.downHead (hf.abortRound hs _) | exact hf.abortRound hs _

theorem ownerOutcome (hs : P s) (o : MediaOp) (out : Outcome) : P (s.ownerOutcome o out) := by
  unfold State.ownerOutcome
  split
  · exact h.fetchOutcome hs ..
  · exact h.fetchOutcome hs ..
  · exact h.streamOutcome hs ..
  · exact h.stagedOutcome hs ..
  · exact h.foldRecordOutcome hs ..
  · exact h.foldHomeOutcome hs _
  · exact h.cleanOutcome hs ..
  · exact h.qualOutcome hs ..

theorem reportOutcome (hs : P s) (o : MediaOp) (out : Outcome) : P (s.reportOutcome o out) := by
  unfold State.reportOutcome
  refine h.ownerOutcome ?_ ..
  split
  · exact hs
  · exact h.endReaders hs _

theorem reportAll (hs : P s) (os : List MediaOp) (out : Outcome) : P (s.reportAll os out) := by
  unfold State.reportAll
  exact foldl (P := P) (fun k o => h.reportOutcome k ..) hs _

theorem startDiscard (hs : P s) (e : Entry) : P (s.startDiscard e) := h.finish (h.discardRange hs ..) ..

theorem handToOwner (hs : P s) (e : Entry) : P (s.handToOwner e) := by
  unfold State.handToOwner
  repeat' first
    | exact takeStore h.pump' hs e | exact h.takePartial hs e | exact h.startFetch hs e | exact h.startDiscard hs e
    | split

theorem release (hs : P s) (why : HoldReason) {take : State → Entry → State}
    (ht : ∀ {s : State}, P s → ∀ e, P (take s e)) : P (s.release why take) := by
  unfold State.release State.releaseEach
  refine foldl (P := P) (fun k t => ?_) (foldl (P := P) (fun k t => h.unhold k t) hs _) _
  split
  · exact ht k _
  · exact k

end All

end Kept

end Sys2Proof.Machine
end

section
namespace Sys2Proof.Machine

namespace Kept
variable {P : State → Prop} {s : State} {n : Fin 9}

/-! ### Properties that do not read the band table -/

/-- `P` survives any change of the band table. -/
abbrev BandBlind (P : State → Prop) : Prop := ∀ {s : State} (x : Btu), P s → P { s with btu := x }

theorem closeBand (hb : BandBlind P) (hs : P s) (b : Nat) (why : CloseReason) : P (s.closeBand b why) := by
  unfold State.closeBand
  split
  · split
    · exact hb _ (hb _ hs)
    · exact hs
  · exact hs

namespace Base
variable (h : Base P) (hb : BandBlind P)
include h hb

theorem grantBand (hw : ∀ {s : State} x, P s → P { s with swr := x }) (hs : P s) (n : Fin 9) (b : Nat) (spill : Bool) :
    P (s.grantBand n b spill) := by
  unfold State.grantBand
  dsimp only
  apply h.judgePressureOn fun _ => hb _
  split
  · exact hw _ (hb _ (h.raise hs ..))
  · exact hw _ (hb _ hs)

theorem grantOpen (hw : ∀ {s : State} x, P s → P { s with swr := x }) (hs : P s) : P (s.grantOpen n) := by
  unfold State.grantOpen
  split
  · exact h.grantBand hb hw hs ..
  · exact hs

theorem endQualifying (hs : P s) (b : Nat) (out : QualOutcome) : P (s.endQualifying b out) := by
  unfold State.endQualifying
  split
  · split
    · split
      · exact h.judgePressureOff (fun _ => hb _) (hb _ hs)
      · exact h.raise (hb _ hs) ..
      · dsimp only
        split
        · exact h.judgePressureOff (fun _ => hb _) (hb _ hs)
        · exact hb _ hs
    · exact hs
  · exact hs

theorem enterQualifying (hs : P s) (bd : Band) : P (s.enterQualifying bd) := by
  unfold State.enterQualifying
  dsimp only
  split
  · exact h.judgePressureOn (fun _ => hb _) (hb _ hs)
  · exact hb _ hs

theorem resetBand (hs : P s) (bd : Band) : P (s.resetBand bd) := by
  unfold State.resetBand
  dsimp only
  split
  · exact h.raise (hb _ (hb _ hs)) ..
  · exact h.judgePressureOff (fun _ => hb _) (hb _ (hb _ hs))

theorem unrecoveredReport (hs : P s) (b : Nat) : P (s.unrecoveredReport b) := by
  unfold State.unrecoveredReport
  split
  · split
    · split
      · exact h.raise (hb _ hs) ..
      · exact hb _ hs
    · exact hs
  · exact hs

/-- A property that reads neither the band table nor the streams is kept by the streams' work. -/
theorem frontier (hw : ∀ {s : State} x, P s → P { s with swr := x }) (n : Fin 9) : Frontier P n :=
  { h with
    stream := fun _ _ _ => hw _
    wait := fun _ => hb _
    grant := h.grantOpen hb hw
    place := fun _ _ => hw _
    report := fun _ _ _ => hb _
    close := fun b why hs => closeBand hb hs b why
    serial := fun _ => hw _ }

end Base

theorem supersede (hb : BandBlind P) (hs : P s) (x : Option Home) : P (s.supersede x) := by
  unfold State.supersede
  split
  · exact hb _ hs
  · exact hs

end Kept

/-! ### The pacer -/

/-- The pacer's reload and count are at most a bound. -/
abbrev State.PacerBelow (m : Nat) (s : State) : Prop := s.cle.pacer.reload ≤ m ∧ s.cle.pacer.count ≤ m

theorem Pacer.countDown_le {m : Nat} {p : Pacer} (h : p.reload ≤ m ∧ p.count ≤ m) :
    p.countDown.reload ≤ m ∧ p.countDown.count ≤ m := by
  unfold Pacer.countDown
  split
  · exact ⟨h.1, h.1⟩
  · exact ⟨h.1, (Nat.sub_le ..).trans h.2⟩

theorem Pacer.decrease_le {m : Nat} {p : Pacer} (h : p.reload ≤ m ∧ p.count ≤ m) (x : PacerMode) :
    (p.decrease x).reload ≤ m ∧ (p.decrease x).count ≤ m := by
  unfold Pacer.decrease
  split
  · exact p.countDown_le h
  · exact h

theorem State.PacerBelow.base (m : Nat) : Kept.Base (State.PacerBelow m) where
  outbound := fun _ h => h
  requests := fun _ _ h => h
  events := fun _ _ h => h
  queues := fun _ _ _ h => h
  buffers := fun _ h => h

/-- The blocks' work keeps the pacer's count below its bound. -/
theorem State.PacerBelow.all (m : Nat) : Kept.All (State.PacerBelow m) :=
  { base m, (base m).frontier (fun _ h => h) (fun _ h => h) relocation with
    log := fun _ h => h
    map := fun _ h => h
    readStart := fun _ h => h
    readEnd := fun _ h => h
    supersede := fun x h => Kept.supersede (fun _ h => h) h x
    watch := fun _ _ h => h
    cleaner := fun _ _ _ h => h
    spend := fun h => h
    leave := fun _ _ h => h
    qen := fun _ h => h
    ends := fun b out h => (base m).endQualifying (fun _ h => h) h b out
    frontier := (base m).frontier (fun _ h => h) fun _ h => h
    placed := fun h => Pacer.decrease_le h _ }

end Sys2Proof.Machine
end

section
namespace Sys2Proof.Machine

/-! ### Decoded frames are well formed (R164, R195) -/

theorem leValue_lt (bs : List Byte) : leValue bs < 256 ^ bs.length := by
  induction bs with
  | nil => simp [leValue]
  | cons b bs ih =>
    have := b.isLt
    rw [leValue, List.length_cons, Nat.pow_succ]
    omega

theorem fieldAt_lt (bs : List Byte) (off n : Nat) : fieldAt bs off n < 256 ^ n :=
  (leValue_lt _).trans_le (Nat.pow_le_pow_right (by decide) (by simp))

theorem fits_fieldAt (bs : List Byte) (off n : Nat) : fits n (fieldAt bs off n) = true := by
  simpa [fits] using fieldAt_lt bs off n

theorem length_of_mem_pieces {size n : Nat} {bs x : List Byte} (hbs : size * n ≤ bs.length) (hx : x ∈ pieces size n bs) :
    x.length = size := by
  induction n generalizing bs with
  | zero => simp [pieces] at hx
  | succ n ih =>
    rw [Nat.mul_succ] at hbs
    rcases List.mem_cons.1 hx with rfl | hx
    · simp; omega
    · exact ih (by simp; omega) hx

theorem fits_zoneOfBytes (bs : List Byte) : (ZoneDesc.ofBytes bs).fits = true := by
  simp [ZoneDesc.fits, ZoneDesc.ofBytes, fits_fieldAt]

theorem fits_leValue {n : Nat} {bs : List Byte} (h : bs.length = n) : fits n (leValue bs) = true := by
  simpa [fits, h] using leValue_lt bs

/-- A body that decodes gives a well-formed request (R164). -/
theorem decodeRequest_wf {code tag : Nat} {body : List Byte} {i : Instr} (ht : fits 1 tag = true)
    (hn : body.length ≤ Config.bodyLimit) (h : decodeRequest code tag body = some i) : i.wf = true := by
  have hf := fits_fieldAt body
  unfold decodeRequest at h
  split at h <;> dsimp only at h
  case h_1 =>
    split at h
    · rename_i hb
      obtain rfl := Option.some.inj h
      have hp : ∀ x ∈ pieces 4096 ((body.length - 8) / 4096) (body.drop 8), sectorOk x = true := fun x hx => by
        rw [sectorOk, length_of_mem_pieces (by simp; omega) hx]; rfl
      simp only [Instr.wf, ht, hf, length_pieces, Bool.and_eq_true, List.all_eq_true]
      exact ⟨⟨by trivial, by simpa using hb.2.2⟩, hp⟩
    · cases h
  case h_15 =>
    split at h
    · split at h
      case h_12 =>
        obtain rfl := Option.some.inj h
        simp only [imp_false] at *
        have : fieldAt body 0 1 = 0 ∨ 12 ≤ fieldAt body 0 1 := by omega
        simp [Instr.wf, ht, hf, this]
      all_goals
        obtain rfl := Option.some.inj h
        simp [Instr.wf, ht, hf]
    · cases h
  case h_16 =>
    split at h
    · rename_i hb
      obtain rfl := Option.some.inj h
      have hr : ∀ x ∈ pieces 4 (fieldAt body 6 2) (body.drop (16 + 16 * fieldAt body 5 1)), fits 4 (leValue x) = true :=
        fun x hx => fits_leValue (length_of_mem_pieces (by simp; omega) hx)
      have h5 := fieldAt_lt body 5 1
      have h6 := fieldAt_lt body 6 2
      simp only [Instr.wf, ht, hf, AreaDesc.fits, List.length_map, length_pieces, List.all_map, Bool.and_eq_true,
        List.all_eq_true, Function.comp_apply, fits_zoneOfBytes, decide_eq_true_eq, implies_true, true_and]
      exact ⟨⟨⟨by simpa using h5, hr⟩, by simpa using h6⟩, by omega⟩
    · cases h
  case h_20 =>
    split at h
    · rename_i hb
      obtain rfl := Option.some.inj h
      simp [Instr.wf, ht, hf, hb, Config.chunkBytes]
    · cases h
  all_goals first
    | cases h
    | split at h
      · obtain rfl := Option.some.inj h
        simp [Instr.wf, ht, hf]
      · cases h

/-- A good frame is a well-formed request, or one refused BAD_REQUEST (R164). -/
theorem takeFrame_good_wf {bs rest : List Byte} {i : Instr} (h : takeFrame bs = .good i rest) : i.wf = true := by
  unfold takeFrame at h
  dsimp only at h
  repeat' split at h
  all_goals cases h
  unfold goodFrame
  split
  · simp [Instr.wf, fits_fieldAt]
  · split
    · rename_i hd
      exact decodeRequest_wf (fits_fieldAt ..) (by simp; omega) hd
    · simp [Instr.wf, fits_fieldAt]

end Sys2Proof.Machine
end

section
namespace Sys2Proof.Machine

/-! ### The counters, one by one -/

/-- The ranges of the counters, each a field of its own. -/
structure State.Counters (s : State) : Prop where
  failures : s.mpt.failures ≤ 3
  orderNo : 1 ≤ s.mpt.orderNo ∧ s.mpt.orderNo ≤ Config.orderNumberMax
  nextId : 1 ≤ s.har.nextId ∧ s.har.nextId ≤ Config.opIdMax
  skips : ∀ c ∈ allClasses, s.har.skip c ≤ Config.skipLimit
  credits : s.cle.pacer.credits ≤ creditLimit
  reload : 1 ≤ s.cle.pacer.reload
  count : 1 ≤ s.cle.pacer.count
  threshold : s.cle.threshold ≤ 1024
  holdTimeout : 100 ≤ s.rqu.holdTimeout ∧ s.rqu.holdTimeout ≤ 60000
  entries : s.rqu.entries.length ≤ Config.entryLimit
  admission : s.rqu.admission < 2 ^ 64
  errors : s.flu.errors ≤ 65535
  sequence : s.gmu.sequence ≤ Config.counterMax
  closeOrder : s.btu.closeOrder ≤ Config.counterMax
  qual : ∀ q ∈ s.qen.qual, q.errors ≤ 65535
  op : ∀ o ∈ s.mpt.op, o.CountsInRange
  queued : ∀ c ∈ allClasses, ∀ o ∈ s.har.queue c, o.CountsInRange
  watchQueue : s.evu.watchQueue.length ≤ Config.watchQueueLimit

theorem State.countersInRange_iff (s : State) : s.CountersInRange ↔ s.Counters :=
  ⟨fun ⟨a, b, c, d, e, f, g, h, i, j, k, l, m, n, o, p, q, r⟩ => ⟨a, b, c, d, e, f, g, h, i, j, k, l, m, n, o, p, q, r⟩,
    fun ⟨a, b, c, d, e, f, g, h, i, j, k, l, m, n, o, p, q, r⟩ =>
      ⟨a, b, c, d, e, f, g, h, i, j, k, l, m, n, o, p, q, r⟩⟩

/-- What every step keeps: sound band records, counters in range, and, where `p` holds, the pacer in range. -/
structure State.Keeps (p : Prop) (s t : State) : Prop where
  bands : s.BandsSound → t.BandsSound
  counters : s.Counters → t.Counters
  pacer : p → s.PacerInRange → t.PacerInRange

namespace State.Keeps
variable {p q : Prop} {r s t u : State}

theorem refl (p : Prop) (s : State) : Keeps p s s := ⟨id, id, fun _ => id⟩

theorem trans (h : Keeps p s t) (k : Keeps p t u) : Keeps p s u :=
  ⟨fun x => k.bands (h.bands x), fun x => k.counters (h.counters x), fun y x => k.pacer y (h.pacer y x)⟩

theorem of_pacer (h : Keeps q s t) (hq : p → s.PacerInRange → q) : Keeps p s t :=
  ⟨h.bands, h.counters, fun x y => h.pacer (hq x y) y⟩

/-- The work of the blocks, the pacer's bound kept. -/
theorem work (h : BlockWork s t) (hp : s.PacerBelow 65535 → t.PacerBelow 65535) : Keeps p s t where
  bands := h.bands
  counters := fun c =>
    { failures := h.mpt ▸ c.failures, orderNo := h.mpt ▸ c.orderNo, nextId := h.nextId c.nextId
      skips := h.skips c.skips, credits := h.credits c.credits, reload := h.reload ▸ c.reload
      count := h.count c.reload c.count, threshold := h.threshold ▸ c.threshold
      holdTimeout := h.holdTimeout ▸ c.holdTimeout, entries := h.entries.trans c.entries
      admission := h.admission ▸ c.admission, errors := h.errors ▸ c.errors, sequence := h.sequence ▸ c.sequence
      closeOrder := h.closeOrder c.closeOrder, qual := h.qualErrors c.qual, op := h.mpt ▸ c.op
      queued := h.opCounts c.queued, watchQueue := h.watchQueue c.watchQueue }
  pacer := fun _ ⟨hr, hc, hw⟩ =>
    ⟨⟨h.reload ▸ hr.1, (hp ⟨hr.2, hc.2⟩).1⟩, ⟨h.count hr.1 hc.1, (hp ⟨hr.2, hc.2⟩).2⟩, h.waiting ▸ hw⟩

/-! ### Changes of one record outside the blocks' work -/

theorem of_mpt (h : Keeps p r s) (m : Mpt) (hf : r.Counters → m.failures ≤ 3)
    (ho : s.Counters → 1 ≤ m.orderNo ∧ m.orderNo ≤ Config.orderNumberMax)
    (hop : r.Counters → ∀ o ∈ m.op, o.CountsInRange) : Keeps p r { s with mpt := m } where
  bands := h.bands
  counters := fun c => { h.counters c with failures := hf c, orderNo := ho (h.counters c), op := hop c }
  pacer := h.pacer

theorem of_ctl (h : Keeps p r s) (x : Ctl) : Keeps p r { s with ctl := x } where
  bands := h.bands
  counters := fun c => { h.counters c with }
  pacer := h.pacer

theorem of_wire (h : Keeps p r s) (a : Assembler) (b : List Byte) (o : List OutFrame) (w : List (List Byte)) :
    Keeps p r { s with flu := { s.flu with assembler := a, held := b, outbound := o, wire := w } } where
  bands := h.bands
  counters := fun c => { h.counters c with }
  pacer := h.pacer

theorem of_errors (h : Keeps p r s) (n : Nat) (hn : n ≤ 65535) : Keeps p r { s with flu := { s.flu with errors := n } } where
  bands := h.bands
  counters := fun c => { h.counters c with errors := hn }
  pacer := h.pacer

theorem of_waiting (h : Keeps p r s) (a : Assembler) (b : List Byte) (l : List Instr)
    (hl : p → r.PacerInRange → s.PacerInRange → ∀ i ∈ l, i.wf = true) :
    Keeps p r { s with flu := { s.flu with assembler := a, held := b, waiting := l } } where
  bands := h.bands
  counters := fun c => { h.counters c with }
  pacer := fun x y => ⟨(h.pacer x y).1, (h.pacer x y).2.1, hl x y (h.pacer x y)⟩

theorem of_har (h : Keeps p r s) (x : Har) (hi : s.Counters → 1 ≤ x.nextId ∧ x.nextId ≤ Config.opIdMax)
    (hs : s.Counters → ∀ c ∈ allClasses, x.skip c ≤ Config.skipLimit)
    (ho : r.Counters → s.Counters → ∀ c ∈ allClasses, ∀ o ∈ x.queue c, o.CountsInRange) :
    Keeps p r { s with har := x } where
  bands := h.bands
  counters := fun c =>
    { h.counters c with nextId := hi (h.counters c), skips := hs (h.counters c), queued := ho c (h.counters c) }
  pacer := h.pacer

theorem of_rqu (h : Keeps p r s) (x : Rqu)
    (hx : s.Counters → (100 ≤ x.holdTimeout ∧ x.holdTimeout ≤ 60000) ∧ x.entries.length ≤ Config.entryLimit
      ∧ x.admission < 2 ^ 64) : Keeps p r { s with rqu := x } where
  bands := h.bands
  counters := fun c =>
    have k := hx (h.counters c)
    { h.counters c with holdTimeout := k.1, entries := k.2.1, admission := k.2.2 }
  pacer := h.pacer

theorem of_gmu (h : Keeps p r s) (x : Gmu) (hx : s.Counters → x.sequence ≤ Config.counterMax) :
    Keeps p r { s with gmu := x } where
  bands := h.bands
  counters := fun c => { h.counters c with sequence := hx (h.counters c) }
  pacer := h.pacer

theorem of_btu (h : Keeps p r s) (x : Btu) (hb : s.BandsSound → State.BandsSound { s with btu := x })
    (hc : s.Counters → x.closeOrder ≤ Config.counterMax) : Keeps p r { s with btu := x } where
  bands := fun y => hb (h.bands y)
  counters := fun c => { h.counters c with closeOrder := hc (h.counters c) }
  pacer := h.pacer

theorem of_swr (h : Keeps p r s) (x : Swr) : Keeps p r { s with swr := x } where
  bands := h.bands
  counters := fun c => { h.counters c with }
  pacer := h.pacer

theorem of_slu (h : Keeps p r s) (x : Slu) : Keeps p r { s with slu := x } where
  bands := h.bands
  counters := fun c => { h.counters c with }
  pacer := h.pacer

theorem of_qen (h : Keeps p r s) (x : Qen) (hx : s.Counters → ∀ q ∈ x.qual, q.errors ≤ 65535) :
    Keeps p r { s with qen := x } where
  bands := h.bands
  counters := fun c => { h.counters c with qual := hx (h.counters c) }
  pacer := h.pacer

theorem of_residue (h : Keeps p r s) (n : Nat) : Keeps p r { s with residue := n } where
  bands := h.bands
  counters := fun c => { h.counters c with }
  pacer := h.pacer

theorem of_evu (h : Keeps p r s) (x : Evu)
    (hx : s.Counters → x.watchQueue.length ≤ Config.watchQueueLimit) : Keeps p r { s with evu := x } where
  bands := h.bands
  counters := fun c => { h.counters c with watchQueue := hx (h.counters c) }
  pacer := h.pacer

/-- The cleaner's record replaced, its pacer in range. -/
theorem of_cle (h : Keeps p r s) (x : Cle) (hc : s.Counters → x.pacer.credits ≤ creditLimit)
    (hlow : 1 ≤ s.cle.pacer.reload → 1 ≤ s.cle.pacer.count → 1 ≤ x.pacer.reload ∧ 1 ≤ x.pacer.count)
    (ht : s.Counters → x.threshold ≤ 1024)
    (hp : p → s.PacerBelow 65535 → x.pacer.reload ≤ 65535 ∧ x.pacer.count ≤ 65535) :
    Keeps p r { s with cle := x } where
  bands := h.bands
  counters := fun c =>
    have k := h.counters c
    { k with credits := hc k, reload := (hlow k.reload k.count).1, count := (hlow k.reload k.count).2, threshold := ht k }
  pacer := fun y z =>
    have ⟨hr, hn, hw⟩ := h.pacer y z
    have k := hp y ⟨hr.2, hn.2⟩
    have l := hlow hr.1 hn.1
    ⟨⟨l.1, k.1⟩, ⟨l.2, k.2⟩, hw⟩

end State.Keeps

end Sys2Proof.Machine
end

section
namespace Sys2Proof.Machine

/-! ### What the port's steps and the reset keep -/

theorem nextOrderNo_range (n : Nat) (h : 1 ≤ n ∧ n ≤ Config.orderNumberMax) :
    1 ≤ nextOrderNo n ∧ nextOrderNo n ≤ Config.orderNumberMax := by
  unfold nextOrderNo
  split <;> omega

theorem Har.queue_emptied (x : Har) (c : Cls) : x.emptied.queue c = [] := by
  cases c <;> rfl

theorem Har.skip_emptied (x : Har) (c : Cls) : x.emptied.skip c = 0 := by
  cases c <;> rfl

namespace State.Keeps
variable {p : Prop} {r s t : State} (h : Keeps p r s)
include h

/-! #### The blocks' work -/

theorem then_work (hw : BlockWork s t) (hp : s.PacerBelow 65535 → t.PacerBelow 65535) : Keeps p r t :=
  h.trans (work hw hp)

theorem push (f : OutFrame) : Keeps p r (s.push f) := h.then_work (State.push_work (.refl _) f) id

theorem reply (code tag : Nat) (c : Bool) (st : Status) (fs : List Field) : Keeps p r (s.reply code tag c st fs) :=
  h.push _

theorem finish (tag : Nat) (st : Status) (fs : List Field) : Keeps p r (s.finish tag st fs) :=
  h.then_work (State.finish_work (.refl _) ..) fun k => (PacerBelow.base _).finish k ..

theorem updEntry (tag : Nat) (f : Entry → Entry) : Keeps p r (s.updEntry tag f) :=
  h.then_work (State.updEntry_work (.refl _) ..) id

theorem raise (e : EventFlag) (d : Nat) : Keeps p r (s.raise e d) :=
  h.then_work (State.raise_work (.refl _) ..) fun k => (PacerBelow.base _).raise k ..

theorem reportOutcome (o : MediaOp) (out : Outcome) : Keeps p r (s.reportOutcome o out) :=
  h.then_work (State.reportOutcome_work (.refl _) ..) fun k => (PacerBelow.all _).reportOutcome k ..

theorem reportAll (os : List MediaOp) (out : Outcome) : Keeps p r (s.reportAll os out) :=
  h.then_work (State.reportAll_work (.refl _) ..) fun k => (PacerBelow.all _).reportAll k ..

theorem raiseEnded (rs : List Recovery) : Keeps p r (s.raiseEnded rs) :=
  h.then_work (State.raiseEnded_work (.refl _) ..) fun k => (PacerBelow.base _).raiseEnded k ..

theorem pumpAll : Keeps p r s.pumpAll :=
  h.then_work (State.pumpAll_work (.refl _)) fun k => Kept.pumpAll (PacerBelow.all _).pump' k

theorem swrDown : Keeps p r s.swrDown :=
  h.then_work (State.swrDown_work (.refl _)) fun k => Kept.swrDown (PacerBelow.all _).pump' k

theorem sluDown (reqs : List FoldReq) : Keeps p r (s.sluDown reqs) :=
  h.then_work (State.sluDown_work (.refl _) _) fun k => (PacerBelow.all _).sluDown k _

theorem cleDown : Keeps p r s.cleDown :=
  h.then_work (State.cleDown_work (.refl _)) fun k => (PacerBelow.all _).cleDown k

theorem qualDown : Keeps p r s.qualDown :=
  h.then_work (State.qualDown_work (.refl _)) fun k => (PacerBelow.all _).qualDown k

theorem swrReset : Keeps p r s.swrReset :=
  h.then_work (State.swrReset_work (.refl _)) fun k => Kept.swrReset (PacerBelow.all _).pump' k

theorem sluReset : Keeps p r s.sluReset :=
  h.then_work (State.sluReset_work (.refl _)) fun k => (PacerBelow.all _).sluReset k

theorem qualReset : Keeps p r s.qualReset :=
  h.then_work (State.qualReset_work (.refl _)) fun k => (PacerBelow.all _).qualReset k

theorem judgeQualStop : Keeps p r s.judgeQualStop :=
  h.then_work (State.judgeQualStop_work (.refl _)) fun k => (PacerBelow.all _).judgeQualStop k

theorem reissueBatch : Keeps p r s.reissueBatch :=
  h.then_work (State.reissueBatch_work (.refl _)) fun k => (PacerBelow.all _).reissueBatch k

theorem reportUnrecovered (o : MediaOp) : Keeps p r (s.reportUnrecovered o) := by
  unfold State.reportUnrecovered
  split
  · exact h.then_work (State.unrecoveredReport_work (.refl _) _) fun k =>
      (PacerBelow.base _).unrecoveredReport (fun _ z => z) k _
  · exact h

/-! #### The port -/

theorem sendOrder (o : MediaOrder) : Keeps p r (s.sendOrder o) :=
  h.of_mpt _ (fun c => (h.counters c).failures) (fun c => nextOrderNo_range _ c.orderNo) fun c => (h.counters c).op

theorem setOp {o : MediaOp} {stage : PortStage} (ho : r.Counters → o.CountsInRange) :
    Keeps p r { s with mpt := { s.mpt with stage := stage, op := some o } } :=
  h.of_mpt _ (fun c => (h.counters c).failures) (fun c => c.orderNo) fun c => by simpa using ho c

theorem issue {o : MediaOp} (ho : r.Counters → o.CountsInRange) : Keeps p r (s.issue o) :=
  h.of_mpt _ (fun c => (h.counters c).failures) (fun c => nextOrderNo_range _ c.orderNo) fun c => by simpa using ho c

theorem portIdle : Keeps p r s.portIdle :=
  h.of_mpt _ (fun c => (h.counters c).failures) (fun c => c.orderNo) fun _ _ ho => nomatch ho

theorem countSuccess : Keeps p r s.countSuccess :=
  h.of_mpt _ (fun _ => Nat.zero_le _) (fun c => c.orderNo) fun c => (h.counters c).op

theorem countFailure (x : Cause) : Keeps p r (s.countFailure x) :=
  h.of_mpt _ (fun _ => Nat.min_le_right _ _) (fun c => c.orderNo) fun c => (h.counters c).op

theorem endOp (o : MediaOp) (out : Outcome) : Keeps p r (s.endOp o out) := h.portIdle.reportOutcome ..

theorem requeueHead {o : MediaOp} (ho : r.Counters → o.CountsInRange) : Keeps p r (s.requeueHead o) := by
  refine h.of_har _ (fun c => c.nextId) (fun c d hd => ?_) fun c k d hd => ?_
  · rw [Har.skip_setQueue]
    split
    · exact Nat.zero_le _
    · exact c.skips d hd
  · rw [Har.queue_setQueue]
    split
    · exact List.forall_mem_cons.2 ⟨ho c, k.queued _ (Cls.mem_all _)⟩
    · exact k.queued d hd

theorem stopOp {o : MediaOp} (ho : r.Counters → o.CountsInRange) : Keeps p r (s.stopOp o) := by
  have hq := (h.endOp o .stopped).requeueHead (o := o.remainder) fun c => ⟨Nat.zero_le _, (ho c).2⟩
  unfold State.stopOp
  dsimp only
  split
  · exact hq.judgeQualStop
  · exact hq

theorem latchDown : Keeps p r s.latchDown :=
  (h.of_mpt { s.mpt with latched := s.mpt.latched ||| s.mpt.causes } (fun c => (h.counters c).failures)
    (fun c => c.orderNo) fun c => (h.counters c).op).raise ..

theorem portDown (o : MediaOp) : Keeps p r (s.portDown o) := by
  have hm := h.of_mpt { s.mpt with up := false, stage := .idle, op := none } (fun c => (h.counters c).failures)
    (fun c => c.orderNo) fun _ _ ho => nomatch ho
  have hh := hm.of_har s.har.emptied (fun c => c.nextId) (fun _ c _ => by simp [Har.skip_emptied])
    fun _ _ c _ => by simp [Har.queue_emptied]
  have hs := hh.of_slu { s.slu with foldReqs := [] }
  exact (((((((hs.reportOutcome ..).reportAll ..).swrDown.raiseEnded _).sluDown _).cleDown).qualDown).latchDown).pumpAll

theorem failOp (o : MediaOp) (x : Cause) (out : Outcome) : Keeps p r (s.failOp o x out) := by
  unfold State.failOp
  dsimp only
  split
  · exact (h.countFailure x).portDown o
  · exact (h.countFailure x).endOp ..

theorem portUp : Keeps p r s.portUp := by
  have hm := h.of_mpt { s.mpt with up := true, stage := .idle, op := none, restartTag := none, failures := 0, causes := 0 }
    (fun _ => Nat.zero_le _) (fun c => c.orderNo) fun _ _ ho => nomatch ho
  unfold State.portUp
  dsimp only
  split
  · exact (hm.finish ..).pumpAll.reissueBatch
  · exact hm.pumpAll.reissueBatch

theorem probeFailed : Keeps p r s.probeFailed := by
  have hm := h.of_mpt { s.mpt with stage := .idle, restartTag := none } (fun c => (h.counters c).failures)
    (fun c => c.orderNo) fun c => (h.counters c).op
  unfold State.probeFailed
  dsimp only
  split
  · exact hm.finish ..
  · exact hm

theorem mptTakesReset : Keeps p r s.mptTakesReset :=
  h.of_mpt _ (fun _ => Nat.zero_le _) (fun c => c.orderNo) fun _ _ ho => nomatch ho

theorem keepSending (l : List OutFrame) : Keeps p r (s.keepSending l) := h.of_wire _ _ _ _

theorem resetReply (w : ResetWait) : Keeps p r (s.resetReply w) := (h.of_ctl _).reply ..

theorem resetAborted (o : MediaOp) (w : ResetWait) (l : List OutFrame) : Keeps p r (s.resetAborted o w l) :=
  (((h.mptTakesReset.reportOutcome o .aborted).pumpAll).keepSending l).resetReply w

theorem completeOp (o : MediaOp) : Keeps p r (s.completeOp o) := h.countSuccess.endOp ..

theorem finishRun {o : MediaOp} (ho : r.Counters → o.CountsInRange) (a : Answer) : Keeps p r (s.finishRun o a) := by
  unfold State.finishRun
  split
  case h_1 => exact h.completeOp o
  case h_2 => exact h.stopOp ho
  case h_3 =>
    unfold State.readUnrecovered
    dsimp only
    split
    · rename_i hr
      exact (h.reportUnrecovered o).issue fun c => ⟨(ho c).1, hr⟩
    · exact (h.reportUnrecovered o).endOp ..
  case h_4 => exact h.endOp ..
  case h_5 =>
    unfold State.servoLost
    split
    · exact h.failOp ..
    · exact h.issue ho

theorem timedOut {o : MediaOp} (ho : r.Counters → o.CountsInRange) : Keeps p r (s.timedOut o) := by
  unfold State.timedOut
  split
  · exact h.endOp ..
  split
  · exact h.endOp ..
  split
  · rename_i hr
    exact h.issue fun c => ⟨(ho c).1, hr⟩
  · exact h.endOp ..

theorem abortAnswered {o : MediaOp} (ho : r.Counters → o.CountsInRange) (a : Answer) (d : Nat) :
    Keeps p r (s.abortAnswered o a d) := by
  have hs : Keeps p r (if a = .unrecovered then s.reportUnrecovered o else s) := by
    split
    · exact h.reportUnrecovered o
    · exact h
  unfold State.abortAnswered
  dsimp only
  split
  · exact hs.resetAborted ..
  · unfold State.finishAbort
    split
    · exact hs.completeOp o
    · exact hs.timedOut ho

theorem finishOp {o : MediaOp} (ho : r.Counters → o.CountsInRange) (a : Answer) (done x : Nat) :
    Keeps p r (s.finishOp o a done x) := by
  have hc : Keeps p r (s.claim o) := h.setOp fun c => ⟨Nat.zero_le _, (ho c).2⟩
  unfold State.finishOp
  dsimp only
  cases s.mpt.stage with
  | claiming =>
    refine hc.finishRun ?_ _
    exact fun c => ⟨Nat.zero_le _, (ho c).2⟩
  | running =>
    refine h.finishRun ?_ _
    exact ho
  | aborting => exact h.abortAnswered ho ..
  | idle => exact h
  | deferred => exact h
  | probing => exact h

theorem abortUnanswered (o : MediaOp) : Keeps p r (s.abortUnanswered o) := by
  unfold State.abortUnanswered
  split
  · exact h.resetAborted ..
  · split
    · exact h.failOp ..
    · exact h.failOp ..

/-! #### RESET -/

theorem cleReset : Keeps p r s.cleReset := by
  have hl : Keeps p r (match s.cle.victim with
      | some v => s.leaveCleaning v.band false
      | none => s) := by
    split
    · exact h.then_work (State.leaveCleaning_work (.refl _) ..) id
    · exact h
  exact hl.of_cle _ (fun _ => Nat.zero_le _) (fun k _ => ⟨k, k⟩) (fun _ => (by decide : 512 ≤ 1024)) fun _ k => ⟨k.1, k.1⟩

theorem mptReset : Keeps p r s.mptReset := by
  unfold State.mptReset
  split
  · have ha : Keeps p r (if s.mpt.stage = .aborting then s else s.sendAbort) := by
      split
      · exact h
      · exact h.sendOrder _
    exact ha.of_mpt _ (fun c => (ha.counters c).failures) (fun c => c.orderNo) fun c => (ha.counters c).op
  · exact h.mptTakesReset

theorem ctlReset : Keeps p r s.ctlReset := (h.of_evu {} fun _ => Nat.zero_le _).of_ctl _

theorem resetBlocks : Keeps p r s.resetBlocks := by
  have hr := h.of_rqu s.rqu.resetRequest fun c =>
    ⟨(by decide : 100 ≤ 2000 ∧ 2000 ≤ 60000), Nat.zero_le _, c.admission⟩
  have hh := hr.of_har { s.har.emptied with mask := {} } (fun c => c.nextId)
    (fun _ c _ => (Har.skip_emptied s.har c).trans_le (Nat.zero_le _))
    fun _ _ c _ o ho => nomatch (Har.queue_emptied s.har c) ▸ ho
  have hb := hh.of_btu { s.btu with openWait := [] } id fun c => c.closeOrder
  exact ((((hb.mptReset.reportAll _ .aborted).swrReset.sluReset).cleReset.qualReset).ctlReset).pumpAll

theorem judgeReset (tag : Nat) : Keeps p r (s.judgeReset tag) := by
  have hk := h.resetBlocks.keepSending (s.flu.outbound.take 1)
  unfold State.judgeReset
  dsimp only
  generalize s.resetBlocks.keepSending (s.flu.outbound.take 1) = u at hk
  split
  · exact (hk.of_errors 0 (Nat.zero_le _)).of_ctl _
  · exact (hk.of_errors 0 (Nat.zero_le _)).resetReply _

end State.Keeps

end Sys2Proof.Machine
end

section
namespace Sys2Proof.Machine

/-! ### What the judgement of a request keeps -/

/-- The band records of a new table are sound (R18). -/
theorem freshBands_sound {retired : List Nat} {zones : List ZoneDesc} {i : Nat} {bd : Band}
    (h : (freshBands retired 0 0 zones)[i]? = some bd) : bd.Sound i := by
  have hi : i < bandTotal zones := by
    rw [← length_freshBands retired 0 0]
    exact (List.getElem?_eq_some_iff.1 h).1
  obtain ⟨k, hk, -, -⟩ := getElem?_freshBands (retired := retired) 0 0 hi
  obtain rfl := Option.some.inj (h.symm.trans hk)
  exact ⟨Nat.zero_add i, (by decide : 0 = slotsBehind 0), Nat.zero_le _, Nat.zero_le _⟩

theorem readBands_retry {n : Nat} {bs : List Byte} {b : BandImage} (h : b ∈ (readBands n bs).1) : b.retry ≤ 255 := by
  induction n generalizing bs with
  | zero => simp [readBands] at h
  | succ n ih =>
    rcases List.mem_cons.1 h with rfl | h
    · have : fieldAt bs 18 1 < 256 := fieldAt_lt bs 18 1
      exact Nat.le_of_lt_succ this
    · exact ih h

/-- The band records a commit builds are sound (R18, R41, R192). -/
theorem Image.btu_bands_sound {l : ImageLoad} (hl : loadOk l = true) {i : Nat} {bd : Band}
    (h : (readImage l.chunks.flatten).btu.bands[i]? = some bd) : bd.Sound i := by
  obtain ⟨-, -, -, -, -, -, -, -, hbands, -⟩ := (loadOk_iff l).1 hl
  rw [Image.btu_bands, Option.map_eq_some_iff] at h
  obtain ⟨bi, hbi, rfl⟩ := h
  obtain ⟨hnumber, -, -, -, -, -, -, -, -, -, -, hfatigue, hslots, -⟩ := hbands i bi hbi
  have hretry : bi.retry ≤ 255 := readBands_retry (List.mem_of_getElem? hbi)
  generalize closeAfter _ _ = c
  obtain ⟨kn, -, kf, ks, kr, kt, -, -⟩ := Band.converted_kept c bi.band
  exact ⟨kn.trans hnumber, by rw [kf, ks]; exact hslots, kr.trans_le hretry, kt.trans_le hfatigue⟩

theorem readImage_sequence_le (bs : List Byte) : (readImage bs).gmu.sequence ≤ Config.counterMax := by
  have : fieldAt bs 24 8 < 18446744073709551616 := fieldAt_lt bs 24 8
  exact Nat.le_of_lt_succ this

/-- A bound on five counters is kept where each of them is left alone or set within it. -/
theorem foldl_set_le {k : Nat} {f : Vector Nat 5 → Cls → Vector Nat 5} (l : List Cls)
    (hf : ∀ v c, (∀ i (_ : i < 5), v[i] ≤ k) → ∀ i (_ : i < 5), (f v c)[i] ≤ k) {v : Vector Nat 5}
    (hv : ∀ i (_ : i < 5), v[i] ≤ k) : ∀ i (_ : i < 5), (l.foldl f v)[i] ≤ k := by
  induction l generalizing v with
  | nil => exact hv
  | cons c l ih => exact ih (hf v c hv)

theorem vector_set_le {k j x : Nat} {v : Vector Nat 5} (hj : j < 5) (hx : x ≤ k) (hv : ∀ i (_ : i < 5), v[i] ≤ k) :
    ∀ i (_ : i < 5), (v.set j x)[i] ≤ k := by
  intro i h
  rw [Vector.getElem_set]
  split
  · exact hx
  · exact hv i h

theorem Har.skips_le {x : Har} {k : Nat} (h : ∀ c ∈ allClasses, x.skip c ≤ k) : ∀ i (_ : i < 5), x.skips[i] ≤ k := by
  intro i hi
  have : i = 0 ∨ i = 1 ∨ i = 2 ∨ i = 3 ∨ i = 4 := by omega
  rcases this with rfl | rfl | rfl | rfl | rfl
  · exact h .read (by decide)
  · exact h .write (by decide)
  · exact h .fold (by decide)
  · exact h .clean (by decide)
  · exact h .qualify (by decide)

theorem Har.skip_setMask_le {x : Har} {k : Nat} (m : Mask) (h : ∀ c ∈ allClasses, x.skip c ≤ k) :
    ∀ c ∈ allClasses, (x.setMask m).skip c ≤ k := by
  refine fun c _ => foldl_set_le _ (fun v c hv => ?_) (Har.skips_le h) _ c.index.isLt
  split
  · exact vector_set_le _ (Nat.zero_le _) hv
  · exact hv

theorem Har.skip_granted_le {x : Har} (g : Cls) (h : ∀ c ∈ allClasses, x.skip c ≤ Config.skipLimit) :
    ∀ c ∈ allClasses, (x.granted g).skip c ≤ Config.skipLimit := by
  have hq : ∀ c ∈ allClasses, (x.setQueue g ((x.queue g).drop 1)).skip c ≤ Config.skipLimit := fun c hc => by
    rw [Har.skip_setQueue]
    split
    · exact Nat.zero_le _
    · exact h c hc
  refine fun c _ => foldl_set_le _ (fun v c hv => vector_set_le _ ?_ hv) (Har.skips_le hq) _ c.index.isLt
  unfold Har.skipAfter
  split
  · exact Nat.zero_le _
  · split
    · exact Nat.min_le_right _ _
    · exact hq c (Cls.mem_all c)

theorem Har.queue_granted (x : Har) (g c : Cls) :
    (x.granted g).queue c = if c = g then (x.queue g).drop 1 else x.queue c :=
  Har.queue_setQueue ..

end Sys2Proof.Machine
end

section
namespace Sys2Proof.Machine

theorem clampTo_range {lo hi : Nat} (h : lo ≤ hi) (v : Nat) : lo ≤ clampTo lo hi v ∧ clampTo lo hi v ≤ hi := by
  unfold clampTo
  omega

namespace State.Keeps
variable {p : Prop} {r s t : State}

/-! #### Requests -/

section
variable (h : Keeps p r s)
include h

theorem refuse (tag : Nat) (st : Status) : Keeps p r (s.refuse tag st) := h.finish ..

theorem markClamped (tag : Nat) (c : Bool) : Keeps p r (s.markClamped tag c) := h.updEntry ..

theorem admitRequest (code tag : Nat) (hroom : s.rqu.entries.length < Config.entryLimit) :
    Keeps p r (s.admitRequest code tag) :=
  (h.of_rqu { s.rqu with
    entries := s.rqu.entries ++ [s.newRequest code tag], admission := (s.rqu.admission + 1) % 2 ^ 64 } fun c =>
      ⟨c.holdTimeout, by simp only [List.length_append, List.length_singleton]; omega,
        Nat.mod_lt _ (by decide)⟩).of_residue _

theorem judgeRequest (code tag : Nat) {own : State → State}
    (ho : ∀ {s : State}, Keeps p r s → Keeps p r (own s)) : Keeps p r (s.judgeRequest code tag own) := by
  unfold State.judgeRequest
  split
  · exact h.reply ..
  · split
    · exact h.reply ..
    · exact ho (h.admitRequest code tag (by omega))

theorem inState (x : TakenIn) (tag : Nat) {k : State → State} (hk : ∀ {s : State}, Keeps p r s → Keeps p r (k s)) :
    Keeps p r (s.inState x tag k) := by
  unfold State.inState
  split
  · exact hk h
  · exact h.refuse ..

theorem arrive {i : Instr} {judge : State → State} (hi : p → i.wf = true)
    (hj : ∀ {s : State}, Keeps p r s → Keeps p r (judge s)) : Keeps p r (s.arrive i judge) := by
  unfold State.arrive
  split
  · exact hj (h.of_wire ..)
  · refine h.of_waiting _ _ _ fun hp _ hs => ?_
    intro j hj
    rcases List.mem_append.1 hj with hj | hj
    · exact hs.2.2 j hj
    · exact List.mem_singleton.1 hj ▸ hi hp

theorem enterOrdering (tag : Nat) (f : Nat → Entry → Entry) : Keeps p r (s.enterOrdering tag f) := by
  unfold State.enterOrdering State.takeSequence
  split
  · rename_i hs
    split at hs
    · rename_i hlt
      obtain ⟨rfl, rfl⟩ := Prod.mk.inj (Option.some.inj hs)
      exact (h.of_gmu { s.gmu with sequence := s.gmu.sequence + 1 } fun _ => hlt).updEntry ..
    · cases hs
  · exact h.refuse ..

theorem storeOwn (tag lgn first count stream : Nat) (payload : List Sector) :
    Keeps p r (s.storeOwn tag lgn first count stream payload) := by
  unfold State.storeOwn
  split
  · exact h.refuse ..
  split
  · exact h.refuse ..
  · dsimp only
    split
    · exact (h.markClamped ..).refuse ..
    · exact (h.markClamped ..).enterOrdering ..

theorem fetchOwn (tag lgn first count : Nat) : Keeps p r (s.fetchOwn tag lgn first count) := by
  unfold State.fetchOwn
  split
  · exact h.refuse ..
  split
  · exact h.refuse ..
  · exact h.updEntry ..

theorem discardOwn (tag lgn count : Nat) : Keeps p r (s.discardOwn tag lgn count) := by
  unfold State.discardOwn
  split
  · exact h.refuse ..
  · exact (h.markClamped ..).enterOrdering ..

theorem foldOwn (tag count : Nat) : Keeps p r (s.foldOwn tag count) :=
  h.then_work (State.foldOwn_work (.refl _) ..) fun k => by
    unfold State.foldOwn
    repeat' first
      | exact k | exact (PacerBelow.base _).finish k .. | exact (PacerBelow.base _).finish ((PacerBelow.base _).updEntry k ..) ..
      | split | dsimp only

theorem cleanOwn (tag band : Nat) : Keeps p r (s.cleanOwn tag band) :=
  h.then_work (State.cleanOwn_work (.refl _) ..) fun k => by
    unfold State.cleanOwn
    repeat' first | exact k | exact (PacerBelow.base _).finish k .. | split

theorem qualifyOwn (tag band threshold marks : Nat) : Keeps p r (s.qualifyOwn tag band threshold marks) :=
  h.then_work (State.qualifyOwn_work (.refl _) ..) fun k => by
    have hb := PacerBelow.base 65535
    unfold State.qualifyOwn State.acceptQualify
    repeat' first
      | exact hb.finish k ..
      | exact hb.finish ((PacerBelow.all _).startTrackWrite (hb.enterQualifying (fun _ z => z) k _) _) .. | split

theorem qualifyStopOwn (tag : Nat) : Keeps p r (s.qualifyStopOwn tag) :=
  h.then_work (State.qualifyStopOwn_work (.refl _) ..) fun k => by
    unfold State.qualifyStopOwn
    repeat' first | exact (PacerBelow.base _).finish k .. | exact (PacerBelow.all _).stopQual k _ | split

theorem streamSetOwn (tag stream lo hi : Nat) : Keeps p r (s.streamSetOwn tag stream lo hi) := by
  unfold State.streamSetOwn
  split
  · exact h.refuse ..
  · exact (h.of_swr _).finish ..

theorem pacerSetOwn (tag mode running option reload : Nat) (hr : p → reload ≤ 65535) :
    Keeps p r (s.pacerSetOwn tag mode running option reload) := by
  unfold State.pacerSetOwn
  split
  · rename_i m _ o _ _ _
    refine ((h.markClamped tag _).of_cle { s.cle with pacer := s.cle.pacer.after m _ o reload }
      (fun c => c.credits) (fun _ hc => ⟨Nat.le_max_right _ _, ?_⟩) (fun c => c.threshold) fun hp hk => ?_).finish ..
    · unfold Pacer.after
      cases o
      · exact hc
      · exact Nat.le_max_right _ _
    · have hm : max reload 1 ≤ 65535 := by have := hr hp; omega
      unfold Pacer.after
      cases o
      · exact ⟨hm, hk.2⟩
      · exact ⟨hm, hm⟩
  · exact h.refuse ..

theorem applyMask (m : Mask) (threshold timeout : Nat) : Keeps p r (s.applyMask m threshold timeout) := by
  have hh := h.of_har (s.har.setMask m) (fun c => c.nextId) (fun c => Har.skip_setMask_le m c.skips)
    fun _ c => c.queued
  have hc := hh.of_cle { s.cle with threshold := min threshold 1024 } (fun c => c.credits) (fun k l => ⟨k, l⟩)
    (fun _ => Nat.min_le_right _ _) fun _ k => k
  exact hc.of_rqu { s.rqu with holdTimeout := clampTo 100 60000 timeout } fun c =>
    ⟨clampTo_range (by decide) timeout, c.entries, c.admission⟩

theorem maskSetOwn (tag mask threshold timeout : Nat) : Keeps p r (s.maskSetOwn tag mask threshold timeout) := by
  unfold State.maskSetOwn
  split
  · exact ((h.markClamped ..).applyMask ..).finish ..
  · exact h.refuse ..

theorem watchSetOwn (tag window mode lo hi : Nat) : Keeps p r (s.watchSetOwn tag window mode lo hi) :=
  h.then_work (State.watchSetOwn_work (.refl _) ..) fun k => by
    unfold State.watchSetOwn
    split
    · split
      · exact (PacerBelow.base _).finish k ..
      · refine (PacerBelow.base _).finish ?_ ..
        exact k
    · exact (PacerBelow.base _).finish k ..

theorem watchClearOwn (tag window : Nat) : Keeps p r (s.watchClearOwn tag window) :=
  h.then_work (State.watchClearOwn_work (.refl _) ..) fun k => by
    unfold State.watchClearOwn
    split
    · exact (PacerBelow.base _).finish k ..
    · refine (PacerBelow.base _).finish ?_ ..
      exact k

theorem eventEnableOwn (tag set : Nat) : Keeps p r (s.eventEnableOwn tag set) := by
  unfold State.eventEnableOwn
  split
  · dsimp only
    rename_i e _
    have hs := (h.of_evu { s.evu with enables := e } fun c => c.watchQueue).finish tag .done [.num 2 e.toNat, .num 2 0]
    split
    · exact hs.push _
    · exact hs
  · exact h.refuse ..

theorem eventAckOwn (tag set : Nat) : Keeps p r (s.eventAckOwn tag set) := by
  unfold State.eventAckOwn
  split
  · refine Keeps.finish ?_ ..
    unfold State.acknowledge
    have he := h.of_evu (s.evu.acknowledge ‹_›) fun c => by
      unfold Evu.acknowledge
      dsimp only
      split
      · exact c.watchQueue
      · exact c.watchQueue
    dsimp only
    split
    · exact he.of_mpt _ (fun c => (he.counters c).failures) (fun c => c.orderNo) fun c => (he.counters c).op
    · exact he
  · exact h.refuse ..

theorem judgeInspect (x : TakenIn) (tag : Nat) (report : State → Option (List Field)) :
    Keeps p r (s.judgeInspect x tag report) := by
  unfold State.judgeInspect
  refine h.judgeRequest _ _ fun h => h.inState _ _ fun h => ?_
  split
  · exact h.finish ..
  · exact h.refuse ..

theorem formatOwn (tag lgnCount reserve : Nat) (area : AreaDesc) (zones : List ZoneDesc) (retired : List Nat) :
    Keeps p r (s.formatOwn tag lgnCount reserve area zones retired) := by
  unfold State.formatOwn
  split
  · refine Keeps.finish ?_ ..
    have hb := h.of_btu (s.buildTables lgnCount (formatReserve reserve) area zones retired).btu
      (fun _ _ _ => freshBands_sound) fun _ => (by decide : 1 ≤ Config.counterMax)
    have hg := hb.of_gmu { lgnCount := lgnCount, sequence := 1 } fun _ => (by decide : 1 ≤ Config.counterMax)
    have hl := (hg.of_swr { s.swr with streams := Vector.ofFn (freshStream zones) }).of_slu ({ area := area } : Slu)
    have hc := hl.of_cle
      { s.cle with stage := .idle, victim := none, hostList := [] } (fun c => c.credits) (fun k l => ⟨k, l⟩)
      (fun c => c.threshold) fun _ k => k
    exact ((hc.of_qen {} fun _ _ hq => nomatch hq).of_evu _ fun _ => Nat.zero_le _).of_ctl _
  · exact h.refuse ..

theorem judgeQuiet : Keeps p r s.judgeQuiet := by
  unfold State.judgeQuiet
  split
  · dsimp only
    split
    · exact (h.of_ctl _).finish ..
    · exact h.of_ctl _
  · exact h

theorem enterQuiescing (tag : Nat) : Keeps p r (s.enterQuiescing tag) := by
  have hc := h.of_ctl { s.ctl with mode := .quiescing, quiesceTag := some tag }
  refine Keeps.judgeQuiet (hc.then_work (State.stopQual_work (State.cleQuiescing_work (.refl _)) none) fun k => ?_)
  exact (PacerBelow.all _).stopQual ((PacerBelow.all _).cleQuiescing k) _

theorem quiesceOwn (tag : Nat) : Keeps p r (s.quiesceOwn tag) := by
  unfold State.quiesceOwn
  split
  · exact h.refuse ..
  · exact h.enterQuiescing tag
  · exact h.refuse ..
  · exact h.finish ..

theorem imageCommitOwn (tag : Nat) : Keeps p r (s.imageCommitOwn tag) := by
  unfold State.imageCommitOwn
  split
  · rename_i l _
    split
    · rename_i hok
      refine Keeps.finish ?_ ..
      generalize hm : readImage l.chunks.flatten = m
      have hb := h.of_btu m.btu (fun _ i bd hbd => Image.btu_bands_sound hok (hm ▸ hbd))
        fun _ => m.btu_closeOrder.trans_le (Nat.min_le_right _ _)
      have hg := hb.of_gmu m.gmu fun _ => hm ▸ readImage_sequence_le _
      have hc := ((hg.of_slu m.slu).of_swr { s.swr with streams := Vector.ofFn m.stream }).of_cle
        { s.cle with stage := .idle, victim := none, hostList := [] } (fun c => c.credits) (fun k l => ⟨k, l⟩)
        (fun c => c.threshold) fun _ k => k
      exact (hc.of_qen {} fun _ _ hq => nomatch hq).of_ctl _
    · exact (h.of_ctl _).refuse ..
  · exact h.refuse ..

theorem imageReadOwn (tag index : Nat) : Keeps p r (s.imageReadOwn tag index) := by
  unfold State.imageReadOwn
  dsimp only
  split
  · exact h.finish ..
  · exact h.refuse ..

theorem imageWriteOwn (tag index : Nat) (chunk : Chunk) : Keeps p r (s.imageWriteOwn tag index chunk) := by
  unfold State.imageWriteOwn
  dsimp only
  split
  · exact (h.of_ctl _).finish ..
  · exact (h.of_ctl _).refuse ..

theorem mediaRestartOwn (tag : Nat) : Keeps p r (s.mediaRestartOwn tag) := by
  unfold State.mediaRestartOwn
  split
  · exact h.finish ..
  split
  · exact h.refuse ..
  · exact h.of_mpt _ (fun c => (h.counters c).failures) (fun c => nextOrderNo_range _ c.orderNo) fun _ _ ho => nomatch ho

end

end State.Keeps

end Sys2Proof.Machine
end

section
namespace Sys2Proof.Machine

namespace State.Keeps
variable {p : Prop} {r s t : State}

section
variable (h : Keeps p r s)
include h

/-- The judgement of any good frame; only that of a PACER_SET asks that the frame is well formed (R125). -/
theorem judgeGood (i : Instr) (hi : p → i.wf = true) : Keeps p r (s.judgeGood i) := by
  unfold State.judgeGood
  split
  case h_1 => exact h.judgeRequest _ _ fun h => h.inState _ _ fun h => h.storeOwn ..
  case h_2 => exact h.judgeRequest _ _ fun h => h.inState _ _ fun h => h.fetchOwn ..
  case h_3 => exact h.judgeRequest _ _ fun h => h.inState _ _ fun h => h.discardOwn ..
  case h_4 => exact h.judgeRequest _ _ fun h => h.inState _ _ fun h => h.foldOwn ..
  case h_5 => exact h.judgeRequest _ _ fun h => h.inState _ _ fun h => h.cleanOwn ..
  case h_6 => exact h.judgeRequest _ _ fun h => h.inState _ _ fun h => h.qualifyOwn ..
  case h_7 => exact h.judgeRequest _ _ fun h => h.inState _ _ fun h => h.qualifyStopOwn ..
  case h_8 => exact h.judgeRequest _ _ fun h => h.inState _ _ fun h => h.streamSetOwn ..
  case h_9 =>
    refine h.judgeRequest _ _ fun h => h.inState _ _ fun h => h.pacerSetOwn _ _ _ _ _ fun hp => ?_
    have := hi hp
    simp only [Instr.wf, Bool.and_eq_true, fits, decide_eq_true_eq] at this
    omega
  case h_10 => exact h.judgeRequest _ _ fun h => h.inState _ _ fun h => h.maskSetOwn ..
  case h_11 => exact h.judgeRequest _ _ fun h => h.inState _ _ fun h => h.watchSetOwn ..
  case h_12 => exact h.judgeRequest _ _ fun h => h.inState _ _ fun h => h.watchClearOwn ..
  case h_13 => exact h.judgeRequest _ _ fun h => h.inState _ _ fun h => h.eventEnableOwn ..
  case h_14 => exact h.judgeRequest _ _ fun h => h.inState _ _ fun h => h.eventAckOwn ..
  case h_27 => exact h.judgeRequest _ _ fun h => h.inState _ _ fun h => h.formatOwn ..
  case h_28 => exact h.judgeRequest _ _ fun h => h.quiesceOwn _
  case h_29 => exact h.judgeRequest _ _ fun h => h.inState _ _ fun h => (h.of_ctl _).finish ..
  case h_30 => exact h.judgeRequest _ _ fun h => h.inState _ _ fun h => h.imageReadOwn ..
  case h_31 => exact h.judgeRequest _ _ fun h => h.inState _ _ fun h => h.imageWriteOwn ..
  case h_32 => exact h.judgeRequest _ _ fun h => h.inState _ _ fun h => h.imageCommitOwn _
  case h_33 => exact h.judgeRequest _ _ fun h => h.inState _ _ fun h => h.mediaRestartOwn _
  case h_34 => exact h.judgeReset _
  case h_35 => exact h.reply ..
  all_goals first | exact h | exact h.judgeInspect ..

theorem setAssembler (a : Assembler) (l : List Byte) : Keeps p r (s.setAssembler a l) := h.of_wire ..

theorem frameError : Keeps p r s.frameError :=
  ((h.of_errors _ (Nat.min_le_right _ _)).setAssembler ..).raise ..

end

/-- The assembler passes on well-formed frames alone (R163, R164). -/
theorem assembleFor (h : Keeps p r s) (fuel : Nat) (bs : List Byte) : Keeps p r (assembleFor fuel s bs) := by
  induction fuel generalizing s bs with
  | zero => exact h
  | succ fuel ih =>
    unfold Machine.assembleFor
    split
    · split
      · exact ih (h.setAssembler ..) _
      · exact h.setAssembler ..
    · split
      · split
        · exact h.setAssembler ..
        · exact ih h.frameError _
        · exact ih h.frameError _
        · rename_i i _ hg
          exact ih (h.arrive (fun _ => takeFrame_good_wf hg) fun h => h.judgeGood i fun _ => takeFrame_good_wf hg) _
      · exact h.setAssembler ..
    · split
      · split
        · exact ih (h.setAssembler ..) _
        · exact ih h.frameError _
      · exact h.setAssembler ..
      · exact h.setAssembler ..

section
variable (h : Keeps p r s)
include h

theorem assemble (bs : List Byte) : Keeps p r (s.assemble bs) := h.assembleFor ..

theorem discardFrame : Keeps p r s.discardFrame := h.frameError.assemble _

/-- Frames that wait again behind one taken late were waiting before. -/
theorem queueFrames {l : List Instr} (hl : p → r.PacerInRange → ∀ i ∈ l, i.wf = true) : Keeps p r (s.queueFrames l) := by
  unfold State.queueFrames
  split
  · exact h
  · refine h.of_waiting _ _ _ fun hp hr hs i hi => ?_
    rcases List.mem_append.1 hi with hi | hi
    · exact hs.2.2 i hi
    · exact hl hp hr i hi

end
end State.Keeps

/-! ### Every command -/

theorem exec_deferredFrameTaken_keeps {s t : State} (h : exec .deferredFrameTaken s = .next t) :
    State.Keeps True s t := by
  obtain rfl := Host.Outcome.next.inj h
  have hs := State.Keeps.refl True s
  split
  · rename_i i rest hw
    split
    · have hwf (hr : s.PacerInRange) : ∀ j ∈ i :: rest, j.wf = true := hw ▸ hr.2.2
      have h0 := hs.of_waiting s.flu.assembler s.flu.held [] fun _ _ _ _ hi => nomatch hi
      have hj : State.Keeps True s ((({ s with flu := { s.flu with waiting := [] } }).setAssembler .ready []).judgeGood i) :=
        .of_pacer (State.Keeps.trans (State.Keeps.of_pacer (h0.setAssembler .ready []) fun hp _ => trivial)
          ((State.Keeps.refl (i.wf = true) _).judgeGood i id)) fun _ hr => hwf hr i (List.mem_cons_self ..)
      exact (hj.assemble _).queueFrames fun _ hr j hj => hwf hr j (List.mem_cons_of_mem _ hj)
    · exact hs
  · exact hs

end Sys2Proof.Machine
end

section
namespace Sys2Proof.Machine

namespace State.Keeps
variable {p : Prop} {r s t : State}

section
variable (h : Keeps p r s)
include h

theorem deferred {o : MediaOp} (ho : r.Counters → o.CountsInRange) : Keeps p r (s.deferred o) := by
  unfold State.deferred
  split
  · rename_i hd
    exact h.setOp fun c => ⟨hd, (ho c).2⟩
  · exact h.failOp ..

theorem headGrant : Keeps p r (match s.har.choose (effectiveOrder s.btu.pressure s.slu.logHeld) with
    | some c =>
      match s.har.queue c with
      | o :: _ => ({ s with har := s.har.granted c }).issue o
      | [] => s
    | none => s) := by
  split
  · rename_i g _
    split
    · rename_i o os hq
      refine (h.of_har (s.har.granted g) (fun c => c.nextId) (fun c => Har.skip_granted_le g c.skips) fun _ c d hd => ?_).issue
        fun c => (h.counters c).queued g (Cls.mem_all g) o (hq ▸ List.mem_cons_self ..)
      rw [Har.queue_granted]
      split
      · exact fun x hx => c.queued g (Cls.mem_all g) x (List.mem_of_mem_drop hx)
      · exact c.queued d hd
    · exact h
  · exact h

theorem placeSector (o : MediaOp) (j : Nat) (x : Sector) : Keeps p r (s.placeSector o j x) := by
  unfold State.placeSector State.placeEntry State.placeFold State.placeClean State.placeQual
  split
  · split
    · exact h.updEntry ..
    · exact h
  · split
    · exact h.updEntry ..
    · exact h
  · exact h.of_slu _
  · exact h.of_slu _
  · exact h.of_cle _ (fun c => c.credits) (fun k l => ⟨k, l⟩) (fun c => c.threshold) fun _ k => k
  · exact h.of_qen _ fun c => c.qual
  · exact h
  · exact h

theorem pacer_ticks {x : Pacer} (hr : x.reload = s.cle.pacer.reload)
    (hc : x.credits ≤ creditLimit ∨ x.credits = s.cle.pacer.credits)
    (hn : 1 ≤ s.cle.pacer.reload → 1 ≤ s.cle.pacer.count → 1 ≤ x.count)
    (hb : ∀ m, s.PacerBelow m → x.reload ≤ m ∧ x.count ≤ m) :
    Keeps p r { s with cle := { s.cle with pacer := x } } :=
  h.of_cle _ (fun c => hc.elim id fun e => e.trans_le c.credits) (fun k l => ⟨hr ▸ k, hn k l⟩) (fun c => c.threshold)
    fun _ k => hb _ k

end
end State.Keeps

theorem Pacer.countDown_reload (x : Pacer) : x.countDown.reload = x.reload := by
  unfold Pacer.countDown
  split <;> rfl

theorem Pacer.countDown_credits (x : Pacer) :
    x.countDown.credits ≤ creditLimit ∨ x.countDown.credits = x.credits := by
  unfold Pacer.countDown
  split
  · exact .inl (Nat.min_le_right _ _)
  · exact .inr rfl

theorem Pacer.countDown_pos {x : Pacer} (hr : 1 ≤ x.reload) : 1 ≤ x.countDown.count := by
  unfold Pacer.countDown
  split
  · exact hr
  · dsimp only; omega

theorem Pacer.decrease_cases (x : Pacer) (m : PacerMode) : x.decrease m = x ∨ x.decrease m = x.countDown := by
  unfold Pacer.decrease
  split
  · exact .inr rfl
  · exact .inl rfl

/-- Every command keeps the band records sound and the counters in range, and a well-formed one the pacer. -/
theorem exec_keeps {i : Instr} {s t : State} (h : exec i s = .next t) : State.Keeps (i.wf = true) s t := by
  have hs := State.Keeps.refl (i.wf = true) s
  cases i
  case deferredFrameTaken => exact (exec_deferredFrameTaken_keeps h).of_pacer fun _ _ => trivial
  all_goals obtain rfl := Host.Outcome.next.inj h
  case powerOnReset =>
    obtain ⟨-, -, -, hc, hp⟩ := reset_meets_invariants
    exact ⟨fun _ _ _ (hb : none = some _) => (nomatch hb), fun _ => (State.countersInRange_iff _).1 hc, fun _ _ => hp⟩
  case msTick =>
    have hp : State.Keeps (Instr.wf .msTick = true) s
        { s with cle := { s.cle with pacer := s.cle.pacer.decrease .time } } := by
      rcases s.cle.pacer.decrease_cases .time with e | e <;> rw [e]
      · exact hs
      · exact hs.pacer_ticks (Pacer.countDown_reload _) (Pacer.countDown_credits _) (fun k _ => Pacer.countDown_pos k)
          fun m k => Pacer.countDown_le k
    exact hp.of_rqu { s.rqu with entries := s.rqu.entries.map Entry.tick } fun c =>
      ⟨c.holdTimeout, by simpa using c.entries, c.admission⟩
  case pacerUnderflow =>
    split
    · exact hs.pacer_ticks (Pacer.countDown_reload _) (Pacer.countDown_credits _) (fun k _ => Pacer.countDown_pos k)
        fun m k => Pacer.countDown_le k
    · exact hs
  case badMarker =>
    split
    · exact hs.frameError
    · exact hs
  case overlength | badCheck | frameLimitExpiry =>
    split
    · exact hs.discardFrame
    · exact hs
  case markerFound =>
    split
    · exact hs.setAssembler ..
    · exact hs
  case frameSent =>
    split
    · exact hs.of_wire ..
    · exact hs
  case watchNoticeTaken =>
    split
    · exact (hs.of_evu { s.evu with watchQueue := s.evu.watchQueue.drop (Config.outboundLimit - s.flu.outbound.length) }
        fun c => (List.drop_sublist ..).length_le.trans c.watchQueue).of_wire s.flu.assembler s.flu.held _ s.flu.wire
    · exact hs
  case holdExpiry =>
    split
    · exact hs.finish ..
    · exact hs
  case claimLimitExpiry =>
    split
    · split
      · exact (hs.sendOrder _).failOp ..
      · exact hs
    · exact hs
  case reissueDelayExpiry =>
    split
    · rename_i o ho
      split
      · exact hs.issue fun c => c.op o ho
      · exact hs
    · exact hs
  case completionLimitExpiry =>
    split
    · have ha := hs.sendOrder (.abort s.mpt.order.number)
      exact ha.of_mpt _ (fun c => (ha.counters c).failures) (fun c => c.orderNo) fun c => (ha.counters c).op
    · exact hs
  case abortLimitExpiry =>
    split
    · split
      · exact hs.abortUnanswered _
      · exact hs
    · exact hs
  case probeLimitExpiry =>
    split
    · exact hs.probeFailed
    · exact hs
  case accepted =>
    split
    · rename_i o ho
      split
      · exact hs.setOp fun c => ⟨Nat.zero_le _, (c.op o ho).2⟩
      · exact hs
    · exact hs
  case defer =>
    split
    · rename_i o ho
      split
      · exact hs.deferred fun c => c.op o ho
      · exact hs
    · exact hs
  case finished =>
    split
    · split
      · split
        · rename_i o ho
          exact hs.finishOp (fun c => c.op o ho) ..
        · split
          · unfold State.probeAnswered
            split
            · exact hs.portUp
            · exact hs.probeFailed
          · exact hs
      · exact hs
    · exact hs
  case data =>
    split
    · split
      · split
        · exact hs.placeSector ..
        · exact hs
      · exact hs
    · exact hs
  case headGrant =>
    split
    · exact hs.headGrant
    · exact hs
  case requestStart =>
    split
    · exact (hs.updEntry ..).then_work (State.handToOwner_work (.refl _) _) fun k => (State.PacerBelow.all _).handToOwner k _
    · exact hs
  case pressureRelease =>
    split
    · exact hs.then_work (State.release_work (.refl _) _ fun k e => State.takeStore_work k e) fun k =>
        (State.PacerBelow.all _).release k _ fun k e => Kept.takeStore (State.PacerBelow.all _).pump' k e
    · exact hs
  case logRelease =>
    split
    · exact hs.then_work (State.release_work (.refl _) _ fun k e => State.takePartial_work k e) fun k =>
        (State.PacerBelow.all _).release k _ fun k e => (State.PacerBelow.all _).takePartial k e
    · exact hs
  case openWaitGrant =>
    split
    · split
      · exact hs
      · exact hs.then_work (State.pump_work (State.grantOpen_work ((BlockWork.refl s).of_btu ..) _) _) fun k =>
          ((State.PacerBelow.all _).pump' _).pump (((State.PacerBelow.all _).pump' _).grant k)
    · exact hs
  case bandReset =>
    split
    · exact hs
    · split
      · exact hs.then_work (State.victimEnd_work (State.resetBand_work (.refl _) _) _ _) fun k =>
          (State.PacerBelow.all _).victimEnd ((State.PacerBelow.base _).resetBand (fun _ z => z) k _) _ _
      · exact hs
  case quiesceComplete => exact hs.judgeQuiet
  case foldChoice =>
    split
    · exact hs.then_work (State.startFold_work (.refl _) _) fun k => (State.PacerBelow.all _).startFold k _
    · exact hs
  case victimChoice =>
    have hc (own : Bool) (l : List (Nat × Nat)) : State.Keeps (Instr.wf .victimChoice = true) s (s.choose own l) :=
      hs.then_work (State.choose_work (.refl _) ..) fun k => (State.PacerBelow.all _).choose (fun _ z => z) k ..
    split
    · split
      · exact hc ..
      · exact hc ..
      · exact hs
      · exact hs
    · exact hs
  case batchStart =>
    split
    · exact hs.then_work (State.startBatch_work (.refl _)) fun k => (State.PacerBelow.all _).startBatch k
    · exact hs
  all_goals exact hs.arrive id fun h => h.judgeGood (_ : Instr) id

theorem step_keeps {s t : State} (h : step s = .next t) :
    State.Keeps (∀ i ∈ s.pending.head?, i.wf = true) s t := by
  unfold step at h
  split at h
  · obtain rfl := Host.Outcome.next.inj h
    exact .refl _ _
  · rename_i i rest hp
    have hk := exec_keeps h
    refine ⟨hk.bands, fun c => hk.counters { c with }, fun hw x => hk.pacer (hw i (by simp [hp])) x⟩

/-- Settles O5, by the case split over the commands in `exec_keeps`. -/
theorem step_keeps_bands_sound : Obligations.Step_keeps_bands_sound := fun _ _ hb h => (step_keeps h).bands hb

/-- Settles O7, by the case split over the commands in `exec_keeps`. -/
theorem step_keeps_counters_in_range : Obligations.Step_keeps_counters_in_range :=
  ⟨fun s t hc h => t.countersInRange_iff.2 ((step_keeps h).counters (s.countersInRange_iff.1 hc)),
    fun _ _ hw hp h => (step_keeps h).pacer hw hp⟩

end Sys2Proof.Machine
end

section
namespace Sys2Proof.Machine

/-! ### Ending a request and raising an event, field by field (R168, R177) -/

section
variable (s : State) (e : EventFlag) (d tag : Nat) (st : Status) (fs : List Field)

@[simp] theorem State.raise_cle : (s.raise e d).cle = s.cle := by unfold State.raise; split <;> rfl
@[simp] theorem State.raise_qen : (s.raise e d).qen = s.qen := by unfold State.raise; split <;> rfl
@[simp] theorem State.finish_ctl : (s.finish tag st fs).ctl = s.ctl := by unfold State.finish; split <;> rfl
@[simp] theorem State.finish_gmu : (s.finish tag st fs).gmu = s.gmu := by unfold State.finish; split <;> rfl
@[simp] theorem State.finish_btu : (s.finish tag st fs).btu = s.btu := by unfold State.finish; split <;> rfl
@[simp] theorem State.finish_swr : (s.finish tag st fs).swr = s.swr := by unfold State.finish; split <;> rfl
@[simp] theorem State.finish_slu : (s.finish tag st fs).slu = s.slu := by unfold State.finish; split <;> rfl
@[simp] theorem State.finish_cle : (s.finish tag st fs).cle = s.cle := by unfold State.finish; split <;> rfl
@[simp] theorem State.finish_qen : (s.finish tag st fs).qen = s.qen := by unfold State.finish; split <;> rfl
@[simp] theorem State.finish_har : (s.finish tag st fs).har = s.har := by unfold State.finish; split <;> rfl
@[simp] theorem State.finish_mpt : (s.finish tag st fs).mpt = s.mpt := by unfold State.finish; split <;> rfl
@[simp] theorem State.finish_evu : (s.finish tag st fs).evu = s.evu := by unfold State.finish; split <;> rfl

end

/-- A request that holds an entry ends: its reply is the last frame generated, and the entry is gone (R168). -/
theorem State.finish_of_entry {s : State} {tag : Nat} {e : Entry} (h : s.entry? tag = some e) (st : Status)
    (fs : List Field) :
    (s.finish tag st fs).flu.outbound.getLast? = some (replyFrame e.code tag e.clamped st fs)
      ∧ (s.finish tag st fs).rqu.entries = s.rqu.entries.filter fun x => decide (x.tag ≠ tag) := by
  simp [State.finish, h]

/-- A band is looked up in the band table alone. -/
theorem State.band?_congr {s t : State} (h : t.btu.bands = s.btu.bands) (k : Nat) : t.band? k = s.band? k := by
  rw [State.band?, h]; rfl

theorem State.freeCount_congr {s t : State} (h : t.btu.bands = s.btu.bands) : t.freeCount = s.freeCount :=
  congrArg (List.countP Band.isFree) h

/-! ### An UNRECOVERED answer counted (R38, R39) -/

/-- A band record with one more unrecovered answer (R38). -/
def Band.unrecovered (bd : Band) : Band :=
  { bd with retry := min (bd.retry + 1) 255, fatigue := if bd.retry = 127 then min (bd.fatigue + 1) 3 else bd.fatigue }

section
variable {s : State} {b : Nat} {bd : Band}

/-- The bands, the refresh list and the events after an unrecovered report (R38, R39). -/
theorem State.unrecoveredReport_spec (hb : s.band? b = some bd) (ht : bd.takesReports = true) :
    (∀ k, (s.unrecoveredReport b).band? k = (s.band? k).map fun x => if b = k then bd.unrecovered else x)
      ∧ (s.unrecoveredReport b).btu.refresh =
        (if bd.retry = 127 ∧ b ∉ s.btu.refresh then s.btu.refresh ++ [b] else s.btu.refresh)
      ∧ (s.unrecoveredReport b).evu = if bd.retry = 127 then s.evu.set .bandFatigued b else s.evu := by
  have hupd (f : Band → Band) (hf : f bd = bd.unrecovered) (k : Nat) :
      (s.updBand b f).band? k = (s.band? k).map fun x => if b = k then bd.unrecovered else x := by
    rw [State.band?_updBand]
    by_cases hk : b = k
    · subst hk; simp [hb, hf]
    · simp [hk]
  simp only [State.unrecoveredReport, hb, ht, if_true]
  split
  · next h =>
    refine ⟨fun k => ?_, ?_, by rw [State.raise_evu]; rfl⟩
    · rw [State.band?, State.raise_btu]
      exact hupd _ (by simp [Band.unrecovered, h]) k
    · by_cases hm : b ∈ s.btu.refresh <;> simp [hm, h]
  · next h =>
    exact ⟨hupd _ (by simp [Band.unrecovered, h]), by simp [h], rfl⟩

/-- The report reads and changes the BTU and the events alone. -/
theorem State.unrecoveredReport_congr {t : State} (hbtu : t.btu = s.btu) (hevu : t.evu = s.evu) (b : Nat) :
    (t.unrecoveredReport b).btu = (s.unrecoveredReport b).btu ∧ (t.unrecoveredReport b).evu = (s.unrecoveredReport b).evu := by
  have hband : t.band? b = s.band? b := State.band?_congr (by rw [hbtu]) b
  simp only [State.unrecoveredReport, hband, hbtu]
  split
  · split
    · split
      · simp [State.raise_evu, hbtu, hevu]
      · simp [hbtu, hevu]
    · exact ⟨hbtu, hevu⟩
  · exact ⟨hbtu, hevu⟩

end

/-- An outcome of a FETCH's run touches the requests and the replies alone (R51). -/
theorem State.fetchOutcome_frame (s : State) (o : MediaOp) (out : Outcome) :
    (s.fetchOutcome o out).btu = s.btu ∧ (s.fetchOutcome o out).evu = s.evu := by
  have hjudge (t : State) (tag : Nat) : (t.judgeFetch tag).btu = t.btu ∧ (t.judgeFetch tag).evu = t.evu := by
    unfold State.judgeFetch
    split
    · split
      · exact ⟨State.finish_btu .., State.finish_evu ..⟩
      · exact ⟨rfl, rfl⟩
    · exact ⟨rfl, rfl⟩
  unfold State.fetchOutcome
  split <;> simp [State.fetchRunEnded, hjudge]

section
variable {s : State} {o : MediaOp} {b : Nat}

/-- An operation's band read of class READ, FOLD or CLEAN counts against its band (R142). -/
theorem MediaOp.bandRead_eq (hw : o.isWrite = false) (ht : o.target = .band b)
    (hc : o.cls = .read ∨ o.cls = .fold ∨ o.cls = .clean) : o.bandRead = some b := by
  rcases hc with hc | hc | hc <;> simp [MediaOp.bandRead, hw, ht, hc]

/-- A FINISHED UNRECOVERED of a read in CLAIMING or RUNNING is taken in RUNNING, the sectors done set by it (R148, R153). -/
theorem exec_finished_unrecovered_read (hop : s.mpt.op = some o) (hst : s.mpt.stage = .claiming ∨ s.mpt.stage = .running)
    (hw : o.isWrite = false) (d x : Nat) :
    ∃ (u : State) (o' : MediaOp), exec (.finished s.mpt.order.number 2 d x) s = .next (u.readUnrecovered o')
      ∧ u.btu = s.btu ∧ u.evu = s.evu ∧ o'.bandRead = o.bandRead ∧ o'.retries = o.retries ∧ o'.origin = o.origin := by
  have htaken : Answer.unrecovered.taken o.isWrite s.mpt.order.count d = .unrecovered := by rw [hw]; rfl
  rcases hst with hst | hst
  · refine ⟨s.claim o, { o with defers := 0, sectorsDone := o.doneBefore x }, ?_, rfl, rfl, rfl, rfl, rfl⟩
    simp only [exec_finished, execFinished, Answer.ofCode, if_true, hop, State.finishOp, hst, htaken, State.finishRun]
    rfl
  · refine ⟨s, { o with sectorsDone := o.doneBefore x }, ?_, rfl, rfl, rfl, rfl, rfl⟩
    simp only [exec_finished, execFinished, Answer.ofCode, if_true, hop, State.finishOp, hst, htaken, State.finishRun]
    rfl

/-- An unrecovered read that is issued again: of the bands and the events only the report's change (R38, R153). -/
theorem State.readUnrecovered_again (hr : o.retries < retryLimit) (hb : o.bandRead = some b) :
    (s.readUnrecovered o).btu = (s.unrecoveredReport b).btu ∧ (s.readUnrecovered o).evu = (s.unrecoveredReport b).evu := by
  simp only [State.readUnrecovered, if_pos hr, State.reportUnrecovered, hb]
  exact ⟨rfl, rfl⟩

/-- An unrecovered read that ends a FETCH's run: the report, then the reader ended (R37, R38, R153). -/
theorem State.readUnrecovered_ends (hr : ¬ o.retries < retryLimit) (hb : o.bandRead = some b) (ho : o.origin = .fetchBand) :
    (s.readUnrecovered o).btu = ((s.unrecoveredReport b).readEnd b).btu
      ∧ (s.readUnrecovered o).evu = (s.unrecoveredReport b).evu := by
  have hrec : o.recordRead = none := by rw [MediaOp.recordRead, ho]
  have heq : s.readUnrecovered o = ((s.unrecoveredReport b).portIdle.readEnd b).fetchOutcome o .unrecovered := by
    simp only [State.readUnrecovered, if_neg hr, State.reportUnrecovered, hb, State.endOp, State.reportOutcome,
      State.endReaders, hrec, State.ownerOutcome, ho]
    rfl
  rw [heq]
  exact State.fetchOutcome_frame ..

end

/-- Settles O43: the report's equations, then the two ends of a FINISHED UNRECOVERED of a band read. -/
theorem retry_counter_and_fatigue : Obligations.Retry_counter_and_fatigue := by
  refine ⟨fun s b bd hb hst => ?_, fun s o b d x bd hop hstage hw ht hc hb hst => ?_⟩
  · obtain ⟨hband, href, hevu⟩ := State.unrecoveredReport_spec hb (Band.takesReports_iff.2 hst)
    exact ⟨by simp [hband, hb, Band.unrecovered], href, hevu, fun k hk => by simp [hband, Ne.symm hk]⟩
  · obtain ⟨u, o', hexec, hbtu, hevu, hread, hret, horg⟩ := exec_finished_unrecovered_read hop hstage hw d x
    rw [MediaOp.bandRead_eq hw ht hc] at hread
    obtain ⟨hbtu', hevu'⟩ := State.unrecoveredReport_congr hbtu hevu b
    refine ⟨fun hlt => ⟨_, hexec, ?_⟩, fun hge ho => ?_⟩
    · obtain ⟨hb', he'⟩ := u.readUnrecovered_again (by rw [hret]; exact hlt) hread
      exact ⟨hb'.trans hbtu', he'.trans hevu'⟩
    · obtain ⟨hb', he'⟩ := u.readUnrecovered_ends (by rw [hret]; exact Nat.not_lt.2 hge) hread (horg.trans ho)
      obtain ⟨hband, -, -⟩ := State.unrecoveredReport_spec hb (Band.takesReports_iff.2 hst)
      have hu : (u.unrecoveredReport b).band? b = some bd.unrecovered :=
        (State.band?_congr (congrArg Btu.bands hbtu') b).trans (by rw [hband, hb]; simp)
      have htakes : bd.unrecovered.takesReports = true := Band.takesReports_iff.2 hst
      refine ⟨_, { bd.unrecovered with readers := bd.readers - 1 }, hexec, ?_, rfl, rfl, rfl, ?_, he'.trans hevu'⟩
      · rw [State.band?, hb']
        refine (State.band?_updBand ..).trans ?_
        simp only [hu, Option.map_some, if_true, htakes]
        rfl
      · rw [hb', ← hbtu']
        rfl

end Sys2Proof.Machine
end

section
namespace Sys2Proof.Machine

/-! ### A band joins the free pool (R24, R29) -/

/-- A raised event changes the events and the outbound queue alone (R177). -/
theorem State.raise_eq (s : State) (e : EventFlag) (d : Nat) :
    ∃ out, s.raise e d = { s with evu := s.evu.set e d, flu := { s.flu with outbound := out } } := by
  unfold State.raise
  split
  · exact ⟨_, rfl⟩
  · exact ⟨s.flu.outbound, rfl⟩

/-- A request that ends changes the entries, the held list and the outbound queue alone (R168). -/
theorem State.finish_eq (s : State) (tag : Nat) (st : Status) (fs : List Field) :
    ∃ es held out, s.finish tag st fs = { s with
      rqu := { s.rqu with entries := es, held := held }, flu := { s.flu with outbound := out } } := by
  unfold State.finish
  split
  · exact ⟨_, _, _, rfl⟩
  · exact ⟨s.rqu.entries, s.rqu.held, s.flu.outbound, rfl⟩

/-- One band's change moves the free count by that band (R24). -/
theorem State.freeCount_updBand {s : State} {b : Nat} {bd : Band} (hb : s.band? b = some bd) (f : Band → Band) :
    (s.updBand b f).freeCount + bd.isFree.toNat = s.freeCount + (f bd).isFree.toNat := by
  obtain ⟨hlt, hget⟩ := List.getElem?_eq_some_iff.1 hb
  have hpos : bd.isFree.toNat ≤ s.freeCount := by
    cases hf : bd.isFree with
    | false => simp
    | true => exact List.countP_pos_iff.2 ⟨bd, List.mem_of_getElem? hb, hf⟩
  have hcount := List.countP_set (p := Band.isFree) (a := f bd) hlt
  rw [hget] at hcount
  have hset : s.btu.bands.modify b f = s.btu.bands.set b (f bd) := by
    rw [List.modify_eq_set_getElem?, show s.btu.bands[b]? = some bd from hb]; rfl
  have hnew : (s.updBand b f).freeCount = s.freeCount - (if bd.isFree then 1 else 0) + if (f bd).isFree then 1 else 0 :=
    (congrArg (List.countP Band.isFree) hset).trans hcount
  rw [hnew]
  revert hpos
  cases bd.isFree <;> cases (f bd).isFree <;> simp <;> omega

/-- PRESSURE judged after a band joined the pool: what it is then, and its event (R29). -/
theorem State.judgePressureOff_eq (s : State) :
    ∃ out, s.judgePressureOff = { s with
      btu := { s.btu with pressure := s.btu.pressure && decide (s.freeCount < s.btu.reserve + 2) }
      evu := if s.btu.pressure = true ∧ s.btu.reserve + 2 ≤ s.freeCount then s.evu.set .pressureOff s.freeCount else s.evu
      flu := { s.flu with outbound := out } } := by
  unfold State.judgePressureOff
  split
  · next h =>
    obtain ⟨out, hout⟩ := ({ s with btu := { s.btu with pressure := false } } : State).raise_eq .pressureOff s.freeCount
    exact ⟨out, by rw [hout]; simp [Nat.not_lt.2 h.2]⟩
  · next h =>
    refine ⟨s.flu.outbound, ?_⟩
    have hp : (s.btu.pressure && decide (s.freeCount < s.btu.reserve + 2)) = s.btu.pressure := by
      cases hpr : s.btu.pressure with
      | false => rfl
      | true => simpa [hpr] using h
    rw [hp]

/-! ### The band reset (R33) -/

section
variable {s : State} {v : Victim} {bd : Band}

theorem exec_bandReset (s : State) : exec .bandReset s = execBandReset s := rfl

/-- A due reset is taken outside QUIESCED (R33, R123). -/
theorem exec_bandReset_due (hm : s.ctl.mode ≠ .quiesced) (hst : s.cle.stage = .waitReset) (hv : s.cle.victim = some v)
    (hb : s.band? v.band = some bd) (hcl : bd.state = .cleaning) (hr : bd.readers = 0) :
    exec .bandReset s = .next ((s.resetBand bd).victimEnd v bd.resetState) := by
  simp [exec_bandReset, execBandReset, State.pendingReset, hm, hst, hv, hb, hcl, hr]

/-- The bands with one of them cleared and off the refresh list, before PRESSURE is judged (R33). -/
def State.withCleared (s : State) (bd : Band) : State :=
  (s.updBand bd.number fun x => x.cleared bd.resetState).unrefresh bd.number

theorem State.band?_withCleared (s : State) (bd : Band) (k : Nat) :
    (s.withCleared bd).band? k = (s.band? k).map fun x => if bd.number = k then x.cleared bd.resetState else x :=
  s.band?_updBand ..

/-- A CLEANING band that is cleared joins the pool, unless it is RETIRED by it (R24, R33). -/
theorem State.freeCount_withCleared (hb : s.band? bd.number = some bd) (hcl : bd.state = .cleaning) :
    (s.withCleared bd).freeCount = s.freeCount + if bd.fatigue = 3 then 0 else 1 := by
  have h := State.freeCount_updBand hb fun x => x.cleared bd.resetState
  have hfree : bd.isFree = false := by simp [Band.isFree, hcl]
  have hafter : (bd.cleared bd.resetState).isFree.toNat = if bd.fatigue = 3 then 0 else 1 := by
    by_cases hf : bd.fatigue = 3 <;> simp [Band.isFree, Band.cleared, Band.resetState, hf]
  rw [hfree, hafter] at h
  exact h

/-- A band reset changes the bands, the refresh list, PRESSURE and the events alone (R29, R33). -/
theorem State.resetBand_eq (hb : s.band? bd.number = some bd) (hcl : bd.state = .cleaning) :
    ∃ pressure evu out, s.resetBand bd = { s.withCleared bd with
        btu := { (s.withCleared bd).btu with pressure := pressure }, evu := evu
        flu := { s.flu with outbound := out } }
      ∧ (bd.fatigue = 3 → pressure = s.btu.pressure ∧ evu = s.evu.set .bandRetired bd.number)
      ∧ (bd.fatigue ≠ 3 → pressure = (s.btu.pressure && decide (s.freeCount + 1 < s.btu.reserve + 2))
        ∧ evu = if s.btu.pressure = true ∧ s.btu.reserve + 2 ≤ s.freeCount + 1 then
            s.evu.set .pressureOff (s.freeCount + 1)
          else s.evu) := by
  have hcount := State.freeCount_withCleared hb hcl
  by_cases hf : bd.fatigue = 3
  · have hreset : s.resetBand bd = (s.withCleared bd).raise .bandRetired bd.number := if_pos hf
    obtain ⟨out, hout⟩ := (s.withCleared bd).raise_eq .bandRetired bd.number
    exact ⟨_, _, out, hreset.trans hout, fun _ => ⟨rfl, rfl⟩, fun h => absurd hf h⟩
  · have hreset : s.resetBand bd = (s.withCleared bd).judgePressureOff := if_neg hf
    obtain ⟨out, hout⟩ := (s.withCleared bd).judgePressureOff_eq
    rw [if_neg hf] at hcount
    rw [hcount] at hout
    exact ⟨_, _, out, hreset.trans hout, fun h => absurd h hf, fun _ => ⟨rfl, rfl⟩⟩

/-- The victim record ends: the cleaner is IDLE, and of the bands, the map, the log and the port nothing changes
(R123). -/
theorem State.victimEnd_frame (s : State) (v : Victim) (after : BandState) :
    (s.victimEnd v after).btu = s.btu ∧ (s.victimEnd v after).gmu = s.gmu ∧ (s.victimEnd v after).slu = s.slu
      ∧ (s.victimEnd v after).swr = s.swr ∧ (s.victimEnd v after).mpt = s.mpt ∧ (s.victimEnd v after).evu = s.evu
      ∧ (s.victimEnd v after).har = s.har ∧ (s.victimEnd v after).qen = s.qen ∧ (s.victimEnd v after).ctl = s.ctl
      ∧ (s.victimEnd v after).cle.stage = .idle ∧ (s.victimEnd v after).cle.victim = none
      ∧ (s.victimEnd v after).cle.pacer = s.cle.pacer
      ∧ (s.victimEnd v after).cle.hostList = (match v.tag with
        | some t => s.cle.hostList.filter fun e => decide (e.1 ≠ t)
        | none => s.cle.hostList) := by
  unfold State.victimEnd
  split <;> simp [*]

/-- A victim of no CLEAN request ends without a reply (R123). -/
theorem State.victimEnd_untagged (h : v.tag = none) (s : State) (after : BandState) :
    (s.victimEnd v after).rqu = s.rqu ∧ (s.victimEnd v after).flu = s.flu := by
  simp [State.victimEnd, h]

/-- The CLEAN request that named the victim is replied DONE and holds its entry no more (R123). -/
theorem State.victimEnd_tagged {tag : Nat} {e : Entry} (h : v.tag = some tag) (he : s.entry? tag = some e)
    (after : BandState) :
    (s.victimEnd v after).flu.outbound.getLast? = some (replyFrame e.code tag e.clamped .done (v.fields after))
      ∧ (s.victimEnd v after).rqu.entries = s.rqu.entries.filter fun x => decide (x.tag ≠ tag) := by
  obtain ⟨c, hc⟩ : ∃ c : Cle, s.victimEnd v after = ({ s with cle := c } : State).finish tag .done (v.fields after) :=
    ⟨{ s.cle with stage := .idle, victim := none, hostList := s.cle.hostList.filter fun e => decide (e.1 ≠ tag) },
      by simp only [State.victimEnd, h]⟩
  rw [hc]
  exact State.finish_of_entry (s := { s with cle := c }) he .done _

end

/-- Settles O41: the reset's equation, then the end of the victim record. -/
theorem band_reset_clears : Obligations.Band_reset_clears := by
  intro s v bd hm hst hv hb hnum hcl hr
  have hself : s.band? bd.number = some bd := by rw [hnum]; exact hb
  obtain ⟨pressure, evu, out, hreset, hretired, hfreed⟩ := State.resetBand_eq hself hcl
  obtain ⟨hbtu, hgmu, hslu, hswr, hmpt, hevu, -, -, -, hstage, hvictim, -, hhost⟩ :=
    (s.resetBand bd).victimEnd_frame v bd.resetState
  have hcount := State.freeCount_withCleared hself hcl
  have hband (k : Nat) : ((s.resetBand bd).victimEnd v bd.resetState).band? k =
      (s.band? k).map fun x => if bd.number = k then x.cleared bd.resetState else x :=
    (State.band?_congr (by rw [hbtu, hreset]) k).trans (s.band?_withCleared bd k)
  have hfree : ((s.resetBand bd).victimEnd v bd.resetState).freeCount = (s.withCleared bd).freeCount :=
    State.freeCount_congr (by rw [hbtu, hreset])
  have hpressure : ((s.resetBand bd).victimEnd v bd.resetState).btu.pressure = pressure := by rw [hbtu, hreset]
  have hevents : ((s.resetBand bd).victimEnd v bd.resetState).evu = evu := by rw [hevu, hreset]
  rw [hnum] at hretired
  simp only [hnum] at hband
  refine ⟨_, exec_bandReset_due hm hst hv hb hcl hr, ?_, fun k hk => ?_, ?_, hstage, hvictim, ?_, ?_, ?_, ?_,
    fun hf => ?_, fun hf => ?_, fun htag => ?_, fun tag e htag he => ?_⟩
  · rw [hband, hb]; simp [Band.cleared, Band.resetState]
  · simp [hband, Ne.symm hk]
  · rw [hbtu, hreset]; simp [State.withCleared, State.unrefresh, hnum]
  · rw [hgmu, hreset]; rfl
  · rw [hslu, hreset]; rfl
  · rw [hswr, hreset]; rfl
  · rw [hmpt, hreset]; rfl
  · obtain ⟨hp, he⟩ := hretired hf
    rw [hfree, hcount, if_pos hf, hpressure, hp, hevents, he]
    exact ⟨rfl, rfl, Evu.set_self ..⟩
  · obtain ⟨hp, he⟩ := hfreed hf
    rw [hfree, hcount, if_neg hf, hpressure, hp, hevents, he]
    refine ⟨rfl, by simp, fun h => if_neg ?_, fun h1 h2 => ?_⟩
    · rintro ⟨h1, h2⟩
      exact h.elim (by simp [h1]) fun h => absurd h2 (Nat.not_le.2 h)
    · rw [if_pos ⟨h1, h2⟩]
      exact Evu.set_self ..
  · obtain ⟨hrqu, -⟩ := (s.resetBand bd).victimEnd_untagged htag bd.resetState
    rw [hhost, hrqu, hreset, htag]
    exact ⟨rfl, rfl⟩
  · have he' : (s.resetBand bd).entry? tag = some e := by rw [hreset]; exact he
    obtain ⟨hlast, hent⟩ := State.victimEnd_tagged htag he' bd.resetState
    rw [hhost, hent, hlast, hreset, htag]
    refine ⟨rfl, rfl, ?_⟩
    by_cases hf : bd.fatigue = 3 <;> simp [Victim.fields, Band.resetState, hf, BandState.code]

end Sys2Proof.Machine
end

section
namespace Sys2Proof.Machine

/-! ### Requests taken in some controller states (R167, R185) -/

section
variable {s : State} {tag : Nat} {taken : TakenIn}

/-- The whole way of an admitted request whose code the controller state takes (R165, R167, R185). -/
theorem State.arrive_taken (h : s.admitsTag tag) (ht : taken.has s.ctl.mode = true) (i : Instr) (code : Nat)
    (own : State → State) :
    (s.arrive i fun s => s.judgeRequest code tag fun s => s.inState taken tag own) = own (s.ready.admitRequest code tag) := by
  rw [State.arrive_admits h]
  exact if_pos ht

/-- An admitted request refused or replied by its own judgement (R167, R168). -/
theorem State.arrive_answered (h : s.admitsTag tag) (ht : taken.has s.ctl.mode = true) (i : Instr) {code : Nat}
    {own : State → State} {st : Status} {fs : List Field}
    (hown : own (s.ready.admitRequest code tag) = (s.ready.admitRequest code tag).finish tag st fs) :
    (s.arrive i fun s => s.judgeRequest code tag fun s => s.inState taken tag own) = s.answered code tag false st fs := by
  obtain ⟨-, -, htag⟩ := id h
  rw [State.arrive_taken h ht, hown, State.finish_admit htag]

/-- A request whose code the controller state does not take (R185). -/
theorem State.arrive_not_taken (h : s.admitsTag tag) (ht : taken.has s.ctl.mode = false) (i : Instr) (code : Nat)
    (own : State → State) :
    (s.arrive i fun s => s.judgeRequest code tag fun s => s.inState taken tag own) =
      s.answered code tag false .wrongState [] := by
  obtain ⟨-, -, htag⟩ := id h
  rw [State.arrive_admits h, State.inState, if_neg (by simpa [State.admitRequest, State.ready] using ht)]
  exact State.finish_admit htag ..

theorem takenFormatted_has {m : Mode} (h : m ≠ .unformatted) : takenFormatted.has m = true := by
  cases m with
  | unformatted => exact absurd rfl h
  | online => rfl
  | quiescing => rfl
  | quiesced => rfl

end

/-! ### Watch windows (R180) -/

theorem WatchMode.ofCode_code (m : WatchMode) : WatchMode.ofCode m.code = some m := by cases m <;> rfl

theorem WatchMode.ofCode_eq_none {v : Nat} (h : ∀ m : WatchMode, m.code ≠ v) : WatchMode.ofCode v = none := by
  have hm := h .moves
  have ha := h .all
  have hh := h .hold
  simp only [WatchMode.code] at hm ha hh
  unfold WatchMode.ofCode
  split
  · omega
  · omega
  · omega
  · rfl

theorem exec_watchSet (tag w mode lo hi : Nat) (s : State) :
    exec (.watchSet tag w mode lo hi) s = execWatchSet tag w mode lo hi s := rfl

theorem exec_watchClear (tag w : Nat) (s : State) : exec (.watchClear tag w) s = execWatchClear tag w s := rfl

section
variable {s : State} {tag w : Nat}

theorem exec_watchSet_refused {mode lo hi : Nat} (h : s.admitsTag tag) (hm : s.ctl.mode ≠ .unformatted)
    (hbad : 8 ≤ w ∨ (∀ m : WatchMode, m.code ≠ mode) ∨ hi < lo ∨ s.gmu.lgnCount ≤ lo) :
    exec (.watchSet tag w mode lo hi) s = .next (s.answered codeWatchSet tag false .badArgument []) := by
  rw [exec_watchSet, execWatchSet]
  refine congrArg _ (State.arrive_answered h (takenFormatted_has hm) _ ?_)
  cases hmode : WatchMode.ofCode mode with
  | none => simp only [State.watchSetOwn, hmode, State.refuse]
  | some m =>
    have hcode : m.code = mode := by
      revert hmode
      unfold WatchMode.ofCode
      split <;> simp <;> rintro rfl <;> rfl
    have hrange : 8 ≤ w ∨ hi < lo ∨ s.gmu.lgnCount ≤ lo := by
      rcases hbad with h1 | h1 | h1
      · exact .inl h1
      · exact absurd hcode (h1 m)
      · exact .inr h1
    simp only [State.watchSetOwn, hmode, State.refuse]
    exact if_pos hrange

theorem exec_watchSet_accepted {m : WatchMode} {lo hi : Nat} (h : s.admitsTag tag) (hm : s.ctl.mode ≠ .unformatted)
    (hw : w < 8) (hle : lo ≤ hi) (hlo : lo < s.gmu.lgnCount) :
    exec (.watchSet tag w m.code lo hi) s =
      .next ((s.setWindow w (some ⟨lo, min hi (s.gmu.lgnCount - 1), m, false⟩)).answered codeWatchSet tag
        (decide (s.gmu.lgnCount ≤ hi)) .done
        [.num 1 w, .num 1 1, .num 1 m.code, .num 1 0, .num 4 lo, .num 4 (min hi (s.gmu.lgnCount - 1))]) := by
  obtain ⟨-, -, htag⟩ := id h
  rw [exec_watchSet, execWatchSet]
  refine congrArg _ ((State.arrive_taken h (takenFormatted_has hm) ..).trans ?_)
  rw [State.watchSetOwn, WatchMode.ofCode_code]
  refine (if_neg ?_).trans ?_
  · show ¬ (8 ≤ w ∨ hi < lo ∨ s.gmu.lgnCount ≤ lo)
    omega
  · exact State.finish_markClamped_admit (s := s.setWindow w (some ⟨lo, min hi (s.gmu.lgnCount - 1), m, false⟩)) htag ..

theorem exec_watchClear_accepted (h : s.admitsTag tag) (hm : s.ctl.mode ≠ .unformatted) (hw : w < 8) :
    exec (.watchClear tag w) s = .next ((s.setWindow w none).answered codeWatchClear tag false .done
      [.num 1 w, .num 1 0, .num 1 0xFF, .num 1 0, .num 4 0xFFFFFFFF, .num 4 0xFFFFFFFF]) := by
  obtain ⟨-, -, htag⟩ := id h
  rw [exec_watchClear, execWatchClear]
  refine congrArg _ ((State.arrive_taken h (takenFormatted_has hm) ..).trans ?_)
  rw [State.watchClearOwn, if_neg (Nat.not_le.2 hw)]
  exact State.finish_admit (s := s.setWindow w none) htag ..

end

/-- Settles O28. -/
theorem watch_set_clear_result : Obligations.Watch_set_clear_result := by
  refine ⟨fun s tag w mode lo hi h hm => ⟨exec_watchSet_refused h hm, fun hw => ?_⟩, fun s tag w m lo hi h hm hw =>
    ⟨fun hle hlo => exec_watchSet_accepted h hm hw hle hlo, _, exec_watchClear_accepted h hm hw, rfl, rfl, ?_, rfl, rfl,
      rfl, rfl⟩⟩
  · rw [exec_watchClear, execWatchClear]
    refine congrArg _ (State.arrive_answered h (takenFormatted_has hm) _ ?_)
    exact if_pos hw
  · intro bd hbd
    obtain ⟨x, -, rfl⟩ := List.mem_map.1 hbd
    rfl

/-! ### A run of the qualification (R136) -/

/-- PRESSURE judged after a band left the pool: what it is then, and its event (R28). -/
theorem State.judgePressureOn_eq (s : State) :
    ∃ pressure evu out, s.judgePressureOn = { s with
      btu := { s.btu with pressure := pressure }, evu := evu, flu := { s.flu with outbound := out } } := by
  unfold State.judgePressureOn
  split
  · obtain ⟨out, hout⟩ := ({ s with btu := { s.btu with pressure := true } } : State).raise_eq .pressureOn s.freeCount
    exact ⟨_, _, out, hout⟩
  · exact ⟨s.btu.pressure, s.evu, s.flu.outbound, rfl⟩

/-- The operation of the current track's run (R136, R137). -/
def State.qualRun (s : State) (q : Qual) (first count : Nat) : MediaOp :=
  { id := 0, cls := .qualify, isWrite := decide (q.pass = .write), target := .band q.band
    track := (s.geo q.band).track0 + q.track, first := first, count := count, place := first, origin := .qual }

/-- A run of the current track joins QUALIFY and becomes the current run, and nothing else changes: it counts no
reader (R136, R137, R142). -/
theorem State.queueQual_eq (s : State) (q : Qual) (first count : Nat) :
    s.queueQual q first count = { s with
      qen := { s.qen with qual := some { q with run := some (first, count) } }
      har := s.har.join (s.qualRun q first count) } := by
  have hb : (s.qualRun q first count).bandRead = none := by
    unfold State.qualRun MediaOp.bandRead
    cases decide (q.pass = .write) <;> rfl
  have hr : (s.qualRun q first count).recordRead = none := rfl
  have h : s.queueQual q first count =
      (s.setQual { q with run := some (first, count) }).handOver (s.qualRun q first count) := rfl
  rw [h, State.handOver_eq]
  simp only [Btu.countRead, Slu.countRead, hb, hr]
  rfl

/-- A qualification's next run in its queue, behind those that were there (R136, R142). -/
theorem Har.map_queue_join_self {α : Type} {g : MediaOp → α} (hg : ∀ (o : MediaOp) (id : Nat), g (o.fresh id) = g o)
    (h : Har) (o : MediaOp) : ((h.join o).queue o.cls).map g = (h.queue o.cls).map g ++ [g o] := by
  simp [Har.queue_join, hg]

/-! ### QUALIFY (R134) -/

theorem exec_qualify (tag b threshold marks : Nat) (s : State) :
    exec (.qualify tag b threshold marks) s = execQualify tag b threshold marks s := rfl

/-- A granted entry into qualification: the band QUALIFYING with its prior state, PRESSURE judged where it left the
pool (R28, R35). -/
theorem State.enterQualifying_eq (s : State) (bd : Band) :
    ∃ pressure evu out, s.enterQualifying bd = { s with
      btu := { (s.updBand bd.number fun x => { x with state := .qualifying, prior := some bd.state }).btu with
        pressure := pressure }
      evu := evu, flu := { s.flu with outbound := out } } := by
  unfold State.enterQualifying
  dsimp only
  split
  · exact State.judgePressureOn_eq _
  · exact ⟨s.btu.pressure, s.evu, s.flu.outbound, rfl⟩

section
variable {s : State} {tag b threshold marks : Nat} {bd : Band}

/-- A QUALIFY refused in ONLINE with a status (R134). -/
theorem exec_qualify_refused {st : Status} (h : s.admitsTag tag) (hm : s.ctl.mode = .online)
    (hown : ∀ u : State, u.btu = s.btu → u.qen = s.qen → u.mpt = s.mpt →
      u.qualifyOwn tag b threshold marks = u.refuse tag st) :
    exec (.qualify tag b threshold marks) s = .next (s.answered codeQualify tag false st []) := by
  rw [exec_qualify, execQualify]
  refine congrArg _ (State.arrive_answered h (by rw [hm]; rfl) _ ?_)
  exact hown _ rfl rfl rfl

/-- A QUALIFY whose arguments, engine and port are good is answered as the BTU says (R35, R134). -/
theorem State.qualifyOwn_eq (hb : s.band? b = some bd) (hk : marks < 2) (hq : s.qen.qual = none) (hup : s.mpt.up = true) :
    s.qualifyOwn tag b threshold marks = match s.qualifyAnswer bd with
      | .done => s.acceptQualify tag bd (if marks = 1 then threshold else 0)
      | st => s.refuse tag st := by
  simp only [State.qualifyOwn, hb, hq, hup, if_neg (Nat.not_le.2 hk)]
  rfl

end

/-- What an accepted QUALIFY makes of the part: its record, its first run, its band and its reply (R134 to R136). -/
theorem State.acceptQualify_spec {s : State} {tag code threshold : Nat} {bd : Band} (htag : ∀ e ∈ s.rqu.entries, e.tag ≠ tag) :
    ∃ pressure evu out held, (s.ready.admitRequest code tag).acceptQualify tag bd threshold = { s with
      residue := s.residue + 1
      btu := { (s.updBand bd.number fun x => { x with state := .qualifying, prior := some bd.state }).btu with
        pressure := pressure }
      evu := evu
      qen := { s.qen with
        qual := some { band := bd.number, threshold := threshold, run := some (0, (s.geo bd.number).spt) }
        buffer := trackPattern bd.number 0 (s.geo bd.number).spt }
      har := s.har.join (s.qualRun { band := bd.number, threshold := threshold } 0 (s.geo bd.number).spt)
      rqu := { s.rqu with admission := (s.rqu.admission + 1) % 2 ^ 64, held := held }
      flu := { s.flu with
        assembler := .ready, held := []
        outbound := out ++ [replyFrame code tag false .done [.num 4 bd.number, .num 2 threshold, .num 2 0]] } } := by
  obtain ⟨pressure, evu, out, hent⟩ := (s.ready.admitRequest code tag).enterQualifying_eq bd
  refine ⟨pressure, evu, out, s.rqu.held.filter fun u => decide (u ≠ tag), ?_⟩
  rw [State.acceptQualify, hent, State.startTrackWrite, State.queueQual_eq,
    State.finish_last (es := s.rqu.entries) (e := s.ready.newRequest code tag) rfl htag rfl]
  rfl

/-- Settles O35. -/
theorem qualify_accepted : Obligations.Qualify_accepted := by
  refine ⟨fun s tag b threshold marks h => ⟨fun hm => ?_, fun hm => ⟨fun hlt => ?_, fun bd hb => ?_⟩⟩,
    fun s tag b threshold bd marks h hm hb hnum hq hup hst => ?_⟩
  · rw [exec_qualify, execQualify]
    refine congrArg _ (State.arrive_not_taken h ?_ ..)
    cases hmode : s.ctl.mode with
    | online => exact absurd hmode hm
    | unformatted => rfl
    | quiescing => rfl
    | quiesced => rfl
  · refine exec_qualify_refused h hm fun u hbtu _ _ => ?_
    have hnone : u.band? b = none := by rw [State.band?, hbtu]; exact List.getElem?_eq_none hlt
    simp only [State.qualifyOwn, hnone]
  · have hband (u : State) (hu : u.btu = s.btu) : u.band? b = some bd := (State.band?_congr (by rw [hu]) b).trans hb
    have hfree (u : State) (hu : u.btu = s.btu) : u.freeCount = s.freeCount := State.freeCount_congr (by rw [hu])
    refine ⟨fun hk => ?_, fun hk hq => ?_, fun hk hq hup => ?_, fun hk hq hup he hle => ?_, fun hk hq hup he hr => ?_⟩
    · refine exec_qualify_refused h hm fun u hbtu _ _ => ?_
      simp only [State.qualifyOwn, hband u hbtu, if_pos hk]
    · refine exec_qualify_refused h hm fun u hbtu hqen _ => ?_
      have hsome : u.qen.qual.isSome = true := by rw [hqen]; exact Option.isSome_iff_ne_none.2 hq
      simp only [State.qualifyOwn, hband u hbtu, if_neg (Nat.not_le.2 hk), if_pos hsome]
    · refine exec_qualify_refused h hm fun u hbtu hqen hmpt => ?_
      simp [State.qualifyOwn, hband u hbtu, Nat.not_le.2 hk, hqen, hq, hmpt, hup]
    · refine exec_qualify_refused h hm fun u hbtu hqen hmpt => ?_
      have hans : u.qualifyAnswer bd = .noSpace := by
        simp only [State.qualifyAnswer, he, hfree u hbtu, hbtu]
        exact if_neg (by omega)
      rw [State.qualifyOwn_eq (hband u hbtu) hk (by rw [hqen, hq]) (by rw [hmpt, hup]), hans]
    · refine exec_qualify_refused h hm fun u hbtu hqen hmpt => ?_
      have hans : u.qualifyAnswer bd = .wrongState := by
        unfold State.qualifyAnswer
        split <;> simp_all
      rw [State.qualifyOwn_eq (hband u hbtu) hk (by rw [hqen, hq]) (by rw [hmpt, hup]), hans]
  · obtain ⟨-, -, htag⟩ := id h
    have hans : (s.ready.admitRequest codeQualify tag).qualifyAnswer bd = .done := by
      rcases hst with hst | ⟨hst, hfree⟩
      · simp only [State.qualifyAnswer, hst]
      · simp only [State.qualifyAnswer, hst]
        exact if_pos hfree
    have hthr : (if marks.toNat = 1 then threshold else 0) = if marks then threshold else 0 := by cases marks <;> rfl
    obtain ⟨pressure, evu, out, held, hacc⟩ := State.acceptQualify_spec (code := codeQualify)
      (threshold := if marks then threshold else 0) (bd := bd) htag
    have hexec : exec (.qualify tag b threshold marks.toNat) s =
        .next ((s.ready.admitRequest codeQualify tag).acceptQualify tag bd (if marks then threshold else 0)) := by
      rw [exec_qualify, execQualify]
      refine congrArg _ ((State.arrive_taken h (by rw [hm]; rfl) ..).trans ?_)
      rw [State.qualifyOwn_eq (s := s.ready.admitRequest codeQualify tag) hb (by cases marks <;> decide) hq hup, hans, hthr]
    rw [hacc, hnum] at hexec
    refine ⟨_, hexec, ?_, rfl, ?_, List.getLast?_concat, rfl, rfl, rfl, rfl⟩
    · refine (s.band?_updBand b b _).trans ?_
      simp [hb]
    · exact Har.map_queue_join_self (fun _ _ => rfl) s.har _

end Sys2Proof.Machine
end

section
namespace Sys2Proof.Machine

/-! ### Notices that go out last (R82) -/

/-- An event is shown: its flag is set, with this detail (R177). -/
def Evu.Shows (v : Evu) (e : EventFlag) (d : Nat) : Prop :=
  v.flags.getLsbD e.index.val = true ∧ v.details[e.index.val] = d

/-- The WRITE_FAULT notices change the events and the outbound queue alone, and no other event (R82, R177). -/
theorem State.raiseEnded_eq (s : State) (rs : List Recovery) :
    ∃ v out, s.raiseEnded rs = { s with evu := v, flu := { s.flu with outbound := out } }
      ∧ v.windows = s.evu.windows ∧ v.watchQueue = s.evu.watchQueue
      ∧ ∀ e d, e ≠ .writeFault → s.evu.Shows e d → v.Shows e d := by
  unfold State.raiseEnded
  generalize rs.filter _ = l
  induction l generalizing s with
  | nil => exact ⟨s.evu, s.flu.outbound, rfl, rfl, rfl, fun _ _ _ h => h⟩
  | cons r l ih =>
    obtain ⟨out, hout⟩ := s.raise_eq .writeFault r.band
    obtain ⟨v, out', hl, hwin, hqueue, hshows⟩ := ih (s.raise .writeFault r.band)
    rw [List.foldl_cons, hl]
    rw [hout] at hwin hqueue hshows ⊢
    exact ⟨v, out', rfl, hwin, hqueue, fun e d hne h => hshows e d hne (Evu.set_other (Ne.symm hne) h _)⟩

/-! ### Work on the head of a stream that has an open band (R67, R68) -/

theorem State.setStream_self (s : State) (n : Fin 9) : s.setStream n (s.stream n) = s := by
  simp [State.setStream, State.stream]

theorem State.setStream_setStream (s : State) (n : Fin 9) (x y : Stream) :
    (s.setStream n x).setStream n y = s.setStream n y := by
  simp [State.setStream]

theorem State.stream_setStream_self (s : State) (n : Fin 9) (x : Stream) : (s.setStream n x).stream n = x := by
  rw [State.stream_setStream, if_pos rfl]

/-- The next run of the item being written changes the HAR alone: a write counts no reader (R68, R142). -/
theorem State.queueRun_har (s : State) (n : Fin 9) : ∃ h, s.queueRun n = { s with har := h } := by
  unfold State.queueRun
  dsimp only
  split
  · split
    · exact ⟨_, State.handOver_write rfl rfl⟩
    · exact ⟨s.har, rfl⟩
  · exact ⟨s.har, rfl⟩

/-- A re-placement whose source slot no longer holds its granule, which no fault put back (R67). -/
theorem State.stale_iff {s : State} {it : Item} :
    s.stale it = true ↔ it.faulted = false ∧ ∃ src, it.work = .replace src ∧ s.slotLiveFor src it.lgn = false := by
  cases hw : it.work <;> simp [State.stale, hw]

theorem State.not_stale_iff {s : State} {it : Item} :
    s.stale it = false ↔
      it.faulted = true ∨ it.work.isReplace = false ∨ ∃ src, it.work = .replace src ∧ s.slotLiveFor src it.lgn = true := by
  cases hw : it.work with
  | replace src => cases hf : it.faulted <;> simp [State.stale, hw, hf, Work.isReplace]
  | store t p => simp [State.stale, hw, Work.isReplace]
  | fold q ps => simp [State.stale, hw, Work.isReplace]
  | clean src => simp [State.stale, hw, Work.isReplace]

/-- What work on the head of a stream with an open band makes of the stream record: items leave its head, each of them
stale, and its settings, its open band and its exposed set stay (R67, R68). -/
structure Stream.Worked (x y : Stream) (stale : Item → Bool) : Prop where
  openBand : y.openBand = x.openBand
  openPending : y.openPending = x.openPending
  exposed : y.exposed = x.exposed
  lo : y.lo = x.lo
  hi : y.hi = x.hi
  fifo : ∃ gone, x.fifo = gone ++ y.fifo ∧ ∀ it ∈ gone, stale it = true

/-- Work on the head of a stream with an open band: stale re-placements leave, and the first item that is not stale is
being written (R67, R68). -/
theorem State.pumpFor_open {s : State} {n : Fin 9} {b : Nat} (hb : (s.stream n).openBand = some b) (fuel : Nat) :
    ∃ x h, s.pumpFor n fuel = { s.setStream n x with har := h } ∧ (s.stream n).Worked x s.stale
      ∧ (s.mpt.up = true → (s.stream n).writing = none → (s.stream n).openPending = false →
        (s.stream n).fifo.length < fuel → ∀ it items, x.fifo = it :: items →
          x.writing = some (slotsBehind (s.frontier b)) ∧ s.stale it = false)
      ∧ ((s.stream n).fifo = [] → h = s.har ∧ x = s.stream n) := by
  have hsame : s = { s.setStream n (s.stream n) with har := s.har } := by rw [State.setStream_self]
  have hworked : (s.stream n).Worked (s.stream n) s.stale := ⟨rfl, rfl, rfl, rfl, rfl, [], rfl, by simp⟩
  induction fuel generalizing s with
  | zero => exact ⟨_, _, hsame, hworked, fun _ _ _ h => absurd h (Nat.not_lt_zero _), fun _ => ⟨rfl, rfl⟩⟩
  | succ fuel ih =>
    by_cases hbusy : (s.stream n).writing.isSome = true ∨ (s.stream n).openPending = true
    · rw [State.pumpFor_busy hbusy]
      refine ⟨_, _, hsame, hworked, fun _ hw hp => ?_, fun _ => ⟨rfl, rfl⟩⟩
      simp [hw, hp] at hbusy
    · obtain ⟨hwr, hpend⟩ : (s.stream n).writing = none ∧ (s.stream n).openPending = false := by simpa using hbusy
      cases hf : (s.stream n).fifo with
      | nil =>
        rw [State.pumpFor_empty hf]
        refine ⟨_, _, hsame, hworked, fun _ _ _ _ it items h => ?_, fun _ => ⟨rfl, rfl⟩⟩
        simp [hf] at h
      | cons it rest =>
        by_cases hup : s.mpt.up = true
        · by_cases hst : s.stale it = true
          · have hdrop : s.dropHead n = s.setStream n ((s.stream n).keeping rest) := by
              rw [State.dropHead, State.updStream, hf]; rfl
            have hnext : (s.setStream n ((s.stream n).keeping rest)).stream n = (s.stream n).keeping rest :=
              s.stream_setStream_self ..
            obtain ⟨x, h, heq, hx, hplace, -⟩ := ih (s := s.setStream n ((s.stream n).keeping rest))
              (by rw [hnext]; exact hb) (by rw [State.setStream_self])
              ⟨rfl, rfl, rfl, rfl, rfl, [], rfl, by simp⟩
            rw [hnext] at hx hplace
            refine ⟨x, h, ?_, ⟨hx.openBand, hx.openPending, hx.exposed, hx.lo, hx.hi, ?_⟩, fun hup' hw' hp' hlt => ?_, ?_⟩
            · have hstep : s.pumpFor n (fuel + 1) = (s.dropHead n).pumpFor n fuel := by
                simp [State.pumpFor, hwr, hpend, hf, hb, hup, hst]
              rw [hstep, hdrop, heq, State.setStream_setStream]
            · obtain ⟨gone, hgone, hall⟩ := hx.fifo
              refine ⟨it :: gone, ?_, ?_⟩
              · rw [hf]; exact congrArg (it :: ·) hgone
              · simp only [List.mem_cons, forall_eq_or_imp]
                exact ⟨hst, hall⟩
            · refine hplace hup' hw' hp' ?_
              simp only [List.length_cons] at hlt
              exact Nat.lt_of_succ_lt_succ hlt
            · intro h; simp at h
          · have hst : s.stale it = false := by simpa using hst
            rw [State.pumpFor_place hwr hpend hf hb hup hst]
            obtain ⟨h, hrun⟩ := (s.updStream n fun x =>
              { x with writing := some (slotsBehind (s.frontier b)) }).queueRun_har n
            refine ⟨{ s.stream n with writing := some (slotsBehind (s.frontier b)) }, h, hrun,
              ⟨rfl, rfl, rfl, rfl, rfl, [], rfl, by simp⟩, fun _ _ _ _ it' items h' => ?_, fun h => by simp at h⟩
            obtain ⟨rfl, -⟩ : it = it' ∧ rest = items := by simpa [hf] using h'
            exact ⟨rfl, hst⟩
        · have hstep : s.pumpFor n (fuel + 1) = s := by simp [State.pumpFor, hwr, hpend, hf, hb, hup]
          rw [hstep]
          exact ⟨_, _, hsame, hworked, fun hup' => absurd hup' hup, fun h => by simp at h⟩

/-- Work on the head of a stream with an open band, its notices told: what it leaves of the part (R67, R68, R82). -/
theorem State.pump_open {s : State} {n : Fin 9} {b : Nat} (hb : (s.stream n).openBand = some b) :
    ∃ x h v out, s.pump n = { s.setStream n x with har := h, evu := v, flu := { s.flu with outbound := out } }
      ∧ (s.stream n).Worked x s.stale
      ∧ (s.mpt.up = true → (s.stream n).writing = none → (s.stream n).openPending = false →
        ∀ it items, x.fifo = it :: items → x.writing = some (slotsBehind (s.frontier b)) ∧ s.stale it = false)
      ∧ ((s.stream n).fifo = [] → h = s.har)
      ∧ (∀ e d, e ≠ .writeFault → s.evu.Shows e d → v.Shows e d) := by
  obtain ⟨x, h, heq, hx, hplace, hnone⟩ := State.pumpFor_open hb ((s.stream n).fifo.length + 2)
  obtain ⟨v, out, hended, -, -, hshows⟩ := (s.goOn n).raiseEnded_eq s.recoveries
  rw [State.goOn, heq] at hended hshows
  refine ⟨x, h, v, out, ?_, hx, fun hup hw hp => hplace hup hw hp (by omega), fun hf => (hnone hf).1, hshows⟩
  rw [State.pump, State.goOn, heq]
  exact hended

/-! ### An open granted to the oldest waiter (R26) -/

/-- What an open made of a state is not changed by later work that leaves the bands, PRESSURE and the stream's open band
alone and tells no event but WRITE_FAULT. -/
theorem State.Opened.later {s t t' : State} {n : Fin 9} {b : Nat} {bd : Band} (h : s.Opened t n b bd)
    (hbtu : t'.btu = t.btu) (hopen : (t'.stream n).openBand = (t.stream n).openBand)
    (hpend : (t'.stream n).openPending = (t.stream n).openPending)
    (hevu : ∀ e d, e ≠ .writeFault → t.evu.Shows e d → t'.evu.Shows e d) : s.Opened t' n b bd := by
  have hband (k : Nat) : t'.band? k = t.band? k := State.band?_congr (by rw [hbtu]) k
  have hfree : t'.freeCount = t.freeCount := State.freeCount_congr (by rw [hbtu])
  obtain ⟨hb, hk, ho, hp, hpr, hon, hspill⟩ := h
  refine ⟨by rw [hband, hb], fun k hne => by rw [hband, hk k hne], by rw [hopen, ho], by rw [hpend, hp],
    by rw [hbtu, hfree, hpr], fun h1 h2 => ?_, fun h1 => ?_⟩
  · rw [hfree] at h2 ⊢
    exact hevu .pressureOn _ (by simp) (hon h1 h2)
  · exact hevu .streamSpill _ (by simp) (hspill h1)

/-- An open changes no band's slots: what a slot holds is as before (R27). -/
theorem State.slotLiveFor_of_opened {s t : State} {n : Fin 9} {b : Nat} {bd : Band} (hb : s.band? b = some bd)
    (h : s.Opened t n b bd) (src : Home) (lgn : Nat) : t.slotLiveFor src lgn = s.slotLiveFor src lgn := by
  obtain ⟨hself, hother, -⟩ := h
  by_cases hk : src.band = b
  · simp only [State.slotLiveFor, hk, hself, hb]
  · simp only [State.slotLiveFor, hother src.band hk]

/-- An open leaves the waiting opens alone. -/
theorem State.openWait_grantBand (s : State) (n : Fin 9) (b : Nat) (spill : Bool) :
    (s.grantBand n b spill).btu.openWait = s.btu.openWait := by
  obtain ⟨-, -, -, -, -, -, hbtu⟩ := s.raiseSpill_frame n spill
  obtain ⟨pressure, evu, out, hj⟩ := ((s.raiseSpill n spill).openFor n b).judgePressureOn_eq
  rw [State.grantBand_eq, hj]
  show (s.raiseSpill n spill).btu.openWait = s.btu.openWait
  rw [hbtu]

theorem exec_openWaitGrant (s : State) : exec .openWaitGrant s = execOpenWaitGrant s := rfl

/-- Settles O42: the grant, then the work on the stream's head. -/
theorem open_wait_granted : Obligations.Open_wait_granted := by
  intro s n rest b bd hs hwait htakes
  obtain ⟨hb, hempty, -⟩ := id htakes
  obtain ⟨spill, hpick, hspill⟩ := State.pickBand_of_takes
    (s := { s with btu := { s.btu with openWait := rest } }) hs htakes
  obtain ⟨u, hu⟩ : ∃ u, u = ({ s with btu := { s.btu with openWait := rest } } : State).grantBand n b spill := ⟨_, rfl⟩
  have hop : s.Opened u n b bd := hu ▸ State.opened_grantBand
    (s := { s with btu := { s.btu with openWait := rest } }) hb hspill
  have hwait' : u.btu.openWait = rest := hu ▸ State.openWait_grantBand _ n b spill
  obtain ⟨hhar, -, hgmu, hslu, hmpt, -, hstream, -⟩ :=
    hu ▸ ({ s with btu := { s.btu with openWait := rest } } : State).grantBand_frame n b spill
  have hstream : u.stream n = { s.stream n with openBand := some b, openPending := false } := hstream
  have hexec : exec .openWaitGrant s = .next (u.pump n) := by
    rw [exec_openWaitGrant, execOpenWaitGrant, hwait, hu]
    simp only [if_neg (State.freeCount_pos hb hempty), State.grantOpen, hpick]
  obtain ⟨x, h, v, out, hpump, hx, hplace, hnone, hshows⟩ := State.pump_open (s := u) (n := n) (b := b) (by rw [hstream])
  have hx' : (u.pump n).stream n = x := by rw [hpump]; exact u.stream_setStream_self n x
  rw [hpump] at hexec hx'
  refine ⟨_, hexec, hwait', hop.later rfl (by rw [hx', hx.openBand]) (by rw [hx', hx.openPending]) hshows,
    fun hup hwr => ?_, hgmu, hslu, hmpt, fun hf => (hnone (by rw [hstream]; exact hf)).trans hhar⟩
  obtain ⟨gone, hgone, hall⟩ := hx.fifo
  rw [hstream] at hgone hplace
  have hfr : u.frontier b = bd.frontier := by rw [State.frontier, hop.1]; rfl
  refine ⟨gone, by rw [hx']; exact hgone, fun it hit => ?_, fun it items hit => ?_⟩
  · have := State.stale_iff.1 (hall it hit)
    simpa only [State.slotLiveFor_of_opened hb hop] using this
  · rw [hx'] at hit ⊢
    obtain ⟨hw, hst⟩ := hplace ((congrArg Mpt.up hmpt).trans hup) hwr rfl it items hit
    rw [hfr] at hw
    refine ⟨hw, ?_⟩
    have := State.not_stale_iff.1 hst
    simpa only [State.slotLiveFor_of_opened hb hop] using this

end Sys2Proof.Machine
end

section
namespace Sys2Proof.Machine

/-! ### The SWR takes a STORE for a bare stream (R65, R66) -/

/-- A band that an open took has left the pool (R24, R27). -/
theorem State.freeCount_opened {s t : State} {n : Fin 9} {b : Nat} {bd : Band} (hb : s.band? b = some bd)
    (he : bd.state = .empty) (h : s.Opened t n b bd) : t.freeCount + 1 = s.freeCount := by
  obtain ⟨hself, hother, -⟩ := h
  have hbands : t.btu.bands = (s.updBand b fun _ => { bd with state := .opened, stream := some n }).btu.bands := by
    refine List.ext_getElem? fun k => ?_
    refine Eq.trans ?_ (s.band?_updBand b k _).symm
    by_cases hk : k = b
    · rw [hk]; refine hself.trans ?_; simp [hb]
    · refine (hother k hk).trans ?_; simp [Ne.symm hk]
  have hcount := State.freeCount_updBand hb fun _ => { bd with state := .opened, stream := some n }
  rw [State.freeCount_congr hbands]
  simpa [Band.isFree, he] using hcount

/-- An open changes the record of its own stream alone (R27). -/
theorem State.stream_grantBand_of_ne {s : State} {n : Fin 9} {b : Nat} {spill : Bool} (m : Fin 9) (hm : m ≠ n) :
    (s.grantBand n b spill).stream m = s.stream m := by
  obtain ⟨hswr, -⟩ := ((s.raiseSpill n spill).openFor n b).judgePressureOn_frame
  obtain ⟨hswr', -⟩ := s.raiseSpill_frame n spill
  have hopen : ((s.raiseSpill n spill).openFor n b).stream m = (s.raiseSpill n spill).stream m := by
    rw [State.openFor, State.stream_updStream, if_neg hm]
    rfl
  rw [State.grantBand_eq]
  refine (congrArg (fun x => x.streams[m.val]) hswr :).trans (hopen.trans ?_)
  exact congrArg (fun x => x.streams[m.val]) hswr'

section
variable {s : State} {e : Entry} {lgn b : Nat} {bd : Band}

/-- The state in which the SWR goes on with the STORE at its stream's tail (R65). -/
def State.withItem (s : State) (e : Entry) (lgn : Nat) : State :=
  s.updStream (streamOf e.stream) fun x => { x with fifo := x.fifo ++ [e.placedItem lgn] }

theorem State.takeStore_pump (hup : s.mpt.up = true) (hlgns : e.lgns = some (lgn, lgn)) :
    s.takeStore e = (s.withItem e lgn).pump (streamOf e.stream) := State.takeStore_up hup hlgns

theorem State.stream_withItem (s : State) (e : Entry) (lgn : Nat) (m : Fin 9) :
    (s.withItem e lgn).stream m = if m = streamOf e.stream then { s.stream (streamOf e.stream) with
      fifo := (s.stream (streamOf e.stream)).fifo ++ [e.placedItem lgn] } else s.stream m :=
  s.stream_updStream ..

/-- A STORE that joins a stream whose head is being written waits behind it (R65, R68). -/
theorem State.takeStore_busy (hup : s.mpt.up = true) (hlgns : e.lgns = some (lgn, lgn))
    (hw : (s.stream (streamOf e.stream)).writing.isSome = true) : s.takeStore e = s.withItem e lgn := by
  have hbusy : (s.withItem e lgn).goOn (streamOf e.stream) = s.withItem e lgn := by
    refine State.pumpFor_busy (.inl ?_) _
    rw [State.stream_withItem, if_pos rfl]
    exact hw
  rw [State.takeStore_pump hup hlgns, State.pump, hbusy]
  exact State.raiseEnded_of_recoveries rfl

/-- Under PRESSURE a STORE whose stream has no open band is held, and nothing else changes (R28, R66, R171). -/
theorem State.takeStore_held (hup : s.mpt.up = true) (hlgns : e.lgns = some (lgn, lgn))
    (hbare : s.Bare (streamOf e.stream)) (hpr : s.btu.pressure = true) : s.takeStore e = s.hold e.tag .pressure := by
  obtain ⟨hfifo, hpend, hwr, hopen, hrec⟩ := hbare
  have hst : (s.withItem e lgn).stream (streamOf e.stream) =
      { s.stream (streamOf e.stream) with fifo := [e.placedItem lgn] } := by
    rw [State.stream_withItem, if_pos rfl, hfifo, List.nil_append]
  have hback : (s.withItem e lgn).updStream (streamOf e.stream) (fun x => { x with fifo := [] }) = s :=
    State.updStream_undo (by
      show ({ s.stream (streamOf e.stream) with fifo := [] } : Stream) = s.stream (streamOf e.stream)
      rw [← hfifo])
  have hpump : (s.withItem e lgn).pumpFor (streamOf e.stream) 3 =
      (s.hold e.tag .pressure).pumpFor (streamOf e.stream) 2 := by
    have hpr' : (s.withItem e lgn).btu.pressure = true := hpr
    rw [State.pumpFor, hst]
    simp [hwr, hpend, hopen, hostOpen, Work.isStore, hrec, hpr', hback, Work.tag]
  have hgo : (s.withItem e lgn).goOn (streamOf e.stream) = s.hold e.tag .pressure := by
    rw [State.goOn, hst]
    exact hpump.trans (State.pumpFor_empty (s := s.hold e.tag .pressure) hfifo 2)
  rw [State.takeStore_pump hup hlgns, State.pump, hgo]
  exact State.raiseEnded_of_recoveries (s := s.hold e.tag .pressure)
    (State.recoveries_append (items := [e.placedItem lgn]) (by simp) s _).symm

/-- With PRESSURE clear a STORE whose stream has no open band takes a host open, and the new band's first slot (R25 to
R28, R66, R68). -/
theorem State.takeStore_opened (hup : s.mpt.up = true) (hlgns : e.lgns = some (lgn, lgn))
    (hbare : s.Bare (streamOf e.stream)) (hpr : s.btu.pressure = false) (hs : s.BandsSound) (hwait : s.btu.openWait = [])
    (htakes : s.OpenTakes (streamOf e.stream) b bd) (hfr : bd.frontier = 0) :
    s.Opened (s.takeStore e) (streamOf e.stream) b bd
      ∧ ((s.takeStore e).stream (streamOf e.stream)).fifo = [e.placedItem lgn]
      ∧ ((s.takeStore e).stream (streamOf e.stream)).writing = some 0
      ∧ (∀ m, m ≠ streamOf e.stream → (s.takeStore e).stream m = s.stream m)
      ∧ (s.takeStore e).rqu = s.rqu ∧ (s.takeStore e).gmu = s.gmu ∧ (s.takeStore e).slu = s.slu
      ∧ (s.takeStore e).mpt = s.mpt := by
  obtain ⟨hfifo, hpend, hwr, hopen, hrec⟩ := hbare
  obtain ⟨hb, hempty, -⟩ := id htakes
  have hst : (s.withItem e lgn).stream (streamOf e.stream) =
      { s.stream (streamOf e.stream) with fifo := [e.placedItem lgn] } := by
    rw [State.stream_withItem, if_pos rfl, hfifo, List.nil_append]
  have htakes' : (s.withItem e lgn).OpenTakes (streamOf e.stream) b bd := by
    simp only [State.OpenTakes, State.OpenSpills, hst]
    exact htakes
  obtain ⟨spill, hpick, hspill⟩ := State.pickBand_of_takes (s := s.withItem e lgn) hs htakes'
  have hop := State.opened_grantBand (s := s.withItem e lgn) hb hspill
  obtain ⟨-, hrqu, hgmu, hslu, hmpt, -, hstream, -⟩ := (s.withItem e lgn).grantBand_frame (streamOf e.stream) b spill
  have hothers := (s.withItem e lgn).stream_grantBand_of_ne (b := b) (spill := spill) (n := streamOf e.stream)
  obtain ⟨u, hu⟩ : ∃ u, u = (s.withItem e lgn).grantBand (streamOf e.stream) b spill := ⟨_, rfl⟩
  rw [← hu] at hop hrqu hgmu hslu hmpt hstream
  simp only [← hu] at hothers
  rw [hst] at hstream
  have hop' : s.Opened u (streamOf e.stream) b bd :=
    hop.congr rfl (congrArg Stream.lo hst).symm (congrArg Stream.hi hst).symm rfl rfl rfl rfl
  have hfirst : (s.withItem e lgn).goOn (streamOf e.stream) = u.pumpFor (streamOf e.stream) 2 := by
    have hpr' : (s.withItem e lgn).btu.pressure = false := hpr
    have hwait' : (s.withItem e lgn).btu.openWait = [] := hwait
    have hfree : (s.withItem e lgn).freeCount ≠ 0 := State.freeCount_pos hb hempty
    have hgrant : (s.withItem e lgn).grantOpen (streamOf e.stream) = u := by rw [State.grantOpen, hpick, hu]
    rw [State.goOn, hst]
    show (s.withItem e lgn).pumpFor (streamOf e.stream) 3 = _
    rw [State.pumpFor, hst]
    simp [hwr, hpend, hopen, hpr', hwait', hfree, hgrant]
  obtain ⟨x, h, heq, hx, hplace, -⟩ := State.pumpFor_open (s := u) (n := streamOf e.stream) (b := b) (by rw [hstream]) 2
  obtain ⟨v, out, hended, -, -, hshows⟩ := (u.pumpFor (streamOf e.stream) 2).raiseEnded_eq (s.withItem e lgn).recoveries
  have htake : s.takeStore e = { u.setStream (streamOf e.stream) x with
      har := h, evu := v, flu := { u.flu with outbound := out } } := by
    rw [State.takeStore_pump hup hlgns, State.pump, hfirst, hended, heq]
    rfl
  rw [heq] at hshows
  have hself : (s.takeStore e).stream (streamOf e.stream) = x := by
    rw [htake]; exact u.stream_setStream_self ..
  have hxfifo : x.fifo = [e.placedItem lgn] := by
    obtain ⟨gone, hgone, hall⟩ := hx.fifo
    rw [hstream] at hgone
    cases gone with
    | nil => exact hgone.symm
    | cons it gone =>
      obtain ⟨rfl, -⟩ : e.placedItem lgn = it ∧ [] = gone ++ x.fifo := by simpa using hgone
      have := hall (e.placedItem lgn) (by simp)
      simp [State.stale] at this
  rw [hstream] at hx hplace
  obtain ⟨hw, -⟩ := hplace ((congrArg Mpt.up hmpt).trans hup) hwr rfl (by simp) _ _ hxfifo
  have hufr : u.frontier b = 0 := by rw [State.frontier, hop'.1]; exact hfr
  refine ⟨hop'.later (by rw [htake]; rfl) (by rw [hself, hx.openBand, hstream])
      (by rw [hself, hx.openPending, hstream]) (by rw [htake]; exact hshows), by rw [hself, hxfifo],
    by rw [hself, hw, hufr]; rfl, fun m hm => ?_, by rw [htake]; exact hrqu, by rw [htake]; exact hgmu,
    by rw [htake]; exact hslu, by rw [htake]; exact hmpt⟩
  have hset : (s.takeStore e).stream m = (u.setStream (streamOf e.stream) x).stream m := by rw [htake]; rfl
  rw [hset, State.stream_setStream, if_neg hm, hothers m hm, State.stream_withItem, if_neg hm]

end
end Sys2Proof.Machine
end

section
namespace Sys2Proof.Machine

/-! ### Releases (R98, R172) -/

theorem exec_pressureRelease (s : State) : exec .pressureRelease s = execPressureRelease s := rfl

theorem exec_logRelease (s : State) : exec .logRelease s = execLogRelease s := rfl

/-- A STORE that is ACTIVE again: its hold reason and timer are gone (R172). -/
def Entry.released (e : Entry) : Entry := { e with phase := .active, holdReason := none, holdTimer := none }

/-- A STORE held, with a new timer (R171). -/
def Entry.heldFor (e : Entry) (why : HoldReason) (timeout : Nat) : Entry :=
  { e with phase := .held, holdReason := some why, holdTimer := some timeout }

/-- The state with the one held STORE off the held list and ACTIVE (R172). -/
def State.oneReleased (s : State) (e : Entry) : State :=
  { s with rqu := { s.rqu with
      entries := [e.released], held := s.rqu.held.filter fun u => decide (u ≠ e.tag) } }

section
variable {s : State} {e e' : Entry} {why : HoldReason}

/-- The one held STORE released: it is ACTIVE and off the held list, and goes to its owner (R172). -/
theorem State.release_one (hes : s.rqu.entries = [e]) (hheld : s.heldFor why = [e.tag])
    (take : State → Entry → State) :
    s.release why take = take (s.oneReleased e) e.released := by
  have hun : s.unhold e.tag = s.oneReleased e := by
    rw [State.unhold, State.updEntry_only hes]; rfl
  rw [State.release, hheld, List.foldl_cons, List.foldl_nil, hun, State.releaseEach, List.foldl_cons, List.foldl_nil,
    State.entry?_only (s := s.oneReleased e) (e := e.released) (tag := e.tag) rfl rfl]

/-- The state with two held STOREs off the held list, both ACTIVE (R172). -/
def State.bothReleased (s : State) (e e' : Entry) : State :=
  { s with rqu := { s.rqu with
      entries := [e.released, e'.released], held := s.rqu.held.filter fun u => decide (u ≠ e.tag ∧ u ≠ e'.tag) } }

/-- Two held STOREs released: both leave the held list, then each goes to its owner (R172). -/
theorem State.release_two (hes : s.rqu.entries = [e, e']) (hne : e'.tag ≠ e.tag) (hheld : s.heldFor why = [e.tag, e'.tag])
    {take : State → Entry → State} {t : State} (ht : take (s.bothReleased e e') e.released = t)
    (hrqu : t.rqu = (s.bothReleased e e').rqu) : s.release why take = take t e'.released := by
  have hun : (s.unhold e.tag).unhold e'.tag = s.bothReleased e e' := by
    simp only [State.unhold, State.updEntry, hes, State.bothReleased, List.map_cons, List.map_nil, if_true, if_neg hne,
      if_neg hne.symm, List.filter_filter, Bool.and_comm, Bool.decide_and]
    rfl
  have hfirst : (s.bothReleased e e').entry? e.tag = some e.released := by
    simp [State.entry?, State.bothReleased, Entry.released]
  have hsecond : t.entry? e'.tag = some e'.released := by
    simp [State.entry?, hrqu, State.bothReleased, Entry.released, hne.symm]
  rw [State.release, hheld]
  simp only [List.foldl_cons, List.foldl_nil, State.releaseEach]
  rw [hun, hfirst]
  dsimp only
  rw [ht, hsecond]

end

/-! ### A PRESSURE release -/

section
variable {s : State} {e e' : Entry} {lgn lgn' b : Nat} {bd : Band}

/-- A release of one STORE whose stream has no open band: it takes the band (R25 to R28, R66, R172). -/
theorem exec_pressureRelease_opens (hs : s.BandsSound) (hpr : s.btu.pressure = false) (hwait : s.btu.openWait = [])
    (hup : s.mpt.up = true) (hlgns : e.lgns = some (lgn, lgn)) (hbare : s.Bare (streamOf e.stream))
    (htakes : s.OpenTakes (streamOf e.stream) b bd) (hfr : bd.frontier = 0) (hheld : s.heldFor .pressure = [e.tag])
    (hes : s.rqu.entries = [e]) :
    ∃ t, exec .pressureRelease s = .next t ∧ s.Opened t (streamOf e.stream) b bd
      ∧ (t.stream (streamOf e.stream)).fifo = [e.placedItem lgn] ∧ (t.stream (streamOf e.stream)).writing = some 0
      ∧ t.rqu.entries = [e.released] ∧ t.rqu.held = s.rqu.held.filter (fun u => decide (u ≠ e.tag))
      ∧ t.gmu = s.gmu ∧ t.slu = s.slu ∧ t.mpt = s.mpt := by
  obtain ⟨hop, hfifo, hwr, -, hrqu, hgmu, hslu, hmpt⟩ := State.takeStore_opened
    (s := s.oneReleased e)
    (e := e.released) hup hlgns hbare hpr hs hwait htakes hfr
  refine ⟨_, ?_, hop, hfifo, hwr, congrArg Rqu.entries hrqu, congrArg Rqu.held hrqu, hgmu, hslu, hmpt⟩
  rw [exec_pressureRelease, execPressureRelease, if_pos hpr, State.release_one hes hheld]

/-- Where the first STORE's open brings the free count to R, the second is held again (R28, R66, R171, R172). -/
theorem exec_pressureRelease_holds_again (hs : s.BandsSound) (hpr : s.btu.pressure = false) (hwait : s.btu.openWait = [])
    (hup : s.mpt.up = true) (hlgns : e.lgns = some (lgn, lgn)) (hbare : s.Bare (streamOf e.stream))
    (htakes : s.OpenTakes (streamOf e.stream) b bd) (hfr : bd.frontier = 0)
    (hheld : s.heldFor .pressure = [e.tag, e'.tag]) (hes : s.rqu.entries = [e, e']) (hne : e'.tag ≠ e.tag)
    (hlgns' : e'.lgns = some (lgn', lgn')) (hstream : streamOf e'.stream ≠ streamOf e.stream)
    (hbare' : s.Bare (streamOf e'.stream)) (hfree : s.freeCount = s.btu.reserve + 1) :
    ∃ t, exec .pressureRelease s = .next t ∧ s.Opened t (streamOf e.stream) b bd ∧ t.btu.pressure = true
      ∧ (t.stream (streamOf e.stream)).fifo = [e.placedItem lgn]
      ∧ t.stream (streamOf e'.stream) = s.stream (streamOf e'.stream)
      ∧ t.rqu.entries = [e.released, e'.heldFor .pressure s.rqu.holdTimeout]
      ∧ t.rqu.held = s.rqu.held.filter (fun u => decide (u ≠ e.tag ∧ u ≠ e'.tag)) ++ [e'.tag]
      ∧ t.gmu = s.gmu ∧ t.slu = s.slu ∧ t.mpt = s.mpt := by
  obtain ⟨hb, hempty, -⟩ := id htakes
  obtain ⟨hop, hfifo, -, hothers, hrqu, hgmu, hslu, hmpt⟩ := State.takeStore_opened (s := s.bothReleased e e')
    (e := e.released) hup hlgns hbare hpr hs hwait htakes hfr
  obtain ⟨t, ht⟩ : ∃ t, t = (s.bothReleased e e').takeStore e.released := ⟨_, rfl⟩
  rw [← ht] at hop hfifo hothers hrqu hgmu hslu hmpt
  have hop : s.Opened t (streamOf e.stream) b bd := hop
  have hpressure : t.btu.pressure = true := by
    obtain ⟨-, -, -, -, hiff, -⟩ := id hop
    have := State.freeCount_opened hb hempty hop
    exact hiff.2 (.inr (by omega))
  have hmpt' : t.mpt.up = true := by rw [hmpt]; exact hup
  have hsame : t.stream (streamOf e'.stream) = s.stream (streamOf e'.stream) := hothers _ hstream
  have hbare'' : t.Bare (streamOf e'.released.stream) := by
    show t.Bare (streamOf e'.stream)
    rw [State.Bare, hsame]
    exact hbare'
  have hagain := State.takeStore_held (s := t) (e := e'.released) hmpt' hlgns' hbare'' hpressure
  have hexec : exec .pressureRelease s = .next (t.hold e'.tag .pressure) := by
    rw [exec_pressureRelease, execPressureRelease, if_pos hpr, State.release_two hes hne hheld ht.symm hrqu, hagain]
    rfl
  refine ⟨_, hexec, hop, hpressure, hfifo, hsame, ?_, ?_, hgmu, hslu, hmpt⟩
  · simp [State.hold, hrqu, State.bothReleased, Entry.released, Entry.heldFor, hne.symm]
  · simp [State.hold, hrqu, State.bothReleased]

end

/-! ### A LOG release (R91, R98) -/

/-- A record's write run changes the HAR alone: a write counts no reader (R92, R142). -/
theorem State.queueStaged_har (s : State) (p tag off : Nat) : ∃ h, s.queueStaged p tag off = { s with har := h } := by
  unfold State.queueStaged
  split
  · split
    · exact ⟨_, State.handOver_write rfl rfl⟩
    · exact ⟨s.har, rfl⟩
  · exact ⟨s.har, rfl⟩

section
variable {s : State} {e : Entry} {lgn f n : Nat}

/-- A partial STORE whose granule has room for an overlay is judged for admission (R90). -/
theorem State.takePartial_judged (hup : s.mpt.up = true) (hlgns : e.lgns = some (lgn, lgn))
    (ho : (s.entryOf lgn).overlays < 8) : s.takePartial e = s.judgeAdmission e := by
  have hlimit : ¬ Config.overlayLimit ≤ (s.entryOf lgn).overlays := Nat.not_le.2 ho
  simp [State.takePartial, hup, hlgns, hlimit]

/-- A record that fits joins the directory at the tail (R91, R92). -/
theorem State.judgeAdmission_fits (hlgns : e.lgns = some (lgn, lgn)) (hrange : e.range = some (f, n))
    (hheld : s.slu.logHeld = false) (hroom : s.slu.used + (n + 1) ≤ softLimit s.slu.area) (hdir : s.slu.dir.length < 14336) :
    (s.judgeAdmission e).slu.dir = s.slu.dir ++
        [⟨s.slu.tail, n + 1, lgn, f, n, e.sequence.getD 0, e.stream, (s.entryOf lgn).newest, .writing, 0⟩]
      ∧ (s.judgeAdmission e).rqu = s.rqu ∧ (s.judgeAdmission e).btu = s.btu ∧ (s.judgeAdmission e).swr = s.swr
      ∧ (s.judgeAdmission e).mpt = s.mpt := by
  have hadm : s.slu.admits (n + 1) = true := by
    have : s.slu.dir.length < Config.dirSoftLimit := hdir
    simp [Slu.admits, hheld, hroom, this]
  have hjudge : s.judgeAdmission e =
      s.appendRecord e.tag lgn f n (e.sequence.getD 0) e.stream (s.entryOf lgn).newest false := by
    simp [State.judgeAdmission, hlgns, hrange, hadm]
  rw [hjudge, State.appendRecord]
  dsimp only
  obtain ⟨h, hh⟩ := State.queueStaged_har _ s.slu.tail e.tag 0
  rw [hh]
  exact ⟨rfl, rfl, rfl, rfl, rfl⟩

/-- A record that does not fit: LOG_FULL, the log-held condition, and the STORE is held (R91, R171). -/
theorem State.judgeAdmission_full (hrange : e.range = some (f, n))
    (hfull : softLimit s.slu.area < s.slu.used + (n + 1) ∨ 14336 ≤ s.slu.dir.length) :
    s.judgeAdmission e =
      (({ s with slu := { s.slu with logHeld := true } } : State).raise .logFull s.slu.used).hold e.tag .log := by
  have hadm : s.slu.admits (n + 1) = false := by
    rcases hfull with h | h
    · simp [Slu.admits, Nat.not_le.2 h]
    · have : ¬ s.slu.dir.length < Config.dirSoftLimit := Nat.not_lt.2 h
      simp [Slu.admits, this]
  simp [State.judgeAdmission, hrange, hadm]

end

/-- Settles O24: the releases of one STORE and of two for PRESSURE, then those for LOG. -/
theorem pressure_and_log_release : Obligations.Pressure_and_log_release := by
  refine ⟨fun s tag lgn e hpr hheld hes htag hlgns hup hw => ?_, fun s hpr => ?_,
    fun s lgn b e bd hs hpr hwait hup hlgns hbare htakes hfr =>
      ⟨fun hheld hes => exec_pressureRelease_opens hs hpr hwait hup hlgns hbare htakes hfr hheld hes,
        fun e' lgn' hheld hes hne hlgns' hst hbare' hfree =>
          exec_pressureRelease_holds_again hs hpr hwait hup hlgns hbare htakes hfr hheld hes hne hlgns' hst hbare' hfree⟩,
    fun s tag lgn f n e hlog hheld hes htag hlgns hrange hup ho => ?_⟩
  · subst htag
    have hexec : exec .pressureRelease s = .next ((s.oneReleased e).withItem e.released lgn) := by
      rw [exec_pressureRelease, execPressureRelease, if_pos hpr, State.release_one hes hheld,
        State.takeStore_busy (s := s.oneReleased e) (e := e.released) hup hlgns hw]
    have hst := (s.oneReleased e).stream_withItem e.released lgn (streamOf e.stream)
    exact ⟨_, hexec, congrArg Stream.fifo (hst.trans (if_pos rfl)), rfl, rfl, rfl, rfl, rfl, rfl, rfl, rfl⟩
  · rw [exec_pressureRelease, execPressureRelease, if_neg (by simp [hpr])]
  · subst htag
    have hexec : exec .logRelease s = .next ((s.oneReleased e).judgeAdmission e.released) := by
      rw [exec_logRelease, execLogRelease, if_pos hlog, State.release_one hes hheld,
        State.takePartial_judged (s := s.oneReleased e) (e := e.released) hup hlgns ho]
    refine ⟨fun ⟨hroom, hdir⟩ => ?_, fun hfull => ?_⟩
    · obtain ⟨hd, hrqu, hbtu, hswr, hmpt⟩ := State.judgeAdmission_fits (s := s.oneReleased e) (e := e.released) hlgns
        hrange hlog hroom hdir
      exact ⟨_, hexec, hd, congrArg Rqu.entries hrqu, congrArg Rqu.held hrqu, hbtu, hswr, hmpt⟩
    · obtain ⟨u, hu⟩ : ∃ u : State, u = { s.oneReleased e with slu := { s.slu with logHeld := true } } := ⟨_, rfl⟩
      obtain ⟨out, hout⟩ := u.raise_eq .logFull s.slu.used
      have hjudge : (s.oneReleased e).judgeAdmission e.released = (u.raise .logFull s.slu.used).hold e.tag .log :=
        (State.judgeAdmission_full (s := s.oneReleased e) (e := e.released) hrange hfull).trans (by rw [hu]; rfl)
      rw [hjudge, hout, hu] at hexec
      refine ⟨_, hexec, rfl, ?_, rfl, rfl, (Evu.set_self s.evu .logFull s.slu.used).2, rfl, rfl, rfl, rfl⟩
      simp [State.hold, State.oneReleased, Entry.released]

end Sys2Proof.Machine
end

section
namespace Sys2Proof.Machine

/-! ### The end of a qualification (R36, R138) -/

theorem State.band?_raise (s : State) (e : EventFlag) (d k : Nat) : (s.raise e d).band? k = s.band? k :=
  State.band?_congr (by rw [State.raise_btu]) k

/-- What the end of a qualification of band `b` in the BTU leaves alone, and PRESSURE cleared by it is told (R29, R36). -/
structure State.QualLeft (s t : State) (b : Nat) : Prop where
  frame : ∃ bands pressure v out, t = { s with
    btu := { s.btu with bands := bands, pressure := pressure }, evu := v, flu := { s.flu with outbound := out } }
  other : ∀ k, k ≠ b → t.band? k = s.band? k
  told : s.btu.pressure = true → t.btu.pressure = false → t.evu.Shows .pressureOff t.freeCount

section
variable {s : State} {b : Nat} {bd : Band}

/-- A band's record is replaced and PRESSURE judged: what that leaves alone, and what PRESSURE is then (R29). -/
theorem State.judged_qualLeft (s : State) (b : Nat) (f : Band → Band) :
    s.QualLeft (s.updBand b f).judgePressureOff b
      ∧ (∀ k, (s.updBand b f).judgePressureOff.band? k = (s.updBand b f).band? k)
      ∧ ((s.updBand b f).judgePressureOff.btu.pressure = true ↔
        s.btu.pressure = true ∧ (s.updBand b f).judgePressureOff.freeCount < s.btu.reserve + 2) := by
  obtain ⟨out, hout⟩ := (s.updBand b f).judgePressureOff_eq
  have hband (k : Nat) : (s.updBand b f).judgePressureOff.band? k = (s.updBand b f).band? k :=
    State.band?_congr (by rw [hout]) k
  have hfree : (s.updBand b f).judgePressureOff.freeCount = (s.updBand b f).freeCount :=
    State.freeCount_congr (by rw [hout])
  have hpr : (s.updBand b f).judgePressureOff.btu.pressure =
      (s.btu.pressure && decide ((s.updBand b f).freeCount < s.btu.reserve + 2)) := by rw [hout]; rfl
  refine ⟨⟨⟨_, _, _, _, hout⟩, fun k hk => ?_, fun hon hoff => ?_⟩, hband, by rw [hpr, hfree]; simp⟩
  · rw [hband, State.band?_updBand]
    simp [Ne.symm hk]
  · rw [hpr, hon] at hoff
    have hle : s.btu.reserve + 2 ≤ (s.updBand b f).freeCount := by simpa using hoff
    rw [hfree, hout]
    show Evu.Shows (if s.btu.pressure = true ∧ s.btu.reserve + 2 ≤ _ then _ else _) _ _
    rw [if_pos ⟨hon, hle⟩]
    exact Evu.set_self ..

/-- A band's record is replaced, and no more. -/
theorem State.updBand_qualLeft (s : State) (b : Nat) (f : Band → Band) : s.QualLeft (s.updBand b f) b :=
  ⟨⟨_, s.btu.pressure, s.evu, s.flu.outbound, rfl⟩, fun k hk => by rw [State.band?_updBand]; simp [Ne.symm hk],
    fun hon hoff => by rw [State.updBand_btu] at hoff; simp [hon] at hoff⟩

/-- The end of a qualification touches the named band, PRESSURE and the events alone (R36). -/
theorem State.endQualifying_left (s : State) (b : Nat) (out : QualOutcome) : s.QualLeft (s.endQualifying b out) b := by
  have hsame : s.QualLeft s b :=
    ⟨⟨s.btu.bands, s.btu.pressure, s.evu, s.flu.outbound, rfl⟩, fun _ _ => rfl, fun hon hoff => by simp [hon] at hoff⟩
  unfold State.endQualifying
  split
  · split
    · split
      · exact (s.judged_qualLeft b _).1
      · obtain ⟨⟨bands, pressure, -, -, hframe⟩, hother, -⟩ :=
          s.updBand_qualLeft b fun x => { x with state := .retired, prior := none }
        obtain ⟨o, ho⟩ := (s.updBand b fun x => { x with state := .retired, prior := none }).raise_eq .bandRetired b
        rw [ho]
        exact ⟨⟨_, s.btu.pressure, _, _, rfl⟩, hother, fun hon hoff => by simp [hon] at hoff⟩
      · dsimp only
        split
        · exact (s.judged_qualLeft b _).1
        · exact s.updBand_qualLeft b _
    · exact hsame
  · exact hsame

/-- A qualification that passes: the band is EMPTY with its counts 0, and in the pool (R29, R36). -/
theorem State.endQualifying_passed (hb : s.band? b = some bd) (hst : bd.state = .qualifying) :
    (s.endQualifying b .passed).band? b = some { bd with state := .empty, prior := none, retry := 0, fatigue := 0 }
      ∧ ((s.endQualifying b .passed).btu.pressure = true ↔
        s.btu.pressure = true ∧ (s.endQualifying b .passed).freeCount < s.btu.reserve + 2) := by
  simp only [State.endQualifying, hb, hst, if_true]
  obtain ⟨-, hband, hpr⟩ := s.judged_qualLeft b fun x => { x with state := .empty, prior := none, retry := 0, fatigue := 0 }
  exact ⟨by rw [hband, State.band?_updBand, hb]; simp, hpr⟩

/-- A qualification that fails: the band is RETIRED, and told (R36). -/
theorem State.endQualifying_retired (hb : s.band? b = some bd) (hst : bd.state = .qualifying) :
    (s.endQualifying b .retired).band? b = some { bd with state := .retired, prior := none }
      ∧ (s.endQualifying b .retired).evu.Shows .bandRetired b := by
  simp only [State.endQualifying, hb, hst, if_true]
  refine ⟨?_, by rw [State.raise_evu]; exact Evu.set_self ..⟩
  rw [State.band?_raise, State.band?_updBand, hb]
  simp

/-- A qualification that is stopped: the band is in its prior state, its counters kept (R29, R36). -/
theorem State.endQualifying_stopped {prior : BandState} (hb : s.band? b = some bd) (hst : bd.state = .qualifying)
    (hp : bd.prior = some prior) :
    (s.endQualifying b .stopped).band? b = some { bd with state := prior, prior := none }
      ∧ ((s.endQualifying b .stopped).btu.pressure = true ↔ s.btu.pressure = true
        ∧ ¬ (prior = .empty ∧ s.btu.reserve + 2 ≤ (s.endQualifying b .stopped).freeCount)) := by
  simp only [State.endQualifying, hb, hst, hp, if_true, Option.getD_some]
  split
  · next he =>
    obtain ⟨-, hband, hpr⟩ := s.judged_qualLeft b fun x => { x with state := prior, prior := none }
    exact ⟨by rw [hband, State.band?_updBand, hb]; simp, by rw [hpr]; simp [he]⟩
  · next he => exact ⟨by rw [State.band?_updBand, hb]; simp, by simp [he]⟩

end

/-- The end of a qualification in the order of R138: the BTU's part, QUALIFY_DONE, the answer to the stop, the engine
IDLE. -/
theorem State.endQual_spec (s : State) (q : Qual) (out : QualOutcome) :
    ∃ u : State, u = ({ s with qen := { s.qen with last := some (q.result out) } } : State).endQualifying q.band out
      ∧ (s.endQual q out).qen = ⟨none, [], some (q.result out)⟩ ∧ (s.endQual q out).btu = u.btu
      ∧ (s.endQual q out).evu = u.evu.set .qualifyDone q.band
      ∧ (s.endQual q out).ctl = s.ctl ∧ (s.endQual q out).gmu = s.gmu ∧ (s.endQual q out).slu = s.slu
      ∧ (s.endQual q out).swr = s.swr ∧ (s.endQual q out).cle = s.cle ∧ (s.endQual q out).har = s.har
      ∧ (s.endQual q out).mpt = s.mpt
      ∧ (q.stopTag = none → (s.endQual q out).rqu = s.rqu)
      ∧ ∀ tag e, q.stopTag = some tag → s.entry? tag = some e →
        (s.endQual q out).flu.outbound.getLast? = some (replyFrame e.code tag e.clamped .done (q.result out).fields)
        ∧ (s.endQual q out).rqu.entries = s.rqu.entries.filter fun x => decide (x.tag ≠ tag) := by
  obtain ⟨u, hu⟩ : ∃ u, u =
    ({ s with qen := { s.qen with last := some (q.result out) } } : State).endQualifying q.band out := ⟨_, rfl⟩
  obtain ⟨⟨bands, pressure, v, o, hframe⟩, -, -⟩ := hu ▸
    ({ s with qen := { s.qen with last := some (q.result out) } } : State).endQualifying_left q.band out
  obtain ⟨o', ho'⟩ := u.raise_eq .qualifyDone q.band
  obtain ⟨w, hw⟩ : ∃ w, w = u.raise .qualifyDone q.band := ⟨_, rfl⟩
  refine ⟨u, hu, ?_⟩
  have hraise := hw
  rw [ho', hframe] at hw
  have hevu : w.evu = u.evu.set .qualifyDone q.band := by rw [hw, hframe]
  have hbtu : w.btu = u.btu := by rw [hw, hframe]
  cases htag : q.stopTag with
  | none =>
    have hend : s.endQual q out = w.qenIdle (q.result out) := by
      simp only [State.endQual, htag, ← hu, ← hraise]
    rw [hend]
    refine ⟨rfl, hbtu, hevu, ?_⟩
    rw [hw]
    exact ⟨rfl, rfl, rfl, rfl, rfl, rfl, rfl, fun _ => rfl, nofun⟩
  | some tag =>
    have hend : s.endQual q out = (w.finish tag .done (q.result out).fields).qenIdle (q.result out) := by
      simp only [State.endQual, htag, ← hu, ← hraise]
    rw [hend]
    simp only [State.qenIdle, State.finish_btu, State.finish_evu, State.finish_ctl, State.finish_gmu, State.finish_slu,
      State.finish_swr, State.finish_cle, State.finish_har, State.finish_mpt]
    refine ⟨trivial, hbtu, hevu, ?_⟩
    have hent (tag' : Nat) (e : Entry) (he : s.entry? tag' = some e) : w.entry? tag' = some e := by rw [hw]; exact he
    have hrqu : w.rqu = s.rqu := by rw [hw]
    refine ⟨by rw [hw], by rw [hw], by rw [hw], by rw [hw], by rw [hw], by rw [hw], by rw [hw], nofun,
      fun tag' e htag' he => ?_⟩
    cases htag'
    rw [← hrqu]
    exact State.finish_of_entry (hent tag e he) .done _

/-- A qualification ended STOPPED (R36, R138, R139). -/
theorem State.qualStopped_endQual (s : State) (q : Qual) : s.QualStopped (s.endQual q .stopped) q := by
  obtain ⟨u, hu, hqen, hbtu, hevu, -, hgmu, hslu, hswr, -, -, -, -, hstop⟩ := s.endQual_spec q .stopped
  have hleft := hu ▸
    ({ s with qen := { s.qen with last := some (q.result .stopped) } } : State).endQualifying_left q.band .stopped
  have hband (k : Nat) : (s.endQual q .stopped).band? k = u.band? k := State.band?_congr (by rw [hbtu]) k
  have hfree : (s.endQual q .stopped).freeCount = u.freeCount := State.freeCount_congr (by rw [hbtu])
  obtain ⟨-, hother, htold⟩ := hleft
  obtain ⟨hflag, hdetail⟩ := u.evu.set_self .qualifyDone q.band
  refine ⟨hqen, fun bd prior hb hst hp => ?_, fun k hk => by rw [hband]; exact hother k hk, fun hon hoff => ?_,
    by rw [hevu]; exact hflag, by rw [hevu]; exact hdetail, hstop, hgmu, hslu, hswr⟩
  · rw [hband, hfree, hbtu, hu]
    exact State.endQualifying_stopped (s := { s with qen := { s.qen with last := some (q.result .stopped) } }) hb hst hp
  · rw [hbtu] at hoff
    rw [hevu, hfree]
    exact Evu.set_other (by simp) (htold hon hoff) _

/-! ### The qualification's runs end (R136, R137, R156) -/

section
variable {s : State} {o : MediaOp} {q : Qual}

/-- A qualification's run counts no reader: its outcome goes to the QEN and no more (R142, R156). -/
theorem State.reportOutcome_qual (hc : o.cls = .qualify) (ho : o.origin = .qual) (out : Outcome) :
    s.reportOutcome o out = s.qualOutcome o out := by
  have hb : o.bandRead = none := by simp only [MediaOp.bandRead, hc]; split <;> simp_all
  have hr : o.recordRead = none := by rw [MediaOp.recordRead, ho]
  have hend : s.endReaders o = s := by simp only [State.endReaders, hb, hr]
  simp only [State.reportOutcome, hend, State.ownerOutcome, ho]
  split <;> rfl

end

/-! ### What no outcome changes: the port and the controller state -/

/-- The port and the controller state are those of `s`. -/
def State.SamePort (s t : State) : Prop := t.mpt = s.mpt ∧ t.ctl = s.ctl

theorem State.SamePort.base (s : State) : Kept.Base s.SamePort where
  outbound := fun _ h => h
  requests := fun _ _ h => h
  events := fun _ _ h => h
  queues := fun _ _ _ h => h
  buffers := fun _ h => h

/-- No block's work reaches the port or the controller state. -/
theorem State.SamePort.all (s : State) : Kept.All s.SamePort :=
  { base s, (base s).frontier (fun _ h => h) (fun _ h => h) relocation with
    log := fun _ h => h
    map := fun _ h => h
    readStart := fun _ h => h
    readEnd := fun _ h => h
    supersede := fun x h => Kept.supersede (fun _ h => h) h x
    watch := fun _ _ h => h
    cleaner := fun _ _ _ h => h
    spend := fun h => h
    leave := fun _ _ h => h
    qen := fun _ h => h
    ends := fun b out h => (base s).endQualifying (fun _ h => h) h b out
    frontier := (base s).frontier (fun _ h => h) fun _ h => h
    placed := fun h => h }

/-- An outcome's report leaves the port as it is (R156). -/
theorem State.reportOutcome_mpt (s : State) (o : MediaOp) (out : Outcome) : (s.reportOutcome o out).mpt = s.mpt :=
  ((State.SamePort.all s).reportOutcome ⟨rfl, rfl⟩ o out).1

/-- A STOPPED outcome of a run that is not the qualification's leaves the HAR as it is (R72, R152). -/
theorem State.reportOutcome_stopped_har {s : State} {o : MediaOp} (ho : o.origin ≠ .qual) :
    (s.reportOutcome o .stopped).har = s.har := by
  have hout : s.reportOutcome o .stopped = s.ownerOutcome o .stopped := by simp [State.reportOutcome]
  rw [hout]
  unfold State.ownerOutcome
  split
  · unfold State.fetchOutcome; split <;> simp_all
  · unfold State.fetchOutcome; split <;> simp_all
  · simp only [State.streamOutcome, State.runStopped]
    split
    · split
      · rfl
      · simp only [State.moveFrontier]; rfl
    · rfl
  · rfl
  · unfold State.foldRecordOutcome; split <;> simp_all
  · unfold State.foldHomeOutcome; split <;> simp_all
  · rfl
  · exact absurd ‹_› ho

/-! ### FINISHED STOPPED (R152) -/

/-- A FINISHED STOPPED short of the order's count, in RUNNING (R148, R152). -/
theorem exec_finished_stopped {s : State} {o : MediaOp} {d : Nat} (hop : s.mpt.op = some o) (hst : s.mpt.stage = .running)
    (hd : d < s.mpt.order.count) (x : Nat) :
    exec (.finished s.mpt.order.number 1 d x) s = .next (s.stopOp (o.add d)) := by
  have htaken : Answer.stopped.taken o.isWrite s.mpt.order.count d = .stopped := if_neg (Nat.not_le.2 hd)
  have hafter : o.doneAfter s.mpt.order .stopped d x = o.sectorsDone + d := by
    simp [MediaOp.doneAfter, Nat.min_eq_left hd.le]
  simp only [exec_finished, execFinished, Answer.ofCode, if_true, hop, State.finishOp, hst, htaken, hafter]
  rfl

/-- The class queues once a remainder has joined the head of its own (R142, R152). -/
theorem State.queue_requeueHead (s : State) (o : MediaOp) (c : Cls) :
    (s.requeueHead o).har.queue c = if c = o.cls then o :: s.har.queue c else s.har.queue c := by
  rw [State.requeueHead_har, Har.queue_setQueue]
  split
  · next h => rw [h]
  · rfl

/-- What the qualification's record is after a STOPPED run: the sectors read are compared, and the remainder is its
current run (R136, R137). -/
def State.stoppedQual (s : State) (o : MediaOp) (q : Qual) (done : Nat) : Qual :=
  { q with errors := if o.isWrite then q.errors else s.errorsAfter q o.first done
           run := some (o.first + done, o.count - done) }

theorem State.compared_eq (s : State) (q : Qual) (lo n : Nat) :
    s.compared q lo n = { q with errors := s.errorsAfter q lo n } := rfl

/-- The QEN's part of a STOPPED run (R136, R137). -/
theorem State.qualOutcome_stopped {s : State} {o : MediaOp} {q : Qual} (hq : s.qen.qual = some q) :
    s.qualOutcome o .stopped = s.setQual (s.stoppedQual o q o.sectorsDone) := by
  cases hw : o.isWrite <;>
    simp [State.qualOutcome, hq, hw, State.qualWriteOutcome, State.qualReadOutcome, State.stoppedQual, State.compared_eq]

/-- A stop that waits for the run withdraws the remainder and ends the qualification (R139). -/
theorem State.judgeQualStop_eq {s : State} {q : Qual} (hq : s.qen.qual = some q) :
    s.judgeQualStop = if q.stop then s.withdrawQual.endQual q .stopped else s := by
  simp only [State.judgeQualStop, hq]

theorem State.queue_withdrawQual (s : State) (c : Cls) :
    s.withdrawQual.har.queue c = if c = .qualify then [] else s.har.queue c := Har.queue_setQueue ..

/-- Settles O50: FINISHED OK, FINISHED STOPPED, and the STOPPED of a qualification's run. -/
theorem finished_ok_and_stopped : Obligations.Finished_ok_and_stopped := by
  refine ⟨fun s o d x hop hst => ⟨_, exec_finished_ok d x hst hop, State.reportOutcome_mpt ..⟩,
    fun s o d x hop hst ho hd => ⟨_, exec_finished_stopped hop hst hd x, ?_⟩,
    fun s o q counted d x done hst hruns hd hdone hcount => ⟨_, exec_finished_stopped hruns.1 hst hd x, ?_⟩⟩
  · have hstop : s.stopOp (o.add d) = (s.portIdle.reportOutcome (o.add d) .stopped).requeueHead (o.add d).remainder :=
      if_neg ho
    have hhar : (s.portIdle.reportOutcome (o.add d) .stopped).har = s.har :=
      State.reportOutcome_stopped_har (s := s.portIdle) (o := o.add d) ho
    rw [hstop]
    refine ⟨State.reportOutcome_mpt .., ?_, fun c hc => ?_⟩
    · rw [State.queue_requeueHead, hhar]
      exact if_pos rfl
    · rw [State.queue_requeueHead, hhar]
      exact if_neg hc
  · obtain ⟨hop, horg, hcls, hq⟩ := hruns
    obtain ⟨u, hu⟩ : ∃ u, u = (s.portIdle.setQual (s.stoppedQual o q done)).requeueHead (o.add d).remainder := ⟨_, rfl⟩
    have hstop : s.stopOp (o.add d) = u.judgeQualStop := by
      have hout := State.qualOutcome_stopped (s := s.portIdle) (o := o.add d) hq
      have hrep := State.reportOutcome_qual (s := s.portIdle) (o := o.add d) hcls horg .stopped
      simp only [State.stopOp, State.endOp, hrep, hout]
      rw [hu, hdone]
      exact if_pos horg
    have huq : u.qen.qual = some (s.stoppedQual o q done) := by rw [hu]; rfl
    have hqueue (c : Cls) : u.har.queue c = if c = .qualify then (o.add d).remainder :: s.har.queue c else s.har.queue c := by
      rw [hu, State.queue_requeueHead]
      show (if c = o.cls then _ else _) = _
      rw [hcls]
      rfl
    rw [State.judgeQualStop_eq huq] at hstop
    rw [hstop, hcount]
    by_cases hs : q.stop = true
    · have hs' : (s.stoppedQual o q done).stop = true := hs
      rw [if_pos hs']
      obtain ⟨-, -, -, -, -, -, -, -, -, -, hhar, hmpt, -, -⟩ :=
        u.withdrawQual.endQual_spec (s.stoppedQual o q done) .stopped
      have hqs := u.withdrawQual.qualStopped_endQual (s.stoppedQual o q done)
      refine ⟨by rw [hmpt, hu]; rfl, fun c hc => ?_, fun _ => ⟨?_, ?_⟩, fun h => by simp [hs] at h⟩
      · rw [hhar, State.queue_withdrawQual, if_neg hc, hqueue, if_neg hc]
      · rw [hhar, State.queue_withdrawQual, if_pos rfl]
      · rw [hu] at hqs ⊢
        exact hqs
    · have hs' : ¬ (s.stoppedQual o q done).stop = true := hs
      rw [if_neg hs']
      refine ⟨by rw [hu]; rfl, fun c hc => by rw [hqueue, if_neg hc], fun h => absurd h hs, fun _ => ⟨?_, ?_⟩⟩
      · rw [hqueue, if_pos rfl, hdone]; rfl
      · rw [hu]
        exact ⟨rfl, rfl, rfl, rfl, rfl, rfl, rfl, rfl⟩

end Sys2Proof.Machine
end

section
namespace Sys2Proof.Machine

/-! ### What a QUIESCE waits for (R187) -/

theorem State.quiet_iff (s : State) : s.quiet = true ↔ (∀ e ∈ s.rqu.entries, some e.tag = s.ctl.quiesceTag)
    ∧ s.swrIdle = true ∧ s.sluIdle = true ∧ s.cleIdle = true ∧ s.qen.qual = none ∧ s.pendingReset = none := by
  simp [State.quiet, and_assoc]

/-- A part that is not quiet stays in QUIESCING (R187). -/
theorem State.judgeQuiet_of_not {s : State} (h : ¬ (s.ctl.mode = .quiescing ∧ s.quiet = true)) : s.judgeQuiet = s :=
  if_neg h

/-- A quiet part in QUIESCING becomes QUIESCED, and its QUIESCE is replied (R187). -/
theorem State.judgeQuiet_quiet {s : State} {tag : Nat} (hm : s.ctl.mode = .quiescing) (hq : s.quiet = true)
    (ht : s.ctl.quiesceTag = some tag) : s.judgeQuiet =
      ({ s with ctl := { s.ctl with mode := .quiesced, quiesceTag := none } } : State).finish tag .done [] := by
  simp only [State.judgeQuiet, hm, hq, ht, and_self, if_true]

/-- Leaving QUIESCING touches the controller, the requests and the replies alone (R187). -/
theorem State.judgeQuiet_frame (s : State) :
    s.judgeQuiet.qen = s.qen ∧ s.judgeQuiet.btu = s.btu ∧ s.judgeQuiet.evu = s.evu ∧ s.judgeQuiet.gmu = s.gmu
      ∧ s.judgeQuiet.slu = s.slu ∧ s.judgeQuiet.swr = s.swr ∧ s.judgeQuiet.har = s.har ∧ s.judgeQuiet.cle = s.cle := by
  unfold State.judgeQuiet
  split
  · dsimp only
    split <;> simp
  · exact ⟨rfl, rfl, rfl, rfl, rfl, rfl, rfl, rfl⟩

/-- A band that is pending reset: CLEANING with no reader left (R33). -/
def State.Cleared? (s : State) (b : Nat) : Prop := ∃ bd, s.band? b = some bd ∧ bd.state = .cleaning ∧ bd.readers = 0

theorem State.pendingReset_eq_none {s : State} :
    s.pendingReset = none ↔ (s.cle.stage = .waitReset → ∀ v, s.cle.victim = some v → ¬ s.Cleared? v.band) := by
  unfold State.pendingReset State.Cleared?
  split
  · next hst =>
    cases hv : s.cle.victim with
    | none => simp
    | some v =>
      cases hb : s.band? v.band with
      | none => simp [hst, hb]
      | some bd => simp [hst, hb]
  · next hst => simp [hst]

/-! ### The cleaner at the entry to QUIESCING (R130) -/

/-- The cleaner of a part that enters QUIESCING: a walk in WAIT_CREDIT is HALTED (R130). -/
def Cle.quiescing (c : Cle) : Cle :=
  { c with stage := if c.stage = .waitCredit ∧ c.hostList = [] then .halted else c.stage }

theorem State.cleQuiescing_eq (s : State) : s.cleQuiescing = { s with cle := s.cle.quiescing } := by
  unfold State.cleQuiescing Cle.quiescing
  split
  · next h =>
    have h' : s.cle.stage = .waitCredit ∧ s.cle.hostList = [] := by simpa using h
    simp [State.setStage, h']
  · next h =>
    have h' : ¬ (s.cle.stage = .waitCredit ∧ s.cle.hostList = []) := by simpa using h
    rw [if_neg h']

theorem Cle.quiescing_stage (c : Cle) :
    (c.quiescing.stage = .batch ↔ c.stage = .batch) ∧ (c.quiescing.stage = .waitReset ↔ c.stage = .waitReset) := by
  unfold Cle.quiescing
  by_cases h : c.stage = .waitCredit ∧ c.hostList = []
  · simp [h]
  · simp [h]

/-- A HALTED walk is as idle as one that waits for a credit (R130). -/
theorem State.cleIdle_quiescing {s t : State} (h : t.cle = s.cle.quiescing) : t.cleIdle = s.cleIdle := by
  obtain ⟨hbatch, hreset⟩ := s.cle.quiescing_stage
  simp only [State.cleIdle, h, ne_eq, hbatch, hreset]
  rfl

theorem State.pendingReset_quiescing {s t : State} (hcle : t.cle = s.cle.quiescing)
    (hband : ∀ b, t.Cleared? b ↔ s.Cleared? b) : t.pendingReset = none ↔ s.pendingReset = none := by
  obtain ⟨-, hreset⟩ := s.cle.quiescing_stage
  simp only [State.pendingReset_eq_none, hcle, hreset, hband]
  rfl

theorem State.swrIdle_congr {s t : State} (h : t.swr = s.swr) : t.swrIdle = s.swrIdle := by
  simp only [State.swrIdle, State.stream, h]

theorem State.sluIdle_congr {s t : State} (hslu : t.slu = s.slu) (hhar : t.har = s.har) (hmpt : t.mpt = s.mpt) :
    t.sluIdle = s.sluIdle := by
  simp only [State.sluIdle, State.stagedRunOut, hslu, hhar, hmpt]

/-! ### QUIESCE (R187) -/

section
variable {s : State} {tag : Nat}

theorem exec_quiesce (s : State) (tag : Nat) : exec (.quiesce tag) s = execQuiesce tag s := rfl

/-- A QUIESCE that is admitted is judged by the controller state (R185, R187). -/
theorem exec_quiesce_admitted (h : s.admitsTag tag) :
    exec (.quiesce tag) s = .next ((s.ready.admitRequest codeQuiesce tag).quiesceOwn tag) := by
  rw [exec_quiesce, execQuiesce]
  exact congrArg _ (State.arrive_admits h _ codeQuiesce _)

/-- A QUIESCE answered at once (R185, R187). -/
theorem exec_quiesce_answered (h : s.admitsTag tag) {st : Status}
    (hown : (s.ready.admitRequest codeQuiesce tag).quiesceOwn tag =
      (s.ready.admitRequest codeQuiesce tag).finish tag st []) :
    exec (.quiesce tag) s = .next (s.answered codeQuiesce tag false st []) := by
  obtain ⟨-, -, htag⟩ := id h
  rw [exec_quiesce_admitted h, hown, State.finish_admit htag]

/-- The part in QUIESCING with the QUIESCE holding its entry (R130, R187). -/
def State.quiescing (s : State) (tag : Nat) : State :=
  ({ s with ctl := { s.ctl with mode := .quiescing, quiesceTag := some tag }, cle := s.cle.quiescing }).entered
    (s.plainEntry codeQuiesce tag)

/-- A QUIESCE in ONLINE: the part enters QUIESCING, its qualification is stopped, and whether it is quiet is judged (R139,
R187). -/
theorem exec_quiesce_online (h : s.admitsTag tag) (hm : s.ctl.mode = .online) :
    exec (.quiesce tag) s = .next (((s.quiescing tag).stopQual none).judgeQuiet) := by
  have hm' : (s.ready.admitRequest codeQuiesce tag).ctl.mode = .online := hm
  rw [exec_quiesce_admitted h]
  simp only [State.quiesceOwn, hm', State.enterQuiescing, State.cleQuiescing_eq]
  rfl

/-- What is left to wait for once a state differs from `s` in QUIESCING only in its qualification and what that ended
(R187). -/
theorem State.quiet_quiescing {u t : State} (h : s.admitsTag tag) (hctl : t.ctl = (s.quiescing tag).ctl)
    (hrqu : t.rqu = (s.quiescing tag).rqu) (hcle : t.cle = s.cle.quiescing) (hswr : t.swr = s.swr) (hslu : t.slu = u.slu)
    (hhar : t.har = u.har) (hmpt : t.mpt = u.mpt) (hqen : t.qen.qual = none) (hband : ∀ b, t.Cleared? b ↔ s.Cleared? b) :
    t.quiet = true ↔ s.rqu.entries = [] ∧ s.swrIdle = true ∧ u.sluIdle = true ∧ s.cleIdle = true
      ∧ s.pendingReset = none := by
  obtain ⟨-, -, htag⟩ := h
  have hent : (∀ e ∈ t.rqu.entries, some e.tag = t.ctl.quiesceTag) ↔ s.rqu.entries = [] := by
    have hes : t.rqu.entries = s.rqu.entries ++ [s.plainEntry codeQuiesce tag] := congrArg Rqu.entries hrqu
    have hq : t.ctl.quiesceTag = some tag := congrArg Ctl.quiesceTag hctl
    constructor
    · intro hall
      refine List.eq_nil_iff_forall_not_mem.2 fun e he => ?_
      have := hall e (by rw [hes]; exact List.mem_append_left _ he)
      exact htag e he (Option.some_inj.1 (this.trans hq))
    · intro hnil e he
      rw [hes, hnil, List.nil_append, List.mem_singleton] at he
      rw [he, hq]; rfl
  rw [State.quiet_iff, hent, State.swrIdle_congr hswr, State.sluIdle_congr hslu hhar hmpt, State.cleIdle_quiescing hcle,
    State.pendingReset_quiescing hcle hband]
  simp [hqen]

/-- A QUIESCE that stays in QUIESCING or is replied, the part's tables standing (R187). -/
theorem State.judgeQuiet_quiescing {t : State} (h : s.admitsTag tag) (hctl : t.ctl = (s.quiescing tag).ctl)
    (hrqu : t.rqu = (s.quiescing tag).rqu) :
    (t.quiet = false → t.judgeQuiet = t)
      ∧ (t.quiet = true → t.judgeQuiet = { t with
        ctl := { s.ctl with mode := .quiesced, quiesceTag := none }
        rqu := { t.rqu with entries := s.rqu.entries, held := t.rqu.held.filter fun u => decide (u ≠ tag) }
        flu := { t.flu with outbound := t.flu.outbound ++ [replyFrame codeQuiesce tag false .done []] } }) := by
  obtain ⟨-, -, htag⟩ := h
  refine ⟨fun hq => State.judgeQuiet_of_not (by simp [hq]), fun hq => ?_⟩
  rw [State.judgeQuiet_quiet (tag := tag) (by rw [hctl]; rfl) hq (by rw [hctl]; rfl),
    State.finish_last (t := { t with ctl := { t.ctl with mode := .quiesced, quiesceTag := none } }) (es := s.rqu.entries)
      (e := s.plainEntry codeQuiesce tag) (congrArg Rqu.entries hrqu) htag rfl, hctl]
  rfl

/-- A QUIESCE of a part without a qualification (R187). -/
theorem exec_quiesce_no_qual (h : s.admitsTag tag) (hm : s.ctl.mode = .online) (hq : s.qen.qual = none) :
    (s.rqu.entries ≠ [] ∨ s.swrIdle = false ∨ s.sluIdle = false ∨ s.cleIdle = false ∨ s.pendingReset ≠ none →
        exec (.quiesce tag) s = .next (s.quiescing tag))
      ∧ (s.rqu.entries = [] → s.swrIdle = true → s.sluIdle = true → s.cleIdle = true → s.pendingReset = none →
        exec (.quiesce tag) s = .next (({ s with
          ctl := { s.ctl with mode := .quiesced, quiesceTag := none }, cle := s.cle.quiescing }).answered codeQuiesce tag
            false .done [])) := by
  have hstop : (s.quiescing tag).stopQual none = s.quiescing tag := by
    have : (s.quiescing tag).qen.qual = none := hq
    simp only [State.stopQual, this]
  have hquiet := State.quiet_quiescing (u := s) (t := s.quiescing tag) h rfl rfl rfl rfl rfl rfl rfl hq fun _ => Iff.rfl
  obtain ⟨hstay, hdone⟩ := State.judgeQuiet_quiescing (t := s.quiescing tag) h rfl rfl
  rw [exec_quiesce_online h hm, hstop]
  refine ⟨fun hwait => ?_, fun h1 h2 h3 h4 h5 => ?_⟩
  · rw [hstay]
    rw [Bool.eq_false_iff, Ne, hquiet]
    rintro ⟨h1, h2, h3, h4, h5⟩
    simp [h1, h2, h3, h4, h5] at hwait
  · rw [hdone (hquiet.2 ⟨h1, h2, h3, h4, h5⟩)]
    rfl

end

/-! ### A QUIESCE that stops a qualification (R139) -/

section
variable {s : State} {tag : Nat} {q : Qual}

/-- With the run in progress, the qualification is to stop at its end (R139). -/
theorem exec_quiesce_qual_running {o : MediaOp} (h : s.admitsTag tag) (hm : s.ctl.mode = .online)
    (hq : s.qen.qual = some q) (hop : s.mpt.op = some o) (ho : o.origin = .qual) :
    exec (.quiesce tag) s = .next (({ s with
      ctl := { s.ctl with mode := .quiescing, quiesceTag := some tag }, cle := s.cle.quiescing
      qen := { s.qen with qual := some { q with stop := true } } }).entered (s.plainEntry codeQuiesce tag)) := by
  have hstop : (s.quiescing tag).stopQual none = (s.quiescing tag).setQual { q with stop := true } := by
    have hq' : (s.quiescing tag).qen.qual = some q := hq
    have hin : (s.quiescing tag).qualInProgress = true := by
      have : (s.quiescing tag).mpt.op = some o := hop
      simp only [State.qualInProgress, this, ho, decide_true]
    simp only [State.stopQual, hq', hin, if_true]
    cases q.stopTag <;> rfl
  rw [exec_quiesce_online h hm, hstop, State.judgeQuiet_of_not]
  · rfl
  · rintro ⟨-, hquiet⟩
    obtain ⟨-, -, -, -, hnone, -⟩ := (State.quiet_iff _).1 hquiet
    cases hnone

/-- A qualification that no run of which is in progress is withdrawn and ends at once (R139). -/
theorem State.stopQual_queued (hq : s.qen.qual = some q) (hrun : ∀ o, s.mpt.op = some o → o.origin ≠ .qual)
    (htag : q.stopTag = none) (t : Option Nat) :
    s.stopQual t = (s.withdrawQual.setQual { q with stop := true, stopTag := t }).endQual
      { q with stop := true, stopTag := t } .stopped := by
  have hin : s.qualInProgress = false := by
    unfold State.qualInProgress
    split
    · next o ho => simpa using hrun o ho
    · rfl
  simp [State.stopQual, hq, hin, htag]

/-- A qualification that no QUALIFY_STOP waits for ends STOPPED by what the tables and its counts are (R138). -/
theorem State.QualStopped.untagged {s' t t' : State} {q' : Qual} (h : s'.QualStopped t q') (htag : q.stopTag = none)
    (hq : q'.result .stopped = q.result .stopped)
    (hs : s'.btu = s.btu ∧ s'.gmu = s.gmu ∧ s'.slu = s.slu ∧ s'.swr = s.swr) (hqen : t'.qen = t.qen)
    (hbtu : t'.btu = t.btu) (hevu : t'.evu = t.evu) (hgmu : t'.gmu = t.gmu) (hslu : t'.slu = t.slu)
    (hswr : t'.swr = t.swr) : s.QualStopped t' q := by
  obtain ⟨hsb, hsg, hsl, hsw⟩ := hs
  have hband (k : Nat) : t'.band? k = t.band? k := State.band?_congr (by rw [hbtu]) k
  have hband' (k : Nat) : s'.band? k = s.band? k := State.band?_congr (by rw [hsb]) k
  have hfree : t'.freeCount = t.freeCount := State.freeCount_congr (by rw [hbtu])
  have hqb : q'.band = q.band := congrArg LastResult.band hq
  obtain ⟨h1, h2, h3, h4, h5, h6, -, h7, h8, h9⟩ := h
  rw [hqb] at h2 h3 h6
  refine ⟨(hqen.trans h1).trans (congrArg (fun r => (⟨none, [], some r⟩ : Qen)) hq), ?_, ?_, ?_, by rw [hevu]; exact h5,
    by rw [hevu]; exact h6, fun tag e ht => ?_, (hgmu.trans h7).trans hsg, (hslu.trans h8).trans hsl,
    (hswr.trans h9).trans hsw⟩
  · simpa only [hband, hband', hfree, hbtu, hsb] using h2
  · simpa only [hband, hband'] using h3
  · simpa only [hbtu, hevu, hfree, hsb] using h4
  · simp [htag] at ht

/-- The end of a qualification makes a band pending reset only where it was CLEANING before it (R36). -/
theorem State.cleared_endQualifying {b : Nat} (k : Nat) :
    (s.Cleared? k → (s.endQualifying b .stopped).Cleared? k)
      ∧ ((∀ bd, s.band? b = some bd → bd.prior ≠ some .cleaning) → (s.endQualifying b .stopped).Cleared? k →
        s.Cleared? k) := by
  obtain ⟨-, hother, -⟩ := s.endQualifying_left b .stopped
  by_cases hk : k = b
  · subst hk
    cases hb : s.band? k with
    | none =>
      have hsame : s.endQualifying k .stopped = s := by simp only [State.endQualifying, hb]
      rw [hsame]
      exact ⟨id, fun _ => id⟩
    | some bd =>
      by_cases hst : bd.state = .qualifying
      · have hband : (s.endQualifying k .stopped).band? k = some { bd with state := bd.prior.getD .empty, prior := none } := by
          simp only [State.endQualifying, hb, hst, if_true]
          split
          · obtain ⟨-, hj, -⟩ := s.judged_qualLeft k fun x => { x with state := bd.prior.getD .empty, prior := none }
            rw [hj, State.band?_updBand, hb]; simp
          · rw [State.band?_updBand, hb]; simp
        refine ⟨fun ⟨x, hx, hcl, _⟩ => ?_, fun hprior ⟨x, hx, hcl, _⟩ => ?_⟩
        · rw [hb] at hx
          cases hx
          simp [hst] at hcl
        · rw [hband] at hx
          cases hx
          have := hprior bd rfl
          cases hp : bd.prior with
          | none => simp [hp] at hcl
          | some p => simp [hp] at hcl this; exact absurd hcl this
      · have hsame : s.endQualifying k .stopped = s := by simp only [State.endQualifying, hb, if_neg hst]
        rw [hsame]
        exact ⟨id, fun _ => id⟩
  · simp only [State.Cleared?, hother k hk]
    exact ⟨id, fun _ => id⟩

end

end Sys2Proof.Machine
end

section
namespace Sys2Proof.Machine

/-! ### QUIESCE, QUIESCE_COMPLETE and RESUME (R185, R187, R188) -/

section
variable {s : State} {tag : Nat} {q : Qual}

/-- With the qualification's run queued, it is withdrawn and ends STOPPED, and then the QUIESCE waits or is replied
(R36, R139, R187). -/
theorem exec_quiesce_qual_queued (h : s.admitsTag tag) (hm : s.ctl.mode = .online) (hq : s.qen.qual = some q)
    (hrun : ∀ o, s.mpt.op = some o → o.origin ≠ .qual) (hst : q.stopTag = none) :
    ∃ t, exec (.quiesce tag) s = .next t ∧ s.QualStopped t q ∧ t.har.queue .qualify = []
      ∧ (∀ c, c ≠ .qualify → t.har.queue c = s.har.queue c) ∧ t.cle = s.cle.quiescing
      ∧ (s.rqu.entries ≠ [] ∨ s.swrIdle = false ∨ s.withdrawQual.sluIdle = false ∨ s.cleIdle = false
          ∨ s.pendingReset ≠ none →
        t.ctl = { s.ctl with mode := .quiescing, quiesceTag := some tag }
        ∧ t.rqu.entries = s.rqu.entries ++ [s.plainEntry codeQuiesce tag])
      ∧ (s.rqu.entries = [] → s.swrIdle = true → s.withdrawQual.sluIdle = true → s.cleIdle = true →
        s.pendingReset = none → (∀ bd, s.band? q.band = some bd → bd.prior ≠ some .cleaning) →
        t.ctl = { s.ctl with mode := .quiesced, quiesceTag := none } ∧ t.rqu.entries = []
        ∧ t.flu.outbound.getLast? = some (replyFrame codeQuiesce tag false .done [])) := by
  obtain ⟨x, hx⟩ : ∃ x : Qual, x = { q with stop := true, stopTag := none } := ⟨_, rfl⟩
  obtain ⟨w, hw⟩ : ∃ w, w = ((s.quiescing tag).withdrawQual.setQual x).endQual x .stopped := ⟨_, rfl⟩
  have hstop : (s.quiescing tag).stopQual none = w := by
    rw [hw, hx]
    exact State.stopQual_queued (s := s.quiescing tag) hq hrun hst none
  have hxtag : x.stopTag = none := by rw [hx]
  obtain ⟨u, hu, hqen, hbtu, -, hctl, -, hslu, hswr, hcle, hhar, hmpt, hrqu, -⟩ :=
    ((s.quiescing tag).withdrawQual.setQual x).endQual_spec x .stopped
  have hstopped := ((s.quiescing tag).withdrawQual.setQual x).qualStopped_endQual x
  rw [← hw] at hqen hbtu hctl hslu hswr hcle hhar hmpt hrqu hstopped
  have hcleared (b : Nat) : (s.Cleared? b → w.Cleared? b)
      ∧ ((∀ bd, s.band? q.band = some bd → bd.prior ≠ some .cleaning) → w.Cleared? b → s.Cleared? b) := by
    have hwu : w.Cleared? b ↔ u.Cleared? b := by
      simp only [State.Cleared?, State.band?_congr (s := u) (t := w) (by rw [hbtu])]
    obtain ⟨h1, h2⟩ := State.cleared_endQualifying (s := { (s.quiescing tag).withdrawQual.setQual x with
      qen := { ((s.quiescing tag).withdrawQual.setQual x).qen with last := some (x.result .stopped) } }) (b := x.band) b
    rw [← hu, hx] at h1 h2
    exact ⟨fun hc => hwu.2 (h1 hc), fun hp hc => h2 hp (hwu.1 hc)⟩
  obtain ⟨hstay, hdone⟩ := State.judgeQuiet_quiescing (t := w) h hctl (hrqu hxtag)
  have hquiet (hband : ∀ b, w.Cleared? b ↔ s.Cleared? b) :=
    State.quiet_quiescing (u := s.withdrawQual) (t := w) h hctl (hrqu hxtag) hcle hswr hslu hhar hmpt
      (by rw [hqen]) hband
  obtain ⟨hqen', hbtu', hevu', hgmu', hslu', hswr', hhar', hcle'⟩ := w.judgeQuiet_frame
  have hqs : s.QualStopped w.judgeQuiet q :=
    hstopped.untagged hst (by rw [hx]; rfl) ⟨rfl, rfl, rfl, rfl⟩ hqen' hbtu' hevu' hgmu' hslu' hswr'
  have hqueue (c : Cls) : w.judgeQuiet.har.queue c = if c = .qualify then [] else s.har.queue c := by
    rw [hhar', hhar]
    exact s.queue_withdrawQual c
  refine ⟨w.judgeQuiet, by rw [exec_quiesce_online h hm, hstop], hqs, by rw [hqueue, if_pos rfl],
    fun c hc => by rw [hqueue, if_neg hc], hcle'.trans hcle, fun hwait => ?_, fun h1 h2 h3 h4 h5 hp => ?_⟩
  · have hnot : w.quiet = false := by
      refine Bool.eq_false_iff.2 fun hq' => ?_
      obtain ⟨hent, g1, g2, g3, -, g4⟩ := (State.quiet_iff w).1 hq'
      rw [State.swrIdle_congr (s := s) hswr] at g1
      rw [State.sluIdle_congr (s := s.withdrawQual) hslu hhar hmpt] at g2
      rw [State.cleIdle_quiescing (s := s) hcle] at g3
      have hnil : s.rqu.entries = [] := by
        obtain ⟨-, -, htag⟩ := id h
        refine List.eq_nil_iff_forall_not_mem.2 fun e he => htag e he ?_
        have hmem : e ∈ w.rqu.entries := by rw [hrqu hxtag]; exact List.mem_append_left _ he
        have := hent e hmem
        rw [hctl] at this
        exact Option.some_inj.1 this
      have hreset : s.pendingReset = none := by
        refine State.pendingReset_eq_none.2 fun hstage v hv hc => ?_
        obtain ⟨-, hres⟩ := s.cle.quiescing_stage
        exact State.pendingReset_eq_none.1 g4 (by rw [hcle]; exact hres.2 hstage) v (by rw [hcle]; exact hv)
          ((hcleared v.band).1 hc)
      simp [hnil, g1, g2, g3, hreset] at hwait
    rw [hstay hnot, hctl, hrqu hxtag]
    exact ⟨rfl, rfl⟩
  · have hyes : w.quiet = true :=
      (hquiet fun b => ⟨(hcleared b).2 hp, (hcleared b).1⟩).2 ⟨h1, h2, h3, h4, h5⟩
    rw [hdone hyes]
    exact ⟨rfl, h1, List.getLast?_concat⟩

theorem exec_quiesceComplete (s : State) : exec .quiesceComplete s = .next s.judgeQuiet := rfl

theorem exec_resume (s : State) (tag : Nat) : exec (.resume tag) s = execResume tag s := rfl

end

/-- Settles O54: QUIESCE by the controller state and the qualification, QUIESCE_COMPLETE, RESUME. -/
theorem quiesce_and_resume_result : Obligations.Quiesce_and_resume_result := by
  refine ⟨fun s tag cle h hcle => ?_, fun s tag e hm ht hes htag h1 h2 h3 h4 h5 => ?_, fun s hnot => ?_,
    fun s tag h => ⟨fun hm => ?_, fun hm => ?_⟩⟩
  · have hc : cle = s.cle.quiescing := hcle
    subst hc
    refine ⟨fun hm hq => exec_quiesce_no_qual h hm hq, fun q hm hq => ⟨fun ⟨o, hop, ho⟩ =>
      exec_quiesce_qual_running h hm hq hop ho, exec_quiesce_qual_queued h hm hq⟩, fun hm => ?_, fun hm => ?_, fun hm => ?_⟩
    all_goals
      refine exec_quiesce_answered h ?_
      have hm' : (s.ready.admitRequest codeQuiesce tag).ctl.mode = _ := hm
      simp only [State.quiesceOwn, hm', State.refuse]
  · have hquiet : s.quiet = true := by
      refine (State.quiet_iff s).2 ⟨fun e' he' => ?_, h1, h2, h3, h4, h5⟩
      rw [hes, List.mem_singleton] at he'
      rw [he', htag, ht]
    rw [exec_quiesceComplete, State.judgeQuiet_quiet hm hquiet ht]
    exact congrArg _ (State.finish_only
      (s := { s with ctl := { s.ctl with mode := .quiesced, quiesceTag := none } }) (e := e) hes htag ..)
  · rw [exec_quiesceComplete, State.judgeQuiet_of_not]
    rintro ⟨hm, hquiet⟩
    obtain ⟨hent, h1, h2, h3, h4, h5⟩ := (State.quiet_iff s).1 hquiet
    rcases hnot with h | h | h | h | h | h | ⟨e, he, hne⟩
    · exact h hm
    · simp [h1] at h
    · simp [h2] at h
    · simp [h3] at h
    · exact h h4
    · exact h h5
    · exact hne (hent e he)
  · obtain ⟨-, -, htag⟩ := id h
    rw [exec_resume, execResume]
    refine congrArg _ ((State.arrive_taken h (by rw [hm]; rfl) ..).trans ?_)
    exact State.finish_admit (s := s.setMode .online) htag ..
  · rw [exec_resume, execResume]
    refine congrArg _ (State.arrive_not_taken h ?_ ..)
    cases hmode : s.ctl.mode with
    | quiesced => exact absurd hmode hm
    | unformatted => rfl
    | online => rfl
    | quiescing => rfl

end Sys2Proof.Machine
end

section
namespace Sys2Proof.Machine

/-! ### How a run ends COMPLETE or in a write fault, whatever brings it (R148, R151 to R155, R157) -/

/-- The state with the media port's record replaced. -/
def State.withPort (s : State) (m : Mpt) : State := { s with mpt := m }

section
variable {s : State} {o : MediaOp}

/-- A FINISHED OK, to a run that is claimed or claimed by it: the operation is COMPLETE, the counter and the causes
cleared (R148, R152, R157). -/
theorem exec_finished_complete (hop : s.mpt.op = some o) (hst : s.mpt.stage = .running ∨ s.mpt.stage = .claiming)
    (d x : Nat) :
    ∃ k, exec (.finished s.mpt.order.number 0 d x) s =
      .next ((s.withPort { s.mpt with stage := .idle, op := none, failures := 0, causes := 0 }).reportOutcome
        { o with defers := k, sectorsDone := o.count } .complete) := by
  rcases hst with hst | hst
  · exact ⟨o.defers, exec_finished_ok d x hst hop⟩
  · refine ⟨0, ?_⟩
    simp only [exec_finished, execFinished, Answer.ofCode, if_true, hop, State.finishOp, hst, Answer.taken]
    rfl

/-- A failure counted below the third ends the operation, the port UP (R157). -/
theorem State.failOp_up {c : Cause} {out : Outcome} (hf : s.mpt.failures < 2) :
    s.failOp o c out = (s.withPort { s.mpt with
      stage := .idle, op := none, failures := s.mpt.failures + 1, causes := s.mpt.causes ||| c.bit }).reportOutcome o
        out := by
  have hmin : min (s.mpt.failures + 1) 3 = s.mpt.failures + 1 := by omega
  have hcount : s.countFailure c =
      s.withPort { s.mpt with failures := s.mpt.failures + 1, causes := s.mpt.causes ||| c.bit } := by
    rw [State.countFailure, hmin]; rfl
  have hne : ¬ s.mpt.failures + 1 = 3 := by omega
  rw [State.failOp, hcount]
  exact if_neg hne

theorem MediaOp.doneBefore_inside {x : Nat} (h : o.first ≤ x ∧ x < o.first + o.count) : o.doneBefore x = x - o.first :=
  if_pos h

/-- What a status byte says of a write (R148, R154, R204). -/
theorem Answer.taken_write {st d count : Nat} (hst : st = 2 ∨ st = 3) :
    ∃ a, Answer.ofCode st = some a ∧ a.taken true count d = .writeFault := by
  rcases hst with rfl | rfl
  · exact ⟨_, rfl, rfl⟩
  · exact ⟨_, rfl, rfl⟩

/-- An answer of a claimed run, by what it is taken as (R148). -/
theorem exec_finished_taken {st d x : Nat} {a b : Answer} (hop : s.mpt.op = some o)
    (hst : s.mpt.stage = .running ∨ s.mpt.stage = .claiming) (hcode : Answer.ofCode st = some a)
    (ht : a.taken o.isWrite s.mpt.order.count d = b) :
    ∃ (p : PortStage) (y : Option MediaOp) (k : Nat), exec (.finished s.mpt.order.number st d x) s =
      .next ((s.withPort { s.mpt with stage := p, op := y }).finishRun
        { o with defers := k, sectorsDone := o.doneAfter s.mpt.order b d x } b) := by
  rcases hst with hst | hst
  · refine ⟨s.mpt.stage, s.mpt.op, o.defers, ?_⟩
    simp only [exec_finished, execFinished, hcode, if_true, hop, State.finishOp, hst, ht]
    congr 2
    simp [State.withPort, ← hst, ← hop]
  · refine ⟨.running, some { o with defers := 0 }, 0, ?_⟩
    simp only [exec_finished, execFinished, hcode, if_true, hop, State.finishOp, hst, ht]
    rfl

/-- An answer other than OK to the ABORT of a write that a completion limit ended (R151). -/
theorem exec_finished_aborting {st d x : Nat} {a b : Answer} (hop : s.mpt.op = some o) (hw : o.isWrite = true)
    (hst : s.mpt.stage = .aborting) (hreset : s.ctl.resetWait = none) (hcode : Answer.ofCode st = some a)
    (ht : a.taken true s.mpt.order.count d = b) (hb : b ≠ .ok ∧ b ≠ .unrecovered) :
    exec (.finished s.mpt.order.number st d x) s =
      .next ((s.withPort { s.mpt with stage := .idle, op := none }).reportOutcome
        { o with sectorsDone := o.sectorsDone + min d s.mpt.order.count } (.writeFault true)) := by
  obtain ⟨hok, hun⟩ := hb
  rw [← hw] at ht
  have hrep : s.mpt.order.abortReported b d = min d s.mpt.order.count := if_neg hok
  simp only [exec_finished, execFinished, hcode, if_true, hop, State.finishOp, hst, ht, hrep, State.abortAnswered,
    if_neg hun, hreset, State.finishAbort, if_neg hok, State.timedOut]
  rw [if_pos (show (o.add (min d s.mpt.order.count)).isWrite = true from hw)]
  rfl

/-- Whatever ends the write in a write fault, its owner is told of it with the sectors done (R151, R154, R155, R157). -/
theorem exec_writeFaults {i : Instr} {done : Nat} {m : Mpt} (hop : s.mpt.op = some o) (hw : o.isWrite = true)
    (h : s.writeFaults o i done m) :
    ∃ k answered, exec i s = .next ((s.withPort m).reportOutcome { o with defers := k, sectorsDone := done }
        (.writeFault answered))
      ∧ (i = .abortLimitExpiry ∧ answered = false ∨ i ≠ .abortLimitExpiry ∧ answered = true) := by
  rcases h with ⟨hst, st, d, x, rfl, h | h⟩ | ⟨hst, hreset, h⟩
  · obtain ⟨hcode, hlo, hhi, rfl, rfl⟩ := h
    obtain ⟨a, ha, ht⟩ := Answer.taken_write (d := d) (count := s.mpt.order.count) hcode
    obtain ⟨p, y, k, hexec⟩ := exec_finished_taken (x := x) hop hst ha (hw ▸ ht)
    refine ⟨k, true, hexec.trans ?_, .inr ⟨nofun, rfl⟩⟩
    rw [show o.doneAfter s.mpt.order .writeFault d x = x - o.first from MediaOp.doneBefore_inside ⟨hlo, hhi⟩]
    rfl
  · obtain ⟨rfl, hservo, hf, rfl, rfl⟩ := h
    obtain ⟨p, y, k, hexec⟩ := exec_finished_taken (x := x) (st := 4) (d := d) (a := .servoLost) hop hst rfl rfl
    refine ⟨k, true, hexec.trans ?_, .inr ⟨nofun, rfl⟩⟩
    simp only [State.finishRun, State.servoLost, hservo, hw, if_true]
    rw [State.failOp_up (s := s.withPort { s.mpt with stage := p, op := y }) hf]
    rfl
  · rcases h with ⟨st, d, x, hcode, rfl, rfl, rfl⟩ | ⟨rfl, hf, rfl, rfl⟩
    · refine ⟨o.defers, true, ?_, .inr ⟨nofun, rfl⟩⟩
      rcases hcode with ⟨rfl, hd⟩ | rfl | rfl | rfl
      · exact exec_finished_aborting hop hw hst hreset rfl (if_neg (Nat.not_le.2 hd)) ⟨nofun, nofun⟩
      · exact exec_finished_aborting hop hw hst hreset rfl rfl ⟨nofun, nofun⟩
      · exact exec_finished_aborting hop hw hst hreset rfl rfl ⟨nofun, nofun⟩
      · exact exec_finished_aborting hop hw hst hreset rfl rfl ⟨nofun, nofun⟩
    · refine ⟨o.defers, false, ?_, .inl ⟨rfl, rfl⟩⟩
      have hexec : exec .abortLimitExpiry s = .next (s.abortUnanswered o) := by
        show execAbortLimitExpiry s = _
        simp only [execAbortLimitExpiry, hop, hst, if_true]
      rw [hexec, State.abortUnanswered, hreset]
      dsimp only
      rw [if_pos hw, State.failOp_up hf]
      rfl

end

end Sys2Proof.Machine
end

section
namespace Sys2Proof.Machine

/-! ### The qualification's passes (R136 to R139) -/

/-- The port, the map, the log and the streams are those of `s`. -/
def State.SameTables (s t : State) : Prop := t.mpt = s.mpt ∧ t.gmu = s.gmu ∧ t.slu = s.slu ∧ t.swr = s.swr

theorem State.SameTables.base (s : State) : Kept.Base s.SameTables where
  outbound := fun _ h => h
  requests := fun _ _ h => h
  events := fun _ _ h => h
  queues := fun _ _ _ h => h
  buffers := fun _ h => h

/-- A qualification's work reaches neither the port's record, the map, the log nor the streams. -/
theorem State.SameTables.qual (s : State) : Kept.Qual s.SameTables :=
  { base s with
    qen := fun _ h => h
    ends := fun b out h => (base s).endQualifying (fun _ h => h) h b out }

section
variable {s : State} {q : Qual}

/-- The next run queued: what of the part goes on (R136, R137). -/
theorem State.queueQual_goesOn (s : State) (q : Qual) (u : Nat) : s.QualGoesOn (s.queueQual q 0 u) q u s.qen.buffer := by
  rw [State.queueQual_eq]
  refine ⟨rfl, Har.map_queue_join_self (fun _ _ => rfl) s.har (s.qualRun q 0 u), fun c hc => ?_, rfl, rfl, rfl, rfl⟩
  exact (Har.queue_join ..).trans (if_neg hc)

/-- The next track of the write pass, its pattern in the buffer (R136). -/
theorem State.startTrackWrite_goesOn (s : State) (q : Qual) :
    s.QualGoesOn (s.startTrackWrite q) q (s.geo q.band).spt (trackPattern q.band q.track (s.geo q.band).spt) :=
  State.queueQual_goesOn (s := { s with qen := { s.qen with
    buffer := trackPattern q.band q.track (s.geo q.band).spt } }) q _

theorem Qual.span_of_spans {track spt u : Nat} (h : q.Spans track spt u) (ht : q.track = track) : q.span spt = u := by
  subst ht
  obtain ⟨-, ⟨rfl, hnone⟩ | hfind⟩ := h
  · rw [Qual.span, List.find?_eq_none.2 (by simpa using hnone)]
  · rw [Qual.span, hfind]

/-- A track of the read pass with sectors to read (R137). -/
theorem State.startTrackRead_goesOn {u n : Nat} (h : q.Spans q.track (s.geo q.band).spt u) :
    s.QualGoesOn (s.startTrackRead q (n + 1)) q u s.qen.buffer := by
  obtain ⟨hpos, -⟩ := id h
  rw [State.startTrackRead, Qual.span_of_spans h rfl, if_neg (Nat.ne_of_gt hpos)]
  exact s.queueQual_goesOn q u

/-- The end of a track's write (R136, R139). -/
theorem State.qualWriteEnded_spec (s : State) (q : Qual) :
    s.SameTables (s.qualWriteEnded q)
      ∧ (q.stop = true → s.QualStopped (s.qualWriteEnded q) q.trackEnded ∧ (s.qualWriteEnded q).har = s.har)
      ∧ (q.stop = false → q.track + 1 < (s.geo q.band).tpb →
        s.QualGoesOn (s.qualWriteEnded q) q.trackEnded (s.geo q.band).spt
          (trackPattern q.band (q.track + 1) (s.geo q.band).spt))
      ∧ ∀ n, q.stop = false → q.track + 1 = (s.geo q.band).tpb → q.Spans 0 (s.geo q.band).spt n →
        s.QualGoesOn (s.qualWriteEnded q) { q.trackEnded with pass := .read, track := 0 } n s.qen.buffer := by
  refine ⟨(State.SameTables.qual s).qualWriteEnded ⟨rfl, rfl, rfl, rfl⟩ q, fun hs => ?_, fun hs hlt => ?_,
    fun n hs heq hspan => ?_⟩
  · have hend : s.qualWriteEnded q = s.endQual q.trackEnded .stopped := if_pos hs
    obtain ⟨-, -, -, -, -, -, -, -, -, -, hhar, -⟩ := s.endQual_spec q.trackEnded .stopped
    rw [hend]
    exact ⟨s.qualStopped_endQual q.trackEnded, hhar⟩
  · have hnext : s.qualWriteEnded q = s.startTrackWrite q.trackEnded :=
      (if_neg (by simp [hs])).trans (if_pos hlt)
    rw [hnext]
    exact s.startTrackWrite_goesOn q.trackEnded
  · have hnext : s.qualWriteEnded q =
        s.startTrackRead { q.trackEnded with pass := .read, track := 0 } (s.geo q.band).tpb :=
      (if_neg (by simp [hs])).trans (if_neg (show ¬ q.track + 1 < _ by omega))
    rw [hnext, ← heq]
    exact State.startTrackRead_goesOn (q := { q.trackEnded with pass := .read, track := 0 }) hspan

/-- The end of a track's read (R137, R139). -/
theorem State.qualReadEnded_spec (s : State) (q : Qual) :
    s.SameTables (s.qualReadEnded q)
      ∧ (q.stop = true → s.QualStopped (s.qualReadEnded q) q.trackEnded ∧ (s.qualReadEnded q).har = s.har)
      ∧ (∀ n, q.stop = false → q.track + 1 < (s.geo q.band).tpb → q.Spans (q.track + 1) (s.geo q.band).spt n →
        s.QualGoesOn (s.qualReadEnded q) q.trackEnded n s.qen.buffer)
      ∧ (q.stop = false → (s.geo q.band).tpb = q.track + 1 →
        s.qualReadEnded q = s.endQual q.trackEnded q.grade) := by
  refine ⟨(State.SameTables.qual s).qualReadEnded ⟨rfl, rfl, rfl, rfl⟩ q, fun hs => ?_, fun n hs hlt hspan => ?_,
    fun hs heq => ?_⟩
  · have hend : s.qualReadEnded q = s.endQual q.trackEnded .stopped := if_pos hs
    obtain ⟨-, -, -, -, -, -, -, -, -, -, hhar, -⟩ := s.endQual_spec q.trackEnded .stopped
    rw [hend]
    exact ⟨s.qualStopped_endQual q.trackEnded, hhar⟩
  · obtain ⟨k, hk⟩ : ∃ k, (s.geo q.band).tpb - (q.track + 1) = k + 1 := ⟨(s.geo q.band).tpb - (q.track + 1) - 1, by omega⟩
    have hnext : s.qualReadEnded q = s.startTrackRead q.trackEnded ((s.geo q.band).tpb - (q.track + 1)) :=
      if_neg (by simp [hs])
    rw [hnext, hk]
    exact State.startTrackRead_goesOn (q := q.trackEnded) hspan
  · have hnext : s.qualReadEnded q = s.startTrackRead q.trackEnded ((s.geo q.band).tpb - (q.track + 1)) :=
      if_neg (by simp [hs])
    rw [hnext, heq, Nat.sub_self]
    rfl

/-- The port's record takes no part in the QEN's work. -/
theorem State.withPort_goesOn {m : Mpt} {t : State} {u : Nat} {buffer : List Sector}
    (h : (s.withPort m).QualGoesOn t q u buffer) : s.QualGoesOn t q u buffer := h

end

/-! ### QUALIFY_STOP (R139) -/

section
variable {s : State} {tag : Nat} {q : Qual}

theorem exec_qualifyStop (tag : Nat) (s : State) : exec (.qualifyStop tag) s = execQualifyStop tag s := rfl

/-- A QUALIFY_STOP that is admitted and taken (R139, R185). -/
theorem exec_qualifyStop_taken (h : s.admitsTag tag) (hm : s.ctl.mode ≠ .unformatted) :
    exec (.qualifyStop tag) s = .next ((s.ready.admitRequest codeQualifyStop tag).qualifyStopOwn tag) := by
  rw [exec_qualifyStop, execQualifyStop]
  exact congrArg _ (State.arrive_taken h (takenFormatted_has hm) ..)

theorem exec_qualifyStop_refused {st : Status} (h : s.admitsTag tag) (hm : s.ctl.mode ≠ .unformatted)
    (hown : (s.ready.admitRequest codeQualifyStop tag).qualifyStopOwn tag =
      (s.ready.admitRequest codeQualifyStop tag).refuse tag st) :
    exec (.qualifyStop tag) s = .next (s.answered codeQualifyStop tag false st []) := by
  obtain ⟨-, -, htag⟩ := id h
  rw [exec_qualifyStop_taken h hm, hown, State.refuse, State.finish_admit htag]

/-- A QUALIFY_STOP of a qualification that carries no stop's tag asks it to stop (R139). -/
theorem exec_qualifyStop_stops (h : s.admitsTag tag) (hm : s.ctl.mode ≠ .unformatted) (hq : s.qen.qual = some q)
    (ht : q.stopTag = none) :
    exec (.qualifyStop tag) s = .next ((s.ready.admitRequest codeQualifyStop tag).stopQual (some tag)) := by
  have hq' : (s.ready.admitRequest codeQualifyStop tag).qen.qual = some q := hq
  rw [exec_qualifyStop_taken h hm]
  simp only [State.qualifyStopOwn, hq', ht]
  rfl

theorem exec_qualifyStop_running {o : MediaOp} (h : s.admitsTag tag) (hm : s.ctl.mode ≠ .unformatted)
    (hq : s.qen.qual = some q) (ht : q.stopTag = none) (hop : s.mpt.op = some o) (ho : o.origin = .qual) :
    exec (.qualifyStop tag) s = .next (({ s with qen := { s.qen with
      qual := some { q with stop := true, stopTag := some tag } } }).entered (s.plainEntry codeQualifyStop tag)) := by
  have hq' : (s.ready.admitRequest codeQualifyStop tag).qen.qual = some q := hq
  have hin : (s.ready.admitRequest codeQualifyStop tag).qualInProgress = true := by
    have : (s.ready.admitRequest codeQualifyStop tag).mpt.op = some o := hop
    simp only [State.qualInProgress, this, ho, decide_true]
  rw [exec_qualifyStop_stops h hm hq ht]
  simp only [State.stopQual, hq', hin, if_true, ht]
  rfl

/-- A QUALIFY_STOP of a queued run: the qualification ends at once and the stop is answered (R139). -/
theorem exec_qualifyStop_queued (h : s.admitsTag tag) (hm : s.ctl.mode ≠ .unformatted) (hq : s.qen.qual = some q)
    (ht : q.stopTag = none) (hrun : ∀ o, s.mpt.op = some o → o.origin ≠ .qual) :
    ∃ t, exec (.qualifyStop tag) s = .next t
      ∧ s.QualStopped t q ∧ t.har.queue .qualify = []
      ∧ (∀ c, c ≠ .qualify → t.har.queue c = s.har.queue c) ∧ t.mpt = s.mpt
      ∧ t.rqu.entries = s.rqu.entries
      ∧ replyFrame codeQualifyStop tag false .done
        [.num 4 q.band, .num 2 q.errors, .num 2 q.tracksDone, .num 1 2, .num 3 0] ∈ t.flu.outbound := by
  obtain ⟨-, -, htags⟩ := id h
  obtain ⟨x, hx⟩ : ∃ x : Qual, x = { q with stop := true, stopTag := some tag } := ⟨_, rfl⟩
  obtain ⟨u, hu⟩ : ∃ u, u = (s.ready.admitRequest codeQualifyStop tag).withdrawQual.setQual x := ⟨_, rfl⟩
  have hexec : exec (.qualifyStop tag) s = .next (u.endQual x .stopped) := by
    rw [exec_qualifyStop_stops h hm hq ht, hu, hx]
    exact congrArg _ (State.stopQual_queued (s := s.ready.admitRequest codeQualifyStop tag) hq hrun ht (some tag))
  obtain ⟨-, -, -, -, -, -, -, -, -, -, hhar, hmpt, -, hreply⟩ := u.endQual_spec x .stopped
  have hstopped := (u.qualStopped_endQual x).untagged (s := s) (t' := u.endQual x .stopped) ht (by rw [hx]; rfl)
    (by rw [hu]; exact ⟨rfl, rfl, rfl, rfl⟩) rfl rfl rfl rfl rfl rfl
  have hes : u.rqu.entries = s.rqu.entries ++ [s.plainEntry codeQualifyStop tag] := by rw [hu]; rfl
  obtain ⟨hlast, hent⟩ := hreply tag (s.plainEntry codeQualifyStop tag) (by rw [hx]) (State.entry?_last hes htags rfl)
  have hqueue (c : Cls) : (u.endQual x .stopped).har.queue c = if c = .qualify then [] else s.har.queue c := by
    rw [hhar, hu]
    exact s.queue_withdrawQual c
  refine ⟨_, hexec, hstopped, by rw [hqueue, if_pos rfl], fun c hc => by rw [hqueue, if_neg hc], by rw [hmpt, hu]; rfl,
    ?_, ?_⟩
  · rw [hent, hes, List.filter_append, List.filter_eq_self.2 (by simpa using htags)]
    simp [State.plainEntry, State.newRequest]
  · refine List.mem_of_getLast? (hlast.trans ?_)
    rw [hx]
    rfl

end

/-! ### The qualification's run ends (R136 to R138) -/

section
variable {s : State} {o : MediaOp} {q : Qual} {m : Mpt}

/-- A COMPLETE write of the qualification (R136). -/
theorem State.qualComplete_write (hr : s.qualRuns o q) (hw : o.isWrite = true) (k done : Nat) :
    (s.withPort m).reportOutcome { o with defers := k, sectorsDone := done } .complete = (s.withPort m).qualWriteEnded q := by
  obtain ⟨-, horg, hcls, hq⟩ := hr
  rw [State.reportOutcome_qual (o := { o with defers := k, sectorsDone := done }) hcls horg]
  have hq' : (s.withPort m).qen.qual = some q := hq
  simp only [State.qualOutcome, hq', hw, if_true, State.qualWriteOutcome]

/-- A COMPLETE read of the qualification: its sectors are compared with the pattern (R137). -/
theorem State.qualComplete_read (hr : s.qualRuns o q) (hw : o.isWrite = false) (k done : Nat) :
    (s.withPort m).reportOutcome { o with defers := k, sectorsDone := done } .complete =
      (s.withPort m).qualReadEnded { q with errors := s.errorsAfter q o.first o.count } := by
  obtain ⟨-, horg, hcls, hq⟩ := hr
  rw [State.reportOutcome_qual (o := { o with defers := k, sectorsDone := done }) hcls horg]
  have hq' : (s.withPort m).qen.qual = some q := hq
  simp only [State.qualOutcome, hq', hw, State.qualReadOutcome]
  rfl

/-- A write fault of the qualification: the track is on the fault list from its first unwritten sector on (R136). -/
theorem State.qualFault_write (hr : s.qualRuns o q) (hw : o.isWrite = true) (k done : Nat) (answered : Bool) {u : Nat}
    (hu : u = if answered then o.first + done else o.first) :
    (s.withPort m).reportOutcome { o with defers := k, sectorsDone := done } (.writeFault answered) =
      (s.withPort m).qualWriteEnded { q with
        faults := q.faults ++ [(q.track, u)], errors := min (q.errors + ((s.geo q.band).spt - u)) 65535 } := by
  obtain ⟨-, horg, hcls, hq⟩ := hr
  rw [State.reportOutcome_qual (o := { o with defers := k, sectorsDone := done }) hcls horg, hu]
  have hq' : (s.withPort m).qen.qual = some q := hq
  cases answered <;> simp only [State.qualOutcome, hq', hw, if_true, State.qualWriteOutcome] <;> rfl

end

/-- Settles O36: QUALIFY_STOP, the end of a track's write, of its read, and the grade. -/
theorem qualify_stop_and_grade_result : Obligations.Qualify_stop_and_grade_result := by
  refine ⟨fun s tag h hm => ⟨fun hq => ?_, fun q hq => ⟨fun ht => ?_, fun ht =>
    ⟨fun o hop ho => exec_qualifyStop_running h hm hq ht hop ho, exec_qualifyStop_queued h hm hq ht⟩⟩⟩,
    fun s o q ended i m hr hw hcase => ?_, fun s o q ended d x hr hw hst hended => ?_,
    fun s o q bd errors hst hr hw hstop htpb hb hqual herr => ?_⟩
  · refine exec_qualifyStop_refused h hm ?_
    have hq' : (s.ready.admitRequest codeQualifyStop tag).qen.qual = none := hq
    simp only [State.qualifyStopOwn, hq']
  · refine exec_qualifyStop_refused h hm ?_
    have hq' : (s.ready.admitRequest codeQualifyStop tag).qen.qual = some q := hq
    simp only [State.qualifyStopOwn, hq', ht, if_true]
  · obtain ⟨y, hexec, hy⟩ : ∃ y : Qual, exec i s = .next ((s.withPort m).qualWriteEnded y)
        ∧ ended = { y with tracksDone := y.tracksDone + 1 } ∧ y.stop = q.stop ∧ y.track = q.track ∧ y.band = q.band := by
      obtain ⟨hop, -⟩ := id hr
      rcases hcase with ⟨hst, ⟨d, x, rfl⟩, rfl, rfl⟩ | ⟨done, u, hfault, hu, rfl⟩
      · obtain ⟨k, hexec⟩ := exec_finished_complete hop hst d x
        exact ⟨q, hexec.trans (congrArg _ (State.qualComplete_write hr hw k _)), rfl, rfl, rfl, rfl⟩
      · obtain ⟨k, answered, hexec, hans⟩ := exec_writeFaults hop hw hfault
        refine ⟨_, hexec.trans (congrArg _ (State.qualFault_write (u := u) hr hw k done answered ?_)), rfl, rfl, rfl, rfl⟩
        rcases hans with ⟨hi, rfl⟩ | ⟨hi, rfl⟩
        · rw [hu, if_pos hi]; rfl
        · rw [hu, if_neg hi]; rfl
    obtain ⟨rfl, hys, hyt, hyb⟩ := hy
    obtain ⟨⟨hmpt, hgmu, hslu, hswr⟩, hstop, hnext, hread⟩ := (s.withPort m).qualWriteEnded_spec y
    rw [← hys, ← hyt, ← hyb]
    exact ⟨_, hexec, hmpt, hgmu, hslu, hswr, hstop, hnext, hread⟩
  · obtain ⟨hop, -⟩ := id hr
    obtain ⟨k, hexec⟩ := exec_finished_complete hop hst d x
    rw [State.qualComplete_read hr hw] at hexec
    obtain ⟨⟨hmpt, hgmu, hslu, hswr⟩, hstop, hnext, -⟩ := (s.withPort _).qualReadEnded_spec
      { q with errors := s.errorsAfter q o.first o.count }
    subst hended
    exact ⟨_, hexec, hmpt, hgmu, hslu, hswr, hstop, hnext⟩
  · obtain ⟨hop, -⟩ := id hr
    obtain ⟨k, hexec⟩ := exec_finished_complete hop (.inl hst) 0 0
    obtain ⟨m, hm⟩ : ∃ m : Mpt, m = { s.mpt with stage := .idle, op := none, failures := 0, causes := 0 } := ⟨_, rfl⟩
    obtain ⟨y, hy⟩ : ∃ y : Qual, y = { q with errors := errors } := ⟨_, rfl⟩
    rw [State.qualComplete_read hr hw, ← herr, ← hy, ← hm] at hexec
    obtain ⟨-, -, -, hgrade⟩ := (s.withPort m).qualReadEnded_spec y
    rw [hgrade (by rw [hy]; exact hstop) (by rw [hy]; exact htpb)] at hexec
    obtain ⟨u, hu, hqen, hbtu, hevu, -, hgmu, hslu, hswr, -, hhar, -⟩ :=
      (s.withPort m).endQual_spec y.trackEnded y.grade
    have hband (k : Nat) : ((s.withPort m).endQual y.trackEnded y.grade).band? k = u.band? k :=
      State.band?_congr (by rw [hbtu]) k
    have hfree : ((s.withPort m).endQual y.trackEnded y.grade).freeCount = u.freeCount :=
      State.freeCount_congr (by rw [hbtu])
    obtain ⟨w, hw'⟩ : ∃ w : State, w = { s.withPort m with qen := { (s.withPort m).qen with
      last := some (y.trackEnded.result y.grade) } } := ⟨_, rfl⟩
    rw [← hw', show y.trackEnded.band = q.band by rw [hy]; rfl] at hu
    have hwb : w.band? q.band = some bd := by rw [hw']; exact hb
    obtain ⟨-, hother, -⟩ := w.endQualifying_left q.band y.grade
    rw [← hu] at hother
    have hgr : y.grade = if errors ≤ q.threshold then .passed else .retired := by rw [hy]; rfl
    have hevu' : ((s.withPort m).endQual y.trackEnded y.grade).evu = u.evu.set .qualifyDone q.band := by
      rw [hevu, hy]; rfl
    obtain ⟨hflag, hdetail⟩ := u.evu.set_self .qualifyDone q.band
    refine ⟨_, hexec, ?_, fun hle => ?_, fun hlt => ?_, fun k hk => ?_, by rw [hevu']; exact hflag,
      by rw [hevu']; exact hdetail, hgmu, hslu, hswr, hhar⟩
    · rw [hqen, hgr, hy]; rfl
    · rw [hband, hfree, hbtu, hu, hgr, if_pos hle, hw']
      exact State.endQualifying_passed (hw' ▸ hwb) hqual
    · obtain ⟨h1, h2⟩ := State.endQualifying_retired hwb hqual
      rw [hgr, if_neg (Nat.not_le.2 hlt)] at hu
      rw [← hu] at h1 h2
      rw [hband, hevu']
      exact ⟨h1, Evu.set_other (by simp) h2 _⟩
    · rw [hband, hother k hk, hw']
      rfl

end Sys2Proof.Machine
end

section
namespace Sys2Proof.Machine

/-! ### Gathering a batch (R118) -/

/-- A slot entry that gathering takes: LIVE for a granule in no HOLD window. -/
def State.takesSlot (s : State) : Option Slot → Bool
  | some (.live lgn) => !s.inHoldWindow lgn
  | some .dead => false
  | some .torn => false
  | none => false

/-- A slot entry that gathering skips: LIVE for a granule in a HOLD window. -/
def State.skipsSlot (s : State) : Option Slot → Bool
  | some (.live lgn) => s.inHoldWindow lgn
  | some .dead => false
  | some .torn => false
  | none => false

section
variable {s : State}

theorem State.gather_cons_taken {room c lgn : Nat} {es : List Slot} (h : s.inHoldWindow lgn = false) :
    s.gather (room + 1) c (.live lgn :: es) = ⟨(c, lgn) :: (s.gather room (c + 1) es).slots,
      (s.gather room (c + 1) es).cursor, (s.gather room (c + 1) es).skipped⟩ := by
  simp [State.gather, h]

theorem State.gather_cons_skipped {room c lgn : Nat} {es : List Slot} (h : s.inHoldWindow lgn = true) :
    s.gather (room + 1) c (.live lgn :: es) = ⟨(s.gather (room + 1) (c + 1) es).slots,
      (s.gather (room + 1) (c + 1) es).cursor, (s.gather (room + 1) (c + 1) es).skipped + 1⟩ := by
  simp [State.gather, h]

theorem State.gather_cons_passed {room c : Nat} {e : Slot} {es : List Slot} (h : e = .dead ∨ e = .torn) :
    s.gather (room + 1) c (e :: es) = s.gather (room + 1) (c + 1) es := by
  rcases h with rfl | rfl <;> rfl

theorem State.gather_full (c : Nat) (es : List Slot) : s.gather 0 c es = ⟨[], c, 0⟩ := by
  cases es <;> rfl

/-- With every LIVE slot in a HOLD window nothing is gathered, and each of them is skipped (R118). -/
theorem State.gather_nothing {room : Nat} {es : List Slot}
    (h : ∀ lgn, .live lgn ∈ es → s.inHoldWindow lgn = true) (c : Nat) :
    s.gather (room + 1) c es = ⟨[], c + es.length, es.countP Slot.isLive⟩ := by
  induction es generalizing c with
  | nil => rfl
  | cons e es ih =>
    have ih := ih (fun lgn hm => h lgn (List.mem_cons_of_mem e hm)) (c + 1)
    have hlen : c + 1 + es.length = c + (e :: es).length := by simp only [List.length_cons]; omega
    cases e with
    | live lgn => rw [State.gather_cons_skipped (h lgn (by simp)), ih, hlen, List.countP_cons]; rfl
    | dead => rw [State.gather_cons_passed (.inl rfl), ih, hlen, List.countP_cons]; rfl
    | torn => rw [State.gather_cons_passed (.inr rfl), ih, hlen, List.countP_cons]; rfl

/-- A LIVE slot outside every HOLD window: something is gathered (R118). -/
theorem State.gather_ne_nil {room lgn : Nat} {es : List Slot} (hm : .live lgn ∈ es) (hw : s.inHoldWindow lgn = false)
    (c : Nat) : (s.gather (room + 1) c es).slots ≠ [] := by
  induction es generalizing c with
  | nil => simp at hm
  | cons e es ih =>
    cases e with
    | live l =>
      cases hl : s.inHoldWindow l with
      | false => rw [State.gather_cons_taken hl]; simp
      | true =>
        rw [State.gather_cons_skipped hl]
        refine ih ((List.mem_cons.1 hm).resolve_left fun h => ?_) (c + 1)
        cases h
        simp [hw] at hl
    | dead => rw [State.gather_cons_passed (.inl rfl)]; exact ih (by simpa using hm) (c + 1)
    | torn => rw [State.gather_cons_passed (.inr rfl)]; exact ih (by simpa using hm) (c + 1)

/-- What gathering from slot `c` on finds, the slots from there on being `es`, looked up by number with `f` (R118). -/
structure State.GatheredFrom (s : State) (room c : Nat) (es : List Slot) (f : Nat → Option Slot) (g : Gathered) : Prop where
  slots : g.slots.map Prod.fst = ((List.range' c es.length).filter fun j => s.takesSlot (f j)).take room
  live : ∀ x ∈ g.slots, f x.1 = some (.live x.2) ∧ s.inHoldWindow x.2 = false
  cursor : g.cursor = if g.slots.length < room then c + es.length else (g.slots.map Prod.fst).getLast?.elim c (· + 1)
  skipped : g.skipped = (List.range' c (g.cursor - c)).countP fun j => s.skipsSlot (f j)
  bounds : c ≤ g.cursor

/-- A slot that is not taken is passed, counted where it is skipped. -/
theorem State.GatheredFrom.pass {room c : Nat} {e : Slot} {es : List Slot} {f : Nat → Option Slot} {g : Gathered}
    (h : s.GatheredFrom (room + 1) (c + 1) es f g) (hf : f c = some e) (ht : s.takesSlot (some e) = false) :
    s.GatheredFrom (room + 1) c (e :: es) f ⟨g.slots, g.cursor, g.skipped + (s.skipsSlot (some e)).toNat⟩ := by
  obtain ⟨hslots, hlive, hcur, hskip, hbound⟩ := h
  refine ⟨?_, hlive, ?_, ?_, by show c ≤ g.cursor; omega⟩
  · rw [List.length_cons, List.range'_succ, List.filter_cons_of_neg (by simp [hf, ht])]
    exact hslots
  · show g.cursor = if g.slots.length < room + 1 then c + (es.length + 1) else _
    rw [hcur]
    split
    · omega
    · cases hl : (g.slots.map Prod.fst).getLast? with
      | some x => rfl
      | none =>
        have hnil : g.slots = [] := by simpa using hl
        simp [hnil] at *
  · show g.skipped + _ = (List.range' c (g.cursor - c)).countP _
    obtain ⟨k, hk⟩ : ∃ k, g.cursor = c + 1 + k := ⟨g.cursor - (c + 1), by omega⟩
    rw [hk] at hskip ⊢
    rw [show c + 1 + k - c = k + 1 by omega, List.range'_succ, List.countP_cons, hf, hskip,
      show c + 1 + k - (c + 1) = k by omega]
    cases s.skipsSlot (some e) <;> rfl

/-- Gathering, slot by slot (R118). -/
theorem State.gather_spec {f : Nat → Option Slot} (room : Nat) (es : List Slot) (c : Nat)
    (hf : ∀ i, i < es.length → f (c + i) = es[i]?) : s.GatheredFrom room c es f (s.gather room c es) := by
  induction es generalizing room c with
  | nil =>
    have hnil : s.gather room c [] = ⟨[], c, 0⟩ := by cases room <;> rfl
    rw [hnil]
    exact ⟨by simp, by simp, by simp, by simp, Nat.le_refl c⟩
  | cons e es ih =>
    have hhead : f c = some e := by simpa using hf 0 (by simp)
    have htail (r : Nat) : s.GatheredFrom r (c + 1) es f (s.gather r (c + 1) es) := by
      refine ih r (c + 1) fun i hi => ?_
      have := hf (i + 1) (by simpa using hi)
      rw [show c + 1 + i = c + (i + 1) by omega, this]
      simp
    cases room with
    | zero =>
      rw [State.gather_full]
      exact ⟨by simp, by simp, by simp, by simp, Nat.le_refl c⟩
    | succ room =>
      cases e with
      | dead => exact (htail (room + 1)).pass hhead rfl
      | torn => exact (htail (room + 1)).pass hhead rfl
      | live lgn =>
        cases hl : s.inHoldWindow lgn with
        | true =>
          rw [State.gather_cons_skipped hl]
          have := (htail (room + 1)).pass hhead (by simp [State.takesSlot, hl])
          simpa [State.skipsSlot, hl] using this
        | false =>
          rw [State.gather_cons_taken hl]
          obtain ⟨hslots, hlive, hcur, hskip, hbound⟩ := htail room
          generalize s.gather room (c + 1) es = g at hslots hlive hcur hskip hbound
          refine ⟨?_, ?_, ?_, ?_, by show c ≤ g.cursor; omega⟩
          · rw [List.length_cons, List.range'_succ,
              List.filter_cons_of_pos (by simp [hhead, State.takesSlot, hl]), List.take_succ_cons, List.map_cons, hslots]
          · simp only [List.mem_cons, forall_eq_or_imp]
            exact ⟨⟨hhead, hl⟩, hlive⟩
          · show g.cursor = if g.slots.length + 1 < room + 1 then c + (es.length + 1) else _
            rw [hcur]
            by_cases hlt : g.slots.length < room
            · rw [if_pos hlt, if_pos (by omega)]; omega
            · rw [if_neg hlt, if_neg (by omega), List.map_cons]
              cases hm : g.slots.map Prod.fst with
              | nil => rfl
              | cons a l => simp [List.getLast?_cons]
          · show g.skipped = (List.range' c (g.cursor - c)).countP _
            obtain ⟨k, hk⟩ : ∃ k, g.cursor = c + 1 + k := ⟨g.cursor - (c + 1), by omega⟩
            rw [hk] at hskip ⊢
            rw [show c + 1 + k - c = k + 1 by omega, List.range'_succ, List.countP_cons, hhead, hskip,
              show c + 1 + k - (c + 1) = k by omega]
            simp [State.skipsSlot, hl]

end

/-! ### What a batch gathers of a band, as the rules say it (R118) -/

section
variable {s : State} {v : Victim} {bd : Band}

theorem range_split {c n : Nat} (h : c ≤ n) : List.range n = List.range c ++ List.range' c (n - c) := by
  obtain ⟨k, rfl⟩ := Nat.exists_eq_add_of_le h
  rw [List.range_eq_range', List.range_eq_range', Nat.add_sub_cancel_left, ← List.range'_append_1, Nat.zero_add]

theorem State.gathers_eq (s : State) (v : Victim) (bd : Band) (h : v.cursor ≤ bd.slots.length) :
    s.gathers v bd =
      ((List.range' v.cursor (bd.slots.length - v.cursor)).filter fun j => s.takesSlot bd.slots[j]?).take 32 := by
  have hall : s.gathers v bd = ((List.range bd.slots.length).filter fun j =>
      decide (v.cursor ≤ j) && s.takesSlot bd.slots[j]?).take 32 := rfl
  have hbefore : (List.range v.cursor).filter (fun j => decide (v.cursor ≤ j) && s.takesSlot bd.slots[j]?) = [] := by
    refine List.filter_eq_nil_iff.2 fun j hj => ?_
    simp [Nat.not_le.2 (List.mem_range.1 hj)]
  rw [hall, range_split h, List.filter_append, hbefore, List.nil_append]
  congr 1
  refine List.filter_congr fun j hj => ?_
  simp [(List.mem_range'_1.1 hj).1]

theorem State.skipsTo_eq (s : State) (v : Victim) (bd : Band) {stop : Nat} (h : v.cursor ≤ stop) :
    s.skipsTo v bd stop = (List.range' v.cursor (stop - v.cursor)).countP fun j => s.skipsSlot bd.slots[j]? := by
  have hall : s.skipsTo v bd stop =
      (List.range stop).countP fun j => decide (v.cursor ≤ j) && s.skipsSlot bd.slots[j]? := by
    rfl
  have hbefore : (List.range v.cursor).countP (fun j => decide (v.cursor ≤ j) && s.skipsSlot bd.slots[j]?) = 0 := by
    refine List.countP_eq_zero.2 fun j hj => ?_
    simp [Nat.not_le.2 (List.mem_range.1 hj)]
  rw [hall, range_split h, List.countP_append, hbefore, Nat.zero_add]
  refine List.countP_congr fun j hj => ?_
  simp [(List.mem_range'_1.1 hj).1]

/-- What a batch of a victim gathers (R118). -/
def State.gathered (s : State) (v : Victim) (bd : Band) : Gathered :=
  s.gather Config.batchLimit v.cursor (bd.slots.drop v.cursor)

/-- A batch's slots, its cursor and the slots it skips (R118). -/
theorem State.gathered_spec (s : State) (h : v.cursor ≤ bd.slots.length) :
    (s.gathered v bd).slots.map Prod.fst = s.gathers v bd
      ∧ (∀ x ∈ (s.gathered v bd).slots, bd.slots[x.1]? = some (.live x.2) ∧ s.inHoldWindow x.2 = false)
      ∧ (s.gathered v bd).skipped = s.skipsTo v bd (s.gathered v bd).cursor
      ∧ ((s.gathered v bd).slots ≠ [] → (s.gathered v bd).cursor =
        if (s.gathers v bd).length < 32 then bd.slots.length else (s.gathers v bd).getLastD 0 + 1) := by
  obtain ⟨hslots, hlive, hcur, hskip, hbound⟩ := State.gather_spec (s := s) (f := fun j => bd.slots[j]?) Config.batchLimit
    (bd.slots.drop v.cursor) v.cursor (fun i _ => by rw [List.getElem?_drop])
  have hmap : (s.gathered v bd).slots.map Prod.fst = s.gathers v bd := by
    rw [State.gathers_eq s v bd h, ← List.length_drop]
    exact hslots
  refine ⟨hmap, hlive, hskip.trans (State.skipsTo_eq s v bd hbound).symm, fun hne => ?_⟩
  have hcur : (s.gathered v bd).cursor = if (s.gathered v bd).slots.length < 32 then
      v.cursor + (bd.slots.drop v.cursor).length
    else ((s.gathered v bd).slots.map Prod.fst).getLast?.elim v.cursor (· + 1) := hcur
  rw [hcur, hmap, ← hmap, List.length_map]
  split
  · rw [List.length_drop]; omega
  · cases hm : (s.gathered v bd).slots.map Prod.fst with
    | nil => exact absurd (List.map_eq_nil_iff.1 hm) hne
    | cons a l => simp [List.getLast?_cons]

/-- A batch gathers slots in rising order (R118). -/
theorem State.gathers_pairwise (s : State) (v : Victim) (bd : Band) : (s.gathers v bd).Pairwise (· < ·) :=
  (List.pairwise_lt_range.filter _).sublist (List.take_sublist ..)

end

end Sys2Proof.Machine
end

section
namespace Sys2Proof.Machine

/-! ### What work on a stream's head leaves as it was (R66 to R68) -/

/-- What `t` keeps of `s` after work on the heads of streams: every block but the queues, the replies and the streams'
own records, and every band that was not EMPTY. -/
structure State.HeadWork (s t : State) : Prop where
  gmu : t.gmu = s.gmu
  slu : t.slu = s.slu
  mpt : t.mpt = s.mpt
  cle : t.cle = s.cle
  qen : t.qen = s.qen
  ctl : t.ctl = s.ctl
  windows : t.evu.windows = s.evu.windows
  notices : t.evu.watchQueue = s.evu.watchQueue
  zones : t.btu.zones = s.btu.zones
  reserve : t.btu.reserve = s.btu.reserve
  refresh : t.btu.refresh = s.btu.refresh
  count : t.btu.bands.length = s.btu.bands.length
  sound : t.BandsSound
  bands : ∀ {b : Nat} {bd : Band}, s.band? b = some bd → bd.state ≠ .empty → t.band? b = some bd
  empties : ∀ {b : Nat} {bd : Band}, s.band? b = some bd → bd.state = .empty →
    t.band? b = some bd ∨ ∃ x, t.band? b = some { bd with state := .opened, stream := x }
  exposed : ∀ m, (t.stream m).exposed = (s.stream m).exposed
  lo : ∀ m, (t.stream m).lo = (s.stream m).lo
  hi : ∀ m, (t.stream m).hi = (s.stream m).hi

namespace State.HeadWork
variable {s t : State} {n : Fin 9}

theorem refl (h : s.BandsSound) : s.HeadWork s :=
  ⟨rfl, rfl, rfl, rfl, rfl, rfl, rfl, rfl, rfl, rfl, rfl, rfl, h, fun hb _ => hb, fun hb _ => .inl hb, fun _ => rfl,
    fun _ => rfl, fun _ => rfl⟩

theorem base (s : State) : Kept.Base s.HeadWork where
  outbound := fun _ h => { h with }
  requests := fun _ _ h => { h with }
  events := fun _ _ h => { h with }
  queues := fun _ _ _ h => { h with }
  buffers := fun _ h => { h with }

/-- A stream record may change in all but its zone range and its exposed set. -/
theorem stream {x : Stream} (hlo : x.lo = (t.stream n).lo) (hhi : x.hi = (t.stream n).hi)
    (hex : x.exposed = (t.stream n).exposed) (h : s.HeadWork t) : s.HeadWork (t.setStream n x) :=
  have hkeep {α : Type} {f : Stream → α} (hf : f x = f (t.stream n)) (m : Fin 9) :
      f ((t.setStream n x).stream m) = f (t.stream m) := by
    rw [State.stream_setStream]
    split
    · next hm => rw [hm, hf]
    · rfl
  { h with
    exposed := fun m => (hkeep hex m).trans (h.exposed m)
    lo := fun m => (hkeep hlo m).trans (h.lo m)
    hi := fun m => (hkeep hhi m).trans (h.hi m) }

theorem judgePressureOn (h : s.HeadWork t) : s.HeadWork t.judgePressureOn :=
  (base s).judgePressureOn (fun _ h => { h with }) h

/-- An EMPTY band may become OPEN for a stream. -/
theorem openBand {b : Nat} {bd : Band} (hb : t.band? b = some bd) (he : bd.state = .empty) (x : Option (Fin 9))
    (h : s.HeadWork t) : s.HeadWork (t.updBand b fun bd => { bd with state := .opened, stream := x }) := by
  have hband (k : Nat) := t.band?_updBand b k fun bd => { bd with state := .opened, stream := x }
  refine { h with count := ?_, sound := ?_, bands := fun {k} bk hk hne => ?_, empties := fun {k} bk hk hemp => ?_ }
  · exact List.length_modify .. |>.trans h.count
  · exact h.sound.updBand b fun _ _ hx => hx
  · have hkt := h.bands hk hne
    have hkb : b ≠ k := by
      rintro rfl
      exact hne ((Option.some.inj (hkt.symm.trans hb)) ▸ he)
    rw [hband, hkt, Option.map_some, if_neg hkb]
  · rw [hband]
    obtain hkt | ⟨y, hkt⟩ := h.empties hk hemp
    · rw [hkt, Option.map_some]
      by_cases hkb : b = k
      · exact .inr ⟨_, congrArg some (if_pos hkb)⟩
      · exact .inl (congrArg some (if_neg hkb))
    · rw [hkt, Option.map_some]
      by_cases hkb : b = k
      · exact .inr ⟨_, congrArg some (if_pos hkb)⟩
      · exact .inr ⟨_, congrArg some (if_neg hkb)⟩

end State.HeadWork

/-- A band that is picked for an open is EMPTY (R25, R27). -/
theorem State.firstFree_isEmpty {s : State} (hs : s.BandsSound) {lo hi b : Nat} (h : s.firstFree lo hi = some b) :
    ∃ bd, s.band? b = some bd ∧ bd.state = .empty := by
  obtain ⟨bd, hfind, rfl⟩ := Option.map_eq_some_iff.1 h
  obtain ⟨i, hi⟩ := List.mem_iff_getElem?.1 (List.mem_of_find?_eq_some hfind)
  have hfree := List.find?_some hfind
  have hnum : bd.number = i := (hs i bd hi).1
  refine ⟨bd, hnum ▸ hi, ?_⟩
  simp only [Bool.and_eq_true] at hfree
  simpa [Band.isFree] using hfree.1.1

theorem State.pickBand_isEmpty {s : State} (hs : s.BandsSound) {n : Fin 9} {b : Nat} {spill : Bool}
    (h : s.pickBand n = some (b, spill)) : ∃ bd, s.band? b = some bd ∧ bd.state = .empty := by
  unfold State.pickBand at h
  split at h
  · next k hk =>
    cases h
    exact s.firstFree_isEmpty hs hk
  · obtain ⟨k, hk, hkb⟩ := Option.map_eq_some_iff.1 h
    cases hkb
    exact State.firstFree_isEmpty hs hk

namespace State.HeadWork
variable {s t : State} {n : Fin 9}

theorem grantOpen (h : s.HeadWork t) : s.HeadWork (t.grantOpen n) := by
  unfold State.grantOpen
  split
  · next b spill hpick =>
    obtain ⟨bd, hb, he⟩ := State.pickBand_isEmpty h.sound hpick
    have hraise : s.HeadWork (t.raiseSpill n spill) := by
      unfold State.raiseSpill
      split
      · exact (base s).raise h ..
      · exact h
    obtain ⟨-, -, -, -, -, -, hbtu⟩ := t.raiseSpill_frame n spill
    have hb' : (t.raiseSpill n spill).band? b = some bd := (State.band?_congr (congrArg Btu.bands hbtu) b).trans hb
    have hopen : s.HeadWork ((t.raiseSpill n spill).openFor n b) :=
      stream (n := n) rfl rfl rfl (hraise.openBand hb' he (some n))
    exact hopen.judgePressureOn
  · exact h

/-- What a slot holds is as before. -/
theorem slotLiveFor (h : s.HeadWork t) (src : Home) (lgn : Nat) : t.slotLiveFor src lgn = s.slotLiveFor src lgn := by
  cases hb : s.band? src.band with
  | none =>
    have hbt : t.band? src.band = none := by
      refine List.getElem?_eq_none ?_
      rw [h.count]
      exact List.getElem?_eq_none_iff.1 hb
    simp [State.slotLiveFor, hb, hbt]
  | some bd =>
    by_cases hne : bd.state = .empty
    · obtain hbt | ⟨x, hbt⟩ := h.empties hb hne <;> simp [State.slotLiveFor, hb, hbt]
    · simp [State.slotLiveFor, hb, h.bands hb hne]

/-- Work on a stream's head is of this kind. -/
theorem pump (s : State) (n : Fin 9) : Kept.Pump s.HeadWork n :=
  { base s with
    stream := stream
    wait := fun _ h => { h with }
    grant := grantOpen }

end State.HeadWork

end Sys2Proof.Machine
end

section
namespace Sys2Proof.Machine

/-! ### Work on the head of a stream that holds copies alone (R66 to R68, R121) -/

section
variable {s : State} {n : Fin 9}

/-- The next run of the item being written joins a queue, if there is one (R68, R142). -/
theorem State.queueRun_join (s : State) (n : Fin 9) :
    ∃ h, s.queueRun n = { s with har := h } ∧ (h = s.har ∨ ∃ o, h = s.har.join o) := by
  unfold State.queueRun
  dsimp only
  split
  · split
    · exact ⟨_, State.handOver_write rfl rfl, .inr ⟨_, rfl⟩⟩
    · exact ⟨s.har, rfl, .inl rfl⟩
  · exact ⟨s.har, rfl, .inl rfl⟩

/-- Whether an item is a copy of the cleaner (R121). -/
def Item.isCopy (it : Item) : Bool :=
  match it.work with
  | .clean _ => true
  | .store _ _ => false
  | .fold _ _ => false
  | .replace _ => false

theorem Item.isCopy_iff {it : Item} : it.isCopy = true ↔ ∃ src, it.work = .clean src := by
  unfold Item.isCopy
  split <;> simp_all

theorem State.stale_of_isCopy {it : Item} (h : it.isCopy = true) : s.stale it = false := by
  obtain ⟨src, hsrc⟩ := Item.isCopy_iff.1 h
  simp [State.stale, hsrc]

theorem hostOpen_of_isCopy {it : Item} (h : it.isCopy = true) (x : Stream) : hostOpen x it = false := by
  obtain ⟨src, hsrc⟩ := Item.isCopy_iff.1 h
  simp [hostOpen, hsrc, Work.isStore]

theorem State.fifo_updStream (s : State) {f : Stream → Stream} (h : (f (s.stream n)).fifo = (s.stream n).fifo) :
    ((s.updStream n f).stream n).fifo = (s.stream n).fifo := by
  rw [State.stream_updStream, if_pos rfl, h]

/-- Copies stay in the FIFO till they are written, and at most one run joins a queue (R66 to R68). -/
theorem State.pumpFor_copies (hc : ∀ it ∈ (s.stream n).fifo, it.isCopy = true) (fuel : Nat) :
    ((s.pumpFor n fuel).stream n).fifo = (s.stream n).fifo
      ∧ ((s.pumpFor n fuel).har = s.har ∨ ∃ o, (s.pumpFor n fuel).har = s.har.join o) := by
  induction fuel generalizing s with
  | zero => exact ⟨rfl, .inl rfl⟩
  | succ fuel ih =>
    unfold State.pumpFor
    dsimp only
    split
    · exact ⟨rfl, .inl rfl⟩
    split
    · exact ⟨rfl, .inl rfl⟩
    next it rest hfifo =>
    have hit : it.isCopy = true := hc it (hfifo ▸ List.mem_cons_self)
    rw [hostOpen_of_isCopy hit, State.stale_of_isCopy hit]
    split
    · split
      · exact absurd ‹_› (by simp)
      split
      · exact ⟨s.fifo_updStream (f := fun x => { x with openPending := true }) rfl, .inl rfl⟩
      · have hkeep : (s.grantOpen n).har = s.har ∧ ((s.grantOpen n).stream n).fifo = (s.stream n).fifo := by
          unfold State.grantOpen
          split
          · obtain ⟨hhar, -, -, -, -, -, -, hfifo⟩ := s.grantBand_frame n _ _
            exact ⟨hhar, hfifo n⟩
          · exact ⟨rfl, rfl⟩
        obtain ⟨hhar, hf⟩ := hkeep
        have := ih (s := s.grantOpen n) (hf ▸ hc)
        rwa [hhar, hf] at this
    · next b hb =>
      split
      · exact ⟨rfl, .inl rfl⟩
      split
      · exact absurd ‹_› (by simp)
      · obtain ⟨u, hu⟩ : ∃ u, u = s.updStream n fun x => { x with writing := some (slotsBehind (s.frontier b)) } := ⟨_, rfl⟩
        obtain ⟨h, hq, hjoin⟩ := u.queueRun_join n
        have hf : (u.stream n).fifo = (s.stream n).fifo := by rw [hu]; exact s.fifo_updStream rfl
        have hhar : u.har = s.har := by rw [hu]; rfl
        rw [← hu, hq, ← hhar]
        exact ⟨hf, hjoin⟩

/-- Copies that join an empty FIFO: they are the FIFO, at most one run joins a queue, and none where none joins. -/
theorem State.enqueue_copies {items : List Item} (hf : (s.stream n).fifo = []) (hc : ∀ it ∈ items, it.isCopy = true) :
    ((s.enqueue n items).stream n).fifo = items
      ∧ ((s.enqueue n items).har = s.har ∨ ∃ o, (s.enqueue n items).har = s.har.join o)
      ∧ (items = [] → (s.enqueue n items).har = s.har) := by
  obtain ⟨u, hu⟩ : ∃ u, u = s.updStream n fun x => { x with fifo := x.fifo ++ items } := ⟨_, rfl⟩
  have hfifo : (u.stream n).fifo = items := by
    rw [hu, State.stream_updStream, if_pos rfl]
    simp [hf]
  have hhar : u.har = s.har := by rw [hu]; rfl
  obtain ⟨v, out, hraise, -⟩ := (u.goOn n).raiseEnded_eq u.recoveries
  have hpump : s.enqueue n items = (u.goOn n).raiseEnded u.recoveries := by rw [hu]; rfl
  obtain ⟨hstays, hjoin⟩ := State.pumpFor_copies (s := u) (n := n) (by rw [hfifo]; exact hc) ((u.stream n).fifo.length + 2)
  rw [hpump, hraise, ← hhar]
  refine ⟨hstays.trans hfifo, hjoin, fun hnil => ?_⟩
  show (u.goOn n).har = u.har
  exact congrArg State.har (State.pumpFor_empty (hfifo.trans hnil) _)

end

/-! ### Handing a batch's copies to stream 8 (R121) -/

/-- What a batch entry becomes once the copies that may go are handed over, in a batch of which `reading` are the slots
still to be read. -/
def BatchEntry.handedPast (e : BatchEntry) (reading : List Nat) : BatchEntry :=
  if e.state = .read ∧ ∀ j ∈ reading, e.slot ≤ j then { e with state := .handed } else e

/-- The slots of a batch still to be read. -/
def readingSlots (es : List BatchEntry) : List Nat :=
  (es.filter fun e => decide (e.state = .reading)).map BatchEntry.slot

/-- Handing over stops at the first slot still to be read (R121). -/
theorem handReady_eq (band : Nat) {es : List BatchEntry} (hst : ∀ e ∈ es, e.state = .read ∨ e.state = .reading)
    (hord : es.Pairwise fun x y => x.slot < y.slot) :
    (handReady band es).1 = es.map fun e => e.handedPast (readingSlots es) := by
  induction es with
  | nil => rfl
  | cons e es ih =>
    obtain ⟨hlow, hord⟩ := List.pairwise_cons.1 hord
    have ih := ih (fun x hx => hst x (List.mem_cons_of_mem e hx)) hord
    obtain hread | hread := hst e List.mem_cons_self
    · have hslots : readingSlots (e :: es) = readingSlots es := by simp [readingSlots, hread]
      have hfirst : e.handedPast (readingSlots es) = { e with state := .handed } := by
        refine if_pos ⟨hread, fun j hj => ?_⟩
        obtain ⟨x, hx, rfl⟩ := List.mem_map.1 hj
        exact (hlow x (List.mem_of_mem_filter hx)).le
      rw [hslots, List.map_cons, hfirst, ← ih]
      simp only [handReady, hread]
    · have hslots : readingSlots (e :: es) = e.slot :: readingSlots es := by simp [readingSlots, hread]
      have hfirst : e.handedPast (readingSlots (e :: es)) = e := if_neg (by simp [hread])
      have hrest : es.map (fun x => x.handedPast (readingSlots (e :: es))) = es := by
        refine (List.map_congr_left fun x hx => if_neg fun h => ?_).trans es.map_id
        exact absurd (h.2 e.slot (hslots ▸ List.mem_cons_self)) (Nat.not_le.2 (hlow x hx))
      rw [List.map_cons, hfirst, hrest]
      simp only [handReady, hread]

/-- The items handed over are those of the entries handed over. -/
theorem handReady_items (band : Nat) {es : List BatchEntry} (hst : ∀ e ∈ es, e.state = .read ∨ e.state = .reading) :
    (handReady band es).2 =
      ((handReady band es).1.filter fun e => decide (e.state = .handed)).map fun e => e.item band := by
  induction es with
  | nil => rfl
  | cons e es ih =>
    have ih := ih fun x hx => hst x (List.mem_cons_of_mem e hx)
    obtain hread | hread := hst e List.mem_cons_self
    · simp [handReady, hread, ih, BatchEntry.item]
    · have hnone : es.filter (fun x => decide (x.state = .handed)) = [] := by
        refine List.filter_eq_nil_iff.2 fun x hx => ?_
        obtain h | h := hst x (List.mem_cons_of_mem e hx) <;> simp [h]
      simp [handReady, hread, hnone]

end Sys2Proof.Machine
end

section
namespace Sys2Proof.Machine

/-! ### A batch of the walk as it starts (R118, R119, R121) -/

section
variable {s : State} {v : Victim} {bd : Band}

/-- The entries of a victim's next batch as they are gathered (R119). -/
def State.newEntries (s : State) (v : Victim) (bd : Band) : List BatchEntry :=
  (s.gathered v bd).slots.map (s.newEntry v.band)

/-- The read runs of a victim's next batch (R119). -/
def State.batchRuns (s : State) (v : Victim) (bd : Band) : List MediaOp :=
  (((s.newEntries v bd).filter fun e => decide (e.state = .reading)).map fun e => s.cleanRuns v.band e.slot).flatten

/-- The victim record once its next batch is gathered, none of the copies handed over yet. -/
def State.gatheredVictim (s : State) (v : Victim) (bd : Band) : Victim :=
  { v with
    cursor := (s.gathered v bd).cursor
    skipped := v.skipped + (s.gathered v bd).skipped
    batch := s.newEntries v bd }

/-- The victim record once its next batch has started: the copies that may go are handed over (R121). -/
def State.batchVictim (s : State) (v : Victim) (bd : Band) : Victim :=
  { s.gatheredVictim v bd with
    batch := (s.newEntries v bd).map fun e => e.handedPast (readingSlots (s.newEntries v bd)) }

/-- The copies a batch hands over as it starts (R121). -/
def State.batchItems (s : State) (v : Victim) (bd : Band) : List Item :=
  ((s.batchVictim v bd).batch.filter fun e => decide (e.state = .handed)).map fun e => e.item v.band

theorem State.newEntry_slot (s : State) (band : Nat) (x : Nat × Nat) : (s.newEntry band x).slot = x.1 := by
  unfold State.newEntry
  split <;> rfl

theorem State.newEntry_lgn (s : State) (band : Nat) (x : Nat × Nat) : (s.newEntry band x).lgn = x.2 := by
  unfold State.newEntry
  split <;> rfl

theorem State.newEntry_absent {band : Nat} {x : Nat × Nat} (h : s.heldCopy ⟨band, x.1⟩ = none) :
    (s.newEntry band x).state = .reading ∧ (s.newEntry band x).left = (s.cleanRuns band x.1).length := by
  simp [State.newEntry, h]

theorem State.newEntry_held {band : Nat} {x : Nat × Nat} {g : Granule} (h : s.heldCopy ⟨band, x.1⟩ = some g) :
    (s.newEntry band x).state = .read ∧ (s.newEntry band x).left = 0 ∧ (s.newEntry band x).buffer = g := by
  simp [State.newEntry, h]

theorem State.newEntry_reading_iff (s : State) (band : Nat) (x : Nat × Nat) :
    (s.newEntry band x).state = .reading ↔ s.heldCopy ⟨band, x.1⟩ = none := by
  cases h : s.heldCopy ⟨band, x.1⟩ with
  | none => exact iff_of_true (State.newEntry_absent h).1 rfl
  | some g => simp [(State.newEntry_held h).1]

theorem State.newEntry_state (s : State) (band : Nat) (x : Nat × Nat) :
    (s.newEntry band x).state = .read ∨ (s.newEntry band x).state = .reading := by
  unfold State.newEntry
  split
  · exact .inl rfl
  · exact .inr rfl

theorem State.newEntries_slots (h : v.cursor ≤ bd.slots.length) :
    (s.newEntries v bd).map BatchEntry.slot = s.gathers v bd := by
  rw [← (s.gathered_spec h).1, State.newEntries, List.map_map]
  exact List.map_congr_left fun x _ => s.newEntry_slot v.band x

/-- The slots of a batch still to be read are those without a retained copy (R119). -/
theorem State.readingSlots_newEntries (h : v.cursor ≤ bd.slots.length) :
    readingSlots (s.newEntries v bd) = (s.gathers v bd).filter fun j => decide (s.heldCopy ⟨v.band, j⟩ = none) := by
  rw [← (s.gathered_spec h).1, State.newEntries, readingSlots, List.filter_map, List.filter_map, List.map_map]
  have hsame : (fun e => decide (BatchEntry.state e = .reading)) ∘ s.newEntry v.band =
      (fun j => decide (s.heldCopy ⟨v.band, j⟩ = none)) ∘ Prod.fst :=
    funext fun x => decide_eq_decide.2 (s.newEntry_reading_iff v.band x)
  rw [hsame]
  exact List.map_congr_left fun x _ => s.newEntry_slot v.band x

theorem BatchEntry.handedPast_slot (e : BatchEntry) (js : List Nat) : (e.handedPast js).slot = e.slot := by
  unfold BatchEntry.handedPast
  split <;> rfl

/-- An entry still to be read is not handed over. -/
theorem BatchEntry.handedPast_reading {e : BatchEntry} (h : e.state = .reading) (js : List Nat) : e.handedPast js = e :=
  if_neg fun hx => by simp [h] at hx

/-- A copy at hand is handed over where no slot below it is still to be read (R121). -/
theorem BatchEntry.handedPast_read {e : BatchEntry} (h : e.state = .read) (js : List Nat) :
    (e.handedPast js).lgn = e.lgn ∧ (e.handedPast js).buffer = e.buffer ∧ (e.handedPast js).left = e.left
      ∧ (e.handedPast js).state = if ∃ j ∈ js, j < e.slot then .read else .handed := by
  unfold BatchEntry.handedPast
  by_cases hj : ∃ j ∈ js, j < e.slot
  · rw [if_pos hj, if_neg fun hx => ?_]
    · exact ⟨rfl, rfl, rfl, h⟩
    · obtain ⟨j, hj, hlt⟩ := hj
      exact absurd (hx.2 j hj) (Nat.not_le.2 hlt)
  · rw [if_neg hj, if_pos ⟨h, fun j hm => Nat.le_of_not_lt fun hlt => hj ⟨j, hm, hlt⟩⟩]
    exact ⟨rfl, rfl, rfl, rfl⟩

theorem State.batchVictim_slots (h : v.cursor ≤ bd.slots.length) :
    (s.batchVictim v bd).batch.map BatchEntry.slot = s.gathers v bd := by
  rw [← State.newEntries_slots h, State.batchVictim, List.map_map]
  exact List.map_congr_left fun e _ => e.handedPast_slot _

/-- Each entry of a batch as it starts (R118, R119, R121). -/
theorem State.batchVictim_entries (h : v.cursor ≤ bd.slots.length) {reads : List Nat}
    (hreads : reads = (s.gathers v bd).filter fun j => decide (s.heldCopy ⟨v.band, j⟩ = none)) {e : BatchEntry}
    (he : e ∈ (s.batchVictim v bd).batch) :
    bd.slots[e.slot]? = some (.live e.lgn) ∧ s.inHoldWindow e.lgn = false
      ∧ (s.heldCopy ⟨v.band, e.slot⟩ = none →
        e.state = .reading ∧ e.left = (cutSpan (s.geo v.band).spt (16 * e.slot) 16).length)
      ∧ ∀ g, s.heldCopy ⟨v.band, e.slot⟩ = some g → e.buffer = g ∧ e.left = 0
        ∧ e.state = if ∃ j ∈ reads, j < e.slot then .read else .handed := by
  rw [← State.readingSlots_newEntries h] at hreads
  obtain ⟨y, hy, rfl⟩ := List.mem_map.1 he
  obtain ⟨x, hx, rfl⟩ := List.mem_map.1 hy
  rw [← hreads, BatchEntry.handedPast_slot, State.newEntry_slot]
  obtain ⟨-, hlive, -, -⟩ := s.gathered_spec h
  obtain ⟨hslot, hwin⟩ := hlive x hx
  have hlgn := s.newEntry_lgn v.band x
  cases hheld : s.heldCopy ⟨v.band, x.1⟩ with
  | none =>
    obtain ⟨hst, hleft⟩ := State.newEntry_absent hheld
    rw [BatchEntry.handedPast_reading hst, hlgn]
    refine ⟨hslot, hwin, fun _ => ⟨hst, hleft.trans ?_⟩, nofun⟩
    rw [State.cleanRuns, State.homeRuns, List.length_map, Nat.add_zero]
  | some g =>
    obtain ⟨hst, hleft, hbuf⟩ := State.newEntry_held hheld
    obtain ⟨hlgn', hbuf', hleft', hst'⟩ := BatchEntry.handedPast_read hst reads
    rw [hlgn', hlgn, hbuf', hbuf, hleft', hleft, hst', State.newEntry_slot]
    exact ⟨hslot, hwin, nofun, fun g' hg => ⟨Option.some.inj hg, rfl, rfl⟩⟩

/-- A batch whose slots are all still to be read hands nothing over. -/
theorem State.batchItems_eq_nil (h : v.cursor ≤ bd.slots.length)
    (hall : ∀ j ∈ s.gathers v bd, s.heldCopy ⟨v.band, j⟩ = none) : s.batchItems v bd = [] := by
  refine List.map_eq_nil_iff.2 (List.filter_eq_nil_iff.2 fun e he => ?_)
  have hslot : e.slot ∈ s.gathers v bd := State.batchVictim_slots h ▸ List.mem_map_of_mem he
  obtain ⟨-, -, hread, -⟩ := State.batchVictim_entries h rfl he
  simp [(hread (hall _ hslot)).1]

end

end Sys2Proof.Machine
end

section
namespace Sys2Proof.Machine

/-! ### A batch started (R118, R119, R121) -/

section
variable {s : State} {v : Victim} {bd : Band}

theorem State.mem_batchRuns {o : MediaOp} (h : o ∈ s.batchRuns v bd) :
    o.cls = .clean ∧ o.bandRead = some v.band ∧ o.recordRead = none := by
  obtain ⟨l, hl, ho⟩ := List.mem_flatten.1 h
  obtain ⟨e, -, rfl⟩ := List.mem_map.1 hl
  obtain ⟨c, -, rfl⟩ := List.mem_map.1 ho
  exact ⟨rfl, rfl, rfl⟩

/-- The read runs of a batch, as the rules tell them (R8, R119). -/
theorem State.map_batchRuns (h : v.cursor ≤ bd.slots.length) {reads : List Nat}
    (hreads : reads = (s.gathers v bd).filter fun j => decide (s.heldCopy ⟨v.band, j⟩ = none)) :
    (s.batchRuns v bd).map MediaOp.run = (reads.map fun j => (cutSpan (s.geo v.band).spt (16 * j) 16).map fun c =>
      (⟨false, .band v.band, (s.geo v.band).track0 + c.track, c.sector, c.count, c.offset, none⟩ : Run)).flatten := by
  rw [hreads, ← State.readingSlots_newEntries h, State.batchRuns, readingSlots, List.map_flatten, List.map_map, List.map_map]
  congr 1
  refine List.map_congr_left fun e _ => ?_
  simp [State.cleanRuns, State.homeRuns, MediaOp.run]

theorem State.length_batchRuns (h : v.cursor ≤ bd.slots.length) {reads : List Nat}
    (hreads : reads = (s.gathers v bd).filter fun j => decide (s.heldCopy ⟨v.band, j⟩ = none)) :
    (s.batchRuns v bd).length = (reads.map fun j => (cutSpan (s.geo v.band).spt (16 * j) 16).length).sum := by
  rw [← List.length_map MediaOp.run, State.map_batchRuns h hreads, List.length_flatten, List.map_map]
  simp [Function.comp_def]

/-- What a batch that gathers slots makes of the part (R118, R119, R121). -/
structure State.BatchStarted (s t : State) (v : Victim) (bd : Band) : Prop where
  cle : t.cle = { s.cle with stage := .batch, victim := some (s.batchVictim v bd) }
  band : t.band? v.band = some { bd with readers := bd.readers + (s.batchRuns v bd).length }
  refresh : t.btu.refresh = s.btu.refresh
  gmu : t.gmu = s.gmu
  slu : t.slu = s.slu
  mpt : t.mpt = s.mpt
  copies : (s.stream relocation).fifo = [] → (t.stream relocation).fifo = s.batchItems v bd
    ∧ ∃ more, (t.har.queue .clean).map MediaOp.run =
        (s.har.queue .clean).map MediaOp.run ++ (s.batchRuns v bd).map MediaOp.run ++ more
      ∧ (s.batchItems v bd = [] → more = [])

/-- The part once a batch's slots are gathered and its reads queued, no copy handed over yet. -/
def State.batchReads (s : State) (v : Victim) (bd : Band) : State :=
  { s with
    cle := { s.cle with stage := .batch, victim := some (s.gatheredVictim v bd) }
    residue := s.residue + 1 }.handOverAll (s.batchRuns v bd)

theorem State.gatherBatch_eq (hne : (s.gathered v bd).slots ≠ []) :
    s.gatherBatch v bd = (s.batchReads v bd).handBatch := by
  unfold State.gatherBatch
  dsimp only
  rw [if_neg (by simpa [State.gathered] using hne)]
  rfl

/-- The copies of a batch go to stream 8, its reads queued before (R119, R121). -/
theorem State.handBatch_batchReads (h : v.cursor ≤ bd.slots.length) :
    (s.batchReads v bd).handBatch =
      ((s.batchReads v bd).setVictim (s.batchVictim v bd)).enqueue relocation (s.batchItems v bd) := by
  have hstates : ∀ e ∈ s.newEntries v bd, e.state = .read ∨ e.state = .reading := by
    intro e he
    obtain ⟨x, -, rfl⟩ := List.mem_map.1 he
    exact s.newEntry_state v.band x
  have hord : (s.newEntries v bd).Pairwise fun x y => x.slot < y.slot := by
    have := s.gathers_pairwise v bd
    rwa [← State.newEntries_slots h, List.pairwise_map] at this
  have hbatch := handReady_eq v.band hstates hord
  have hitems : (handReady v.band (s.newEntries v bd)).2 = s.batchItems v bd := by
    rw [handReady_items v.band hstates, hbatch]
    rfl
  have hvictim : (s.batchReads v bd).cle.victim = some (s.gatheredVictim v bd) := by
    rw [State.batchReads, State.handOverAll_eq]
  have hv : ({ s.gatheredVictim v bd with batch := (handReady v.band (s.newEntries v bd)).1 } : Victim) =
      s.batchVictim v bd := by
    rw [hbatch]
    rfl
  rw [← hitems, ← hv]
  unfold State.handBatch
  rw [hvictim]
  rfl

/-- What a batch that gathers slots does (R118, R119, R121). -/
theorem State.gatherBatch_started (hs : s.BandsSound) (hb : s.band? v.band = some bd) (hst : bd.state = .cleaning)
    (h : v.cursor ≤ bd.slots.length) (hne : (s.gathered v bd).slots ≠ []) :
    s.BatchStarted (s.gatherBatch v bd) v bd := by
  obtain ⟨u, hu⟩ : ∃ u, u = (s.batchReads v bd).setVictim (s.batchVictim v bd) := ⟨_, rfl⟩
  have heq : s.gatherBatch v bd = u.enqueue relocation (s.batchItems v bd) := by
    rw [State.gatherBatch_eq hne, State.handBatch_batchReads h, hu]
  have hreads : s.batchReads v bd = { s with
      cle := { s.cle with stage := .batch, victim := some (s.gatheredVictim v bd) }
      residue := s.residue + 1
      har := (s.batchRuns v bd).foldl Har.join s.har
      btu := (s.batchRuns v bd).foldl Btu.countRead s.btu } := by
    rw [State.batchReads, State.handOverAll_eq, Slu.countReads_of_none fun o ho => (State.mem_batchRuns ho).2.2]
  have hcount : (s.batchRuns v bd).countP (fun o => decide (o.bandRead = some v.band)) = (s.batchRuns v bd).length :=
    List.countP_eq_length.2 fun o ho => by simp [(State.mem_batchRuns ho).2.1]
  have hband : u.band? v.band = some { bd with readers := bd.readers + (s.batchRuns v bd).length } := by
    have hbd : s.btu.bands[v.band]? = some bd := hb
    rw [hu, hreads]
    refine (Btu.bands_countReads ..).trans ?_
    rw [hbd, Option.map_some, hcount, Band.reading_of_takes (Band.takesReports_iff.2 (.inr (.inr hst)))]
  have hsound : u.BandsSound := by
    have := (State.handOverAll_work (BlockWork.refl { s with
      cle := { s.cle with stage := .batch, victim := some (s.gatheredVictim v bd) }
      residue := s.residue + 1 }) (s.batchRuns v bd)).bands hs
    rw [hu]
    exact this
  have hrefresh : u.btu.refresh = s.btu.refresh := by
    rw [hu, hreads]
    exact (s.batchRuns v bd).foldlRecOn (motive := fun x => x.refresh = s.btu.refresh) Btu.countRead rfl
      fun x hx o _ => by rw [← hx]; unfold Btu.countRead; split <;> rfl
  have hwork : u.HeadWork (s.gatherBatch v bd) := by
    rw [heq]
    exact (State.HeadWork.pump u relocation).enqueue (State.HeadWork.refl hsound) _
  refine ⟨hwork.cle.trans ?_, hwork.bands hband (by simp [hst]), hwork.refresh.trans hrefresh, hwork.gmu.trans ?_,
    hwork.slu.trans ?_, hwork.mpt.trans ?_, fun hf => ?_⟩
  · rw [hu, hreads]; rfl
  · rw [hu, hreads]; rfl
  · rw [hu, hreads]; rfl
  · rw [hu, hreads]; rfl
  · have hfu : (u.stream relocation).fifo = [] := by rw [hu, hreads]; exact hf
    have hqueue : (u.har.queue .clean).map MediaOp.run =
        (s.har.queue .clean).map MediaOp.run ++ (s.batchRuns v bd).map MediaOp.run := by
      rw [hu, hreads]
      exact Har.map_queue_joinAll MediaOp.run_fresh (fun o ho => (State.mem_batchRuns ho).1) s.har
    obtain ⟨hfifo, hjoin, hnone⟩ := State.enqueue_copies hfu (items := s.batchItems v bd) fun it hit => by
      obtain ⟨e, -, rfl⟩ := List.mem_map.1 hit
      rfl
    rw [← heq] at hfifo hjoin hnone
    refine ⟨hfifo, ?_⟩
    by_cases hnil : s.batchItems v bd = []
    · exact ⟨[], by rw [hnone hnil, hqueue, List.append_nil], fun _ => rfl⟩
    · obtain hsame | ⟨o, ho⟩ := hjoin
      · exact ⟨[], by rw [hsame, hqueue, List.append_nil], fun _ => rfl⟩
      · rw [ho, Har.queue_join]
        split
        · exact ⟨[o.run], by rw [List.map_append, hqueue]; rfl, fun h => absurd h hnil⟩
        · exact ⟨[], by rw [hqueue, List.append_nil], fun _ => rfl⟩

end

end Sys2Proof.Machine
end

section
namespace Sys2Proof.Machine

/-! ### Starting a batch (R118, R119, R121) -/

/-- The part with another pacer. -/
def State.withPacer (s : State) (p : Pacer) : State := { s with cle := { s.cle with pacer := p } }

/-- The pacer after a batch that is paced or not: a paced one spends a credit (R118). -/
def Pacer.spent (p : Pacer) (paced : Bool) : Pacer := if paced then { p with credits := p.credits - 1 } else p

section
variable {s : State} {v : Victim} {bd : Band}

theorem State.paced_iff : s.paced v = true ↔ s.btu.pressure = false ∧ v.origin ≠ .host ∧ s.cle.hostList = [] := by
  simp [State.paced, and_assoc]

theorem State.startBatch_waits (hv : s.cle.victim = some v) (hb : s.band? v.band = some bd)
    (hc : v.cursor < bd.slots.length) (hp : s.paced v = true) (h0 : s.cle.pacer.credits = 0) :
    s.startBatch = s.setStage .waitCredit := by
  simp [State.startBatch, hv, hb, Nat.not_le.2 hc, hp, h0]

theorem State.startBatch_gathers (hv : s.cle.victim = some v) (hb : s.band? v.band = some bd)
    (hc : v.cursor < bd.slots.length) (h : s.paced v = false ∨ 1 ≤ s.cle.pacer.credits) :
    s.startBatch = (s.withPacer (s.cle.pacer.spent (s.paced v))).gatherBatch v bd := by
  cases hp : s.paced v with
  | false =>
    have hsame : s.withPacer (s.cle.pacer.spent false) = s := rfl
    rw [hsame]
    simp [State.startBatch, hv, hb, Nat.not_le.2 hc, hp]
  | true =>
    have h1 : s.cle.pacer.credits ≠ 0 := by
      rw [hp] at h
      exact Nat.pos_iff_ne_zero.1 (h.resolve_left (by simp))
    simp [State.startBatch, hv, hb, Nat.not_le.2 hc, hp, h1, State.withPacer, Pacer.spent]

/-- With no LIVE slot left, none is gathered and the band is pending its reset (R118, R123). -/
theorem State.gatherBatch_last (hb : s.band? v.band = some bd) (hc : v.cursor ≤ bd.slots.length) (h0 : bd.live = 0) :
    s.gatherBatch v bd = (s.setVictim { v with cursor := bd.slots.length }).setStage .waitReset := by
  have hdead : ∀ x ∈ bd.slots, ¬ x.isLive = true := List.countP_eq_zero.1 h0
  have hnone : ∀ lgn, .live lgn ∈ bd.slots.drop v.cursor → s.inHoldWindow lgn = true :=
    fun lgn hm => absurd rfl (hdead _ (List.mem_of_mem_drop hm))
  have hskip : (bd.slots.drop v.cursor).countP Slot.isLive = 0 :=
    List.countP_eq_zero.2 fun x hx => hdead x (List.mem_of_mem_drop hx)
  have hlen : v.cursor + (bd.slots.drop v.cursor).length = bd.slots.length := by
    rw [List.length_drop]; omega
  unfold State.gatherBatch
  rw [show Config.batchLimit = 31 + 1 from rfl, State.gather_nothing hnone, hskip, hlen]
  simp [State.walkEnd, hb, h0]

end

theorem exec_batchStart (s : State) (hst : s.cle.stage = .halted ∨ s.cle.stage = .waitCredit)
    (hgo : s.walkMayProceed = true) : exec .batchStart s = .next s.startBatch :=
  congrArg _ (if_pos ⟨hst.symm, hgo⟩)

/-- Settles O40: the batch waits for a credit, finds nothing, or starts. -/
theorem batch_start_gathers : Obligations.Batch_start_gathers := by
  intro s v bd paced slots reads hs hst hv hup hmode hb hclean hc hempty hslots hreads hpaced
  subst hslots
  have hpaced : s.paced v = paced := Bool.eq_iff_iff.2 (State.paced_iff.trans hpaced.symm)
  have hgo : s.walkMayProceed = true := by simp [State.walkMayProceed, hup, hmode]
  rw [exec_batchStart s hst hgo]
  refine ⟨fun hp h0 => congrArg _ (State.startBatch_waits hv hb hc (hpaced.trans hp) h0), fun hok => ?_⟩
  rw [State.startBatch_gathers hv hb hc (hpaced ▸ hok), hpaced]
  obtain ⟨u, hu⟩ : ∃ u, u = s.withPacer (s.cle.pacer.spent paced) := ⟨_, rfl⟩
  have hbu : u.band? v.band = some bd := hu ▸ hb
  have hgathers : u.gathers v bd = s.gathers v bd := by rw [hu]; rfl
  have hheld : u.heldCopy = s.heldCopy := by rw [hu]; rfl
  have hgeo : u.geo = s.geo := by rw [hu]; rfl
  have hpacer : u.cle.pacer = s.cle.pacer.spent paced := by rw [hu]; rfl
  have hreads' : reads = (u.gathers v bd).filter fun j => decide (u.heldCopy ⟨v.band, j⟩ = none) := by
    rw [hgathers, hheld, hreads]
  rw [← hu]
  refine ⟨fun h0 => ?_, fun hne => ?_⟩
  · rw [State.gatherBatch_last hbu hc.le h0, hu]
    rfl
  obtain ⟨hmap, -, hskip, hcur⟩ := u.gathered_spec (v := v) (bd := bd) hc.le
  have hgne : (u.gathered v bd).slots ≠ [] := fun h => hne (by rw [← hgathers, ← hmap, h]; rfl)
  obtain ⟨hcle, hband, -, hgmu, hslu, hmpt, hcopies⟩ :=
    State.gatherBatch_started (by rw [hu]; exact hs) hbu hclean hc.le hgne
  obtain ⟨hfifo, more, hqueue, hmore⟩ := hcopies (by rw [hu]; exact hempty)
  refine ⟨_, u.batchVictim v bd, _, more, rfl, by rw [hcle], by rw [hcle], ?_, rfl, rfl, ?_, ?_, fun e he => ?_, hfifo,
    ?_, fun hall => hmore (State.batchItems_eq_nil hc.le ?_), hband, ?_, ?_, ?_, ?_, ?_⟩
  · rw [State.batchVictim_slots hc.le, hgathers]
  · exact (hcur hgne).trans (by rw [hgathers])
  · show v.skipped + (u.gathered v bd).skipped = v.skipped + s.skipsTo v bd (u.gathered v bd).cursor
    rw [hskip, hu]
    rfl
  · obtain ⟨hslot, -, hread, hhanded⟩ := State.batchVictim_entries hc.le hreads' he
    rw [hheld] at hread hhanded
    rw [hgeo] at hread
    exact ⟨hslot, hread, hhanded⟩
  · rw [hqueue, State.map_batchRuns hc.le hreads', hgeo, hu]
    rfl
  · rw [hheld, hgathers]
    intro j hj
    rw [← hall, hreads] at hj
    simpa using (List.mem_filter.1 hj).2
  · rw [State.length_batchRuns hc.le hreads', hgeo]
  · rw [hcle]
    exact hpacer
  · rw [hgmu, hu]; rfl
  · rw [hslu, hu]; rfl
  · rw [hmpt, hu]; rfl

end Sys2Proof.Machine
end

section
namespace Sys2Proof.Machine

/-! ### Taking a victim (R31, R117, R118) -/

section
variable {s : State} {b : Nat} {bd : Band} {origin : VictimOrigin} {tag : Option Nat}

/-- A band as the walk of its slots begins (R31). -/
def Band.walked (bd : Band) : Band := { bd with state := .cleaning, holdBlocked := false }

/-- The part once a band is taken as the victim, its walk not begun (R31, R117). -/
def State.victimNamed (s : State) (b : Nat) (origin : VictimOrigin) (tag : Option Nat) : State :=
  (s.enterCleaning b).setVictim { band := b, origin := origin, tag := tag }

theorem State.takeVictim_eq (s : State) (b : Nat) (origin : VictimOrigin) (tag : Option Nat) :
    s.takeVictim b origin tag = (s.victimNamed b origin tag).startBatch := rfl

theorem State.band?_victimNamed (hb : s.band? b = some bd) : (s.victimNamed b origin tag).band? b = some bd.walked := by
  have := s.band?_updBand b b Band.walked
  rw [hb, Option.map_some, if_pos rfl] at this
  exact this

theorem State.victimNamed_sound (hs : s.BandsSound) : (s.victimNamed b origin tag).BandsSound :=
  (State.enterCleaning_work (BlockWork.refl s) b).bands hs

theorem State.victimNamed_unlisted (s : State) (b : Nat) (origin : VictimOrigin) (tag : Option Nat) :
    b ∉ (s.victimNamed b origin tag).btu.refresh := by
  show b ∉ s.btu.refresh.filter _
  simp

/-- A victim with a slot to gather: its first batch is under way, and spends a credit where it is paced (R118). -/
theorem State.takeVictim_started {lgn : Nat} {paced : Bool} (hs : s.BandsSound) (hb : s.band? b = some bd) (hm : .live lgn ∈ bd.slots)
    (hw : s.inHoldWindow lgn = false)
    (hp : paced = (!s.btu.pressure && decide (origin ≠ .host) && s.cle.hostList.isEmpty))
    (hok : paced = false ∨ 1 ≤ s.cle.pacer.credits) :
    ∃ t v bd', s.takeVictim b origin tag = t ∧ t.band? b = some bd' ∧ bd'.state = .cleaning
      ∧ bd'.holdBlocked = false ∧ bd'.slots = bd.slots ∧ bd'.frontier = bd.frontier
      ∧ t.cle.victim = some v ∧ v.band = b ∧ v.origin = origin ∧ v.tag = tag ∧ t.cle.stage = .batch
      ∧ v.batch ≠ [] ∧ (∀ e ∈ v.batch, bd.slots[e.slot]? = some (.live e.lgn) ∧ s.inHoldWindow e.lgn = false)
      ∧ t.cle.pacer = s.cle.pacer.spent paced
      ∧ b ∉ t.btu.refresh ∧ t.cle.hostList = s.cle.hostList ∧ t.gmu = s.gmu ∧ t.slu = s.slu ∧ t.mpt = s.mpt := by
  obtain ⟨v, hv⟩ : ∃ v : Victim, v = ⟨b, origin, tag, 0, [], 0, 0, 0, 0⟩ := ⟨_, rfl⟩
  have hp : (s.victimNamed b origin tag).paced v = paced := by rw [hp, hv]; rfl
  have hlen : v.cursor < bd.walked.slots.length := hv ▸ List.length_pos_of_mem hm
  have hbv : (s.victimNamed b origin tag).band? v.band = some bd.walked := hv ▸ State.band?_victimNamed hb
  obtain ⟨u, hu⟩ : ∃ u, u = (s.victimNamed b origin tag).withPacer
      (s.cle.pacer.spent paced) := ⟨_, rfl⟩
  have hstart : s.takeVictim b origin tag = u.gatherBatch v bd.walked := by
    rw [State.takeVictim_eq, hu, ← hp]
    exact State.startBatch_gathers (hv ▸ rfl) hbv hlen (hp ▸ hok)
  have hwin : u.inHoldWindow = s.inHoldWindow := by rw [hu]; rfl
  have hgne : (u.gathered v bd.walked).slots ≠ [] := by
    refine u.gather_ne_nil (room := 31) (lgn := lgn) ?_ (hwin ▸ hw) v.cursor
    rw [hv]
    exact hm
  obtain ⟨hcle, hband, hrefresh, hgmu, hslu, hmpt, -⟩ := State.gatherBatch_started (s := u) (v := v)
    (hu ▸ State.victimNamed_sound (origin := origin) (tag := tag) hs) (hu ▸ hbv) rfl hlen.le hgne
  have hslots := State.batchVictim_slots (s := u) hlen.le
  have hvb : v.band = b := hv ▸ rfl
  rw [← hstart] at hcle hband hrefresh hgmu hslu hmpt
  rw [hvb] at hband
  refine ⟨_, u.batchVictim v bd.walked, _, rfl, hband, rfl, rfl, rfl, rfl, by rw [hcle], hvb, hv ▸ rfl, hv ▸ rfl,
    by rw [hcle], fun hnil => ?_, fun e he => ?_, ?_, ?_, ?_, ?_, ?_, ?_⟩
  · rw [hnil, List.map_nil, ← (u.gathered_spec hlen.le).1] at hslots
    exact hgne (List.map_eq_nil_iff.1 hslots.symm)
  · obtain ⟨hslot, hhold, -, -⟩ := State.batchVictim_entries (s := u) hlen.le rfl he
    exact ⟨hslot, hwin ▸ hhold⟩
  · rw [hcle, hu]; rfl
  · rw [hrefresh, hu]
    exact s.victimNamed_unlisted b origin tag
  · rw [hcle, hu]; rfl
  · rw [hgmu, hu]; rfl
  · rw [hslu, hu]; rfl
  · rw [hmpt, hu]; rfl

/-- A walk whose cursor is at the end of the slot list ends (R118). -/
theorem State.startBatch_ends {v : Victim} (hv : s.cle.victim = some v) (hb : s.band? v.band = some bd)
    (hc : bd.slots.length ≤ v.cursor) : s.startBatch = s.walkEnd v := by
  simp only [State.startBatch, hv, hb, if_pos hc]

/-- A CLEAN request's victim with no slot to gather: the walk ends at once, the LIVE slots in HOLD windows skipped
(R118, R123). -/
theorem State.takeVictim_nothing (hb : s.band? b = some bd)
    (hall : ∀ lgn, .live lgn ∈ bd.slots → s.inHoldWindow lgn = true) :
    s.takeVictim b .host tag = (s.victimNamed b .host tag).walkEnd
      { band := b, origin := .host, tag := tag, cursor := bd.slots.length, skipped := bd.live } := by
  obtain ⟨v, hv⟩ : ∃ v : Victim, v = ⟨b, .host, tag, 0, [], 0, 0, 0, 0⟩ := ⟨_, rfl⟩
  have hbv : (s.victimNamed b .host tag).band? v.band = some bd.walked := hv ▸ State.band?_victimNamed hb
  have hvic : (s.victimNamed b .host tag).cle.victim = some v := hv ▸ rfl
  rw [State.takeVictim_eq]
  cases hslots : bd.slots with
  | nil =>
    have hlive : bd.live = 0 := by simp [Band.live, hslots]
    have hwalk : bd.walked.slots.length ≤ v.cursor := by simp [Band.walked, hslots]
    rw [State.startBatch_ends hvic hbv hwalk, hlive, hv]
    rfl
  | cons x xs =>
    have hlen : v.cursor < bd.walked.slots.length := by simp [Band.walked, hslots, hv]
    have hpaced : (s.victimNamed b .host tag).paced v = false := by simp [State.paced, hv]
    rw [State.startBatch_gathers hvic hbv hlen (.inl hpaced), hpaced]
    have hgather := State.gather_nothing (s := s.victimNamed b .host tag) (room := 31) (es := bd.slots) hall 0
    show (s.victimNamed b .host tag).gatherBatch v bd.walked = _
    unfold State.gatherBatch
    rw [hv]
    have hdrop : bd.walked.slots.drop 0 = bd.slots := rfl
    simp only [hdrop, show Config.batchLimit = 31 + 1 from rfl, hgather]
    simp [Band.live, hslots]

end

end Sys2Proof.Machine
end

section
namespace Sys2Proof.Machine

/-! ### The cleaner's own sources (R114 to R116) -/

section
variable {s : State}

theorem State.scoredOk_iff {bd : Band} : s.scoredOk bd = true ↔ s.Scored bd := by
  unfold State.scoredOk State.Scored
  cases s.btu.pressure <;> simp [and_assoc]

/-- One step of the search for the band of highest rank (R116). -/
def State.better (s : State) (best : Option Band) (bd : Band) : Option Band :=
  match best with
  | some x => if s.ranksAbove bd x then some bd else some x
  | none => some bd

theorem State.scoredCandidate_eq (s : State) :
    s.scoredCandidate = ((s.btu.bands.filter s.scoredOk).foldl s.better none).map Band.number := rfl

theorem State.ranksAbove_irrefl (s : State) (x : Band) : s.ranksAbove x x = false := by
  simp [State.ranksAbove]

/-- The band that ranks above all the others is found (R116). -/
theorem State.foldl_better {x : Band} {l : List Band} (acc : Option Band)
    (hall : ∀ y, y ∈ l ∨ acc = some y → y ≠ x → s.ranksAbove x y = true ∧ s.ranksAbove y x = false)
    (hx : x ∈ l ∨ acc = some x) : l.foldl s.better acc = some x := by
  induction l generalizing acc with
  | nil => exact hx.resolve_left (by simp)
  | cons y l ih =>
    rw [List.foldl_cons]
    have hstep : s.better acc y = some x ∨ x ∈ l ∧ (s.better acc y = some y ∨ s.better acc y = acc) := by
      cases acc with
      | none =>
        obtain hxy | hxl := List.mem_cons.1 (hx.resolve_right nofun)
        · exact .inl (congrArg some hxy.symm)
        · exact .inr ⟨hxl, .inl rfl⟩
      | some a =>
        by_cases hyx : y = x
        · subst hyx
          refine .inl ?_
          by_cases hay : a = y
          · rw [hay]; simp [State.better]
          · exact if_pos (hall a (.inr rfl) hay).1
        · by_cases hax : a = x
          · subst hax
            refine .inl (if_neg ?_)
            rw [(hall y (.inl List.mem_cons_self) hyx).2]
            simp
          · have hxl : x ∈ l := by
              obtain h | h := hx
              · exact (List.mem_cons.1 h).resolve_left (Ne.symm hyx)
              · exact absurd (Option.some.inj h) hax
            refine .inr ⟨hxl, ?_⟩
            unfold State.better
            dsimp only
            split
            · exact .inl rfl
            · exact .inr rfl
    refine ih _ (fun z hz hzx => ?_) ?_
    · obtain hz | hz := hz
      · exact hall z (.inl (List.mem_cons_of_mem y hz)) hzx
      · obtain h | ⟨-, h | h⟩ := hstep
        · exact absurd (Option.some.inj (hz.symm.trans h)) hzx
        · exact hall z (.inl (Option.some.inj (hz.symm.trans h) ▸ List.mem_cons_self)) hzx
        · exact hall z (.inr (h.symm.trans hz)) hzx
    · obtain h | ⟨h, -⟩ := hstep
      · exact .inr h
      · exact .inl h

theorem State.refreshCandidate_eq_none (h : ∀ k ∈ s.btu.refresh, ∀ bk, s.band? k = some bk → bk.state ≠ .full) :
    s.refreshCandidate = none := by
  refine List.find?_eq_none.2 fun k hk => ?_
  cases hb : s.band? k with
  | none => simp
  | some bk => simpa using h k hk bk hb

theorem State.refreshCandidate_eq_some {b : Nat} {bd : Band} (hb : s.band? b = some bd)
    (h : s.OwnCandidate b bd .refresh) : s.refreshCandidate = some b := by
  obtain ⟨hfull, before, after, hlist, hbefore⟩ := h
  refine List.find?_eq_some_iff_append.2 ⟨by simp [hb, hfull], before, after, hlist, fun k hk => ?_⟩
  cases hk' : s.band? k with
  | none => rfl
  | some bk => simpa using hbefore k hk bk hk'

theorem State.scoredCandidate_eq_none (h : ∀ k bk, s.band? k = some bk → ¬ s.Scored bk) :
    s.scoredCandidate = none := by
  have hnil : s.btu.bands.filter s.scoredOk = [] := by
    refine List.filter_eq_nil_iff.2 fun bk hbk => ?_
    obtain ⟨k, hk⟩ := List.mem_iff_getElem?.1 hbk
    exact mt State.scoredOk_iff.1 (h k bk hk)
  rw [State.scoredCandidate_eq, hnil]
  rfl

theorem State.scoredCandidate_eq_some (hs : s.BandsSound) {b : Nat} {bd : Band} (hb : s.band? b = some bd)
    (h : s.OwnCandidate b bd .scored) : s.scoredCandidate = some b := by
  obtain ⟨hscored, -, hbest⟩ := h
  have hnum : bd.number = b := (hs b bd hb).1
  have hfold : (s.btu.bands.filter s.scoredOk).foldl s.better none = some bd := by
    refine State.foldl_better none (fun y hy hne => ?_)
      (.inl (List.mem_filter.2 ⟨List.mem_of_getElem? hb, State.scoredOk_iff.2 hscored⟩))
    obtain ⟨hmem, hok⟩ := List.mem_filter.1 (hy.resolve_right nofun)
    obtain ⟨k, hk⟩ := List.mem_iff_getElem?.1 hmem
    have hknum : y.number = k := (hs k y hk).1
    have hkb : k ≠ b := by
      rintro rfl
      exact hne (Option.some.inj (hk.symm.trans hb))
    have := hbest k y hk (State.scoredOk_iff.1 hok) hkb
    simp only [State.ranksAbove, hnum, hknum, Bool.or_eq_true, Bool.and_eq_true, decide_eq_true_eq, Bool.or_eq_false_iff,
      Bool.and_eq_false_iff, decide_eq_false_iff_not]
    omega
  rw [State.scoredCandidate_eq, hfold, Option.map_some, hnum]

/-- The sources of the cleaner's own, where they may choose: the candidate is taken (R114). -/
theorem State.ownChoice_takes (hs : s.BandsSound) {b : Nat} {bd : Band} {origin : VictimOrigin}
    (hok : s.btu.pressure = true ∨ 1 ≤ s.cle.pacer.credits) (hb : s.band? b = some bd)
    (h : s.OwnCandidate b bd origin) : s.ownChoice true = s.takeVictim b origin none := by
  have hcredit : (true && (s.btu.pressure || decide (1 ≤ s.cle.pacer.credits))) = true := by simpa using hok
  unfold State.ownChoice
  dsimp only
  rw [hcredit]
  cases origin with
  | host => exact h.elim
  | refresh =>
    rw [State.refreshCandidate_eq_some hb h]
    rfl
  | scored =>
    rw [State.refreshCandidate_eq_none h.2.1, State.scoredCandidate_eq_some hs hb h]
    rfl

/-- With no credit and no PRESSURE, or where a choice of its own is not allowed without PRESSURE, the cleaner's own
sources choose nothing (R114). -/
theorem State.ownChoice_not_allowed {own : Bool} (hp : s.btu.pressure = false)
    (h : own = false ∨ s.cle.pacer.credits = 0) : s.ownChoice own = s := by
  have hcredit : (own && (s.btu.pressure || decide (1 ≤ s.cle.pacer.credits))) = false := by
    obtain h | h := h <;> simp [h, hp]
  unfold State.ownChoice
  dsimp only
  rw [hcredit]
  simp [hp]

theorem State.ownChoice_none (hr : s.refreshCandidate = none) (hc : s.scoredCandidate = none) (own : Bool) :
    s.ownChoice own = if s.btu.pressure then s.raise .cleanBlocked 0xFFFFFFFF else s := by
  simp [State.ownChoice, hr, hc]

end

end Sys2Proof.Machine
end

section
namespace Sys2Proof.Machine

/-! ### Choosing a victim (R114, R117) -/

theorem exec_victimChoice_runs {s : State} (hst : s.cle.stage = .idle) (hup : s.mpt.up = true)
    (hmode : s.ctl.mode = .online ∨ s.ctl.mode = .quiescing) :
    exec .victimChoice s = .next (s.choose (decide (s.ctl.mode = .online)) s.cle.hostList) := by
  show execVictimChoice s = _
  unfold execVictimChoice
  rw [if_pos ⟨hst, hup⟩]
  obtain hm | hm := hmode <;> simp [hm]

section
variable {s : State} {b tag : Nat} {bd : Band} {own : Bool} {rest : List (Nat × Nat)}

theorem State.choose_full (hb : s.band? b = some bd) (hfull : bd.state = .full) :
    s.choose own ((tag, b) :: rest) = s.takeVictim b .host (some tag) := by
  simp [State.choose, hb, hfull]

/-- A request whose band is not FULL is replied WRONG_STATE, and the choice goes on with the next (R117). -/
theorem State.choose_wrongState (h : ∀ bd, s.band? b = some bd → bd.state ≠ .full) :
    s.choose own ((tag, b) :: rest) =
      (({ s with cle := { s.cle with hostList := rest } }).finish tag .wrongState []).choose own rest := by
  cases hb : s.band? b with
  | none => simp [State.choose, hb]
  | some bd => simp [State.choose, hb, h bd hb]

/-- A victim with no LIVE slot left is pending its reset at once (R123). -/
theorem State.takeVictim_dead (hb : s.band? b = some bd) (hdead : ∀ x ∈ bd.slots, x = .dead ∨ x = .torn) :
    s.takeVictim b .host (some tag) = ((s.victimNamed b .host (some tag)).setVictim
      { band := b, origin := .host, tag := some tag, cursor := bd.slots.length }).setStage .waitReset := by
  have hnone : ∀ lgn, .live lgn ∈ bd.slots → s.inHoldWindow lgn = true := by
    intro lgn hm
    obtain h | h := hdead _ hm <;> cases h
  have hlive : bd.live = 0 := by
    refine List.countP_eq_zero.2 fun x hx => ?_
    obtain rfl | rfl := hdead x hx <;> simp [Slot.isLive]
  have hb' : (s.victimNamed b .host (some tag)).band? b = some bd.walked := State.band?_victimNamed hb
  have hlive' : bd.walked.live = 0 := hlive
  rw [State.takeVictim_nothing hb hnone]
  simp [State.walkEnd, hb', hlive', hlive]

/-- A victim whose LIVE slots all lie in HOLD windows: the band is FULL again, its mark set, CLEAN_BLOCKED raised and
the request replied (R32, R123). -/
theorem State.takeVictim_blocked (hb : s.band? b = some bd) (hlive : ∃ lgn, .live lgn ∈ bd.slots)
    (hall : ∀ lgn, .live lgn ∈ bd.slots → s.inHoldWindow lgn = true) :
    s.takeVictim b .host (some tag) =
      (((s.victimNamed b .host (some tag)).leaveCleaning b true).raise .cleanBlocked b).victimEnd
        { band := b, origin := .host, tag := some tag, cursor := bd.slots.length, skipped := bd.live } .full := by
  obtain ⟨lgn, hm⟩ := hlive
  have hne : bd.walked.live ≠ 0 := Nat.pos_iff_ne_zero.1 (List.countP_pos_iff.2 ⟨_, hm, rfl⟩)
  have hb' : (s.victimNamed b .host (some tag)).band? b = some bd.walked := State.band?_victimNamed hb
  rw [State.takeVictim_nothing hb hall]
  simp [State.walkEnd, hb', hne]

end

/-- Settles O39: the host list's oldest request by its band's slots, a request that is replied, and the cleaner's own
sources. -/
theorem victim_choice_by_source : Obligations.Victim_choice_by_source := by
  refine ⟨fun s tag b rest bd hs hst hup hmode hlist hb hfull => ?_,
    fun s u tag b rest e hst hup hmode hlist he hne hu => ?_, fun s hs hst hup hmode hlist => ?_⟩
  · rw [exec_victimChoice_runs hst hup hmode, hlist, State.choose_full hb hfull, ← hlist]
    refine ⟨fun hdead => ?_, fun ⟨lgn, hm, hw⟩ => ?_, fun hlive hall e he => ?_⟩
    · exact ⟨_, _, congrArg _ (State.takeVictim_dead hb hdead),
        State.band?_victimNamed (origin := .host) (tag := some tag) hb, rfl, rfl, rfl, rfl, rfl,
        s.victimNamed_unlisted b .host (some tag), rfl, rfl, rfl, rfl, rfl, rfl⟩
    · obtain ⟨t, v, bd', ht, hband, hcl, hmark, hslots, hfr, hv, hvb, hvo, hvt, hstage, hbatch, hentries, -, hrefresh, hhost,
        hgmu, hslu, hmpt⟩ := State.takeVictim_started (tag := some tag) hs hb hm hw (origin := .host) (paced := false) (by simp)
          (.inl rfl)
      exact ⟨t, v, bd', congrArg _ ht, hband, hcl, hmark, hslots, hfr, hv, hvb, hvo, hvt, hstage, hbatch, hentries, hrefresh,
        hhost, hgmu, hslu, hmpt⟩
    · obtain ⟨u, hu⟩ : ∃ u, u = (s.victimNamed b .host (some tag)).leaveCleaning b true := ⟨_, rfl⟩
      obtain ⟨v, hv⟩ : ∃ v : Victim, v =
        { band := b, origin := .host, tag := some tag, cursor := bd.slots.length, skipped := bd.live } := ⟨_, rfl⟩
      obtain ⟨out, hraise⟩ := u.raise_eq .cleanBlocked b
      obtain ⟨hbtu, hgmu, hslu, hswr, hmpt, hevu, -, -, -, hstage, hvictim, -, hhost⟩ :=
        (u.raise .cleanBlocked b).victimEnd_frame v .full
      obtain ⟨hreply, -⟩ := State.victimEnd_tagged (s := u.raise .cleanBlocked b) (v := v) (tag := tag) (e := e) (hv ▸ rfl)
        (by rw [hraise, hu]; exact he) .full
      have hband : u.band? b = some { bd with holdBlocked := true } := by
        have := (s.victimNamed b .host (some tag)).band?_updBand b b fun bd =>
          if bd.state = .cleaning then { bd with state := .full, holdBlocked := true } else bd
        rw [State.band?_victimNamed hb, Option.map_some, if_pos rfl] at this
        rw [hu]
        refine this.trans (congrArg some ?_)
        simp [Band.walked, hfull]
      obtain ⟨hshown, hdetail⟩ := u.evu.set_self .cleanBlocked b
      refine ⟨_, congrArg _ (State.takeVictim_blocked hb hlive hall), ?_⟩
      rw [← hu, ← hv]
      refine ⟨(State.band?_congr (by rw [hbtu, hraise]) b).trans hband, hvictim, hstage, ?_, ?_, ?_, ?_, ?_, ?_, ?_, ?_, ?_⟩
      · rw [hbtu, hraise, hu]
        exact s.victimNamed_unlisted b .host (some tag)
      · rw [hhost, hv, hraise, hu]
        rfl
      · rw [hevu, hraise]
        exact hshown
      · rw [hevu, hraise]
        exact hdetail
      · rw [hreply, hv]
        rfl
      · rw [hgmu, hraise, hu]; rfl
      · rw [hswr, hraise, hu]; rfl
      · rw [hslu, hraise, hu]; rfl
      · rw [hmpt, hraise, hu]; rfl
  · have hfinish : ({ s with cle := { s.cle with hostList := rest } } : State).finish tag .wrongState [] = u := by
      have he' : ({ s with cle := { s.cle with hostList := rest } } : State).entry? tag = some e := he
      rw [State.finish, he', hu]
      rfl
    have hchoose : s.choose (decide (s.ctl.mode = .online)) s.cle.hostList =
        u.choose (decide (s.ctl.mode = .online)) rest := by
      rw [hlist, State.choose_wrongState hne, hfinish]
    have hrest : u.cle.hostList = rest := by rw [hu]
    have hmodeu : u.ctl.mode = s.ctl.mode := by rw [hu]
    have hnext := exec_victimChoice_runs hst hup hmode
    refine ⟨?_, fun hnil hq hp => ?_⟩
    · rw [hnext, exec_victimChoice_runs (s := u) (by rw [hu]; exact hst) (by rw [hu]; exact hup) (hmodeu ▸ hmode), hchoose,
        hmodeu, hrest]
    · rw [hnext, hchoose, hnil, hq]
      exact congrArg _ (State.ownChoice_not_allowed (by rw [hu]; exact hp) (.inl rfl))
  · have hnext : exec .victimChoice s = .next (s.ownChoice true) := by
      rw [exec_victimChoice_runs hst hup (.inl hmode), hmode, hlist]
      rfl
    rw [hnext]
    refine ⟨fun b bd origin hok hb hcand ⟨lgn, hm, hw⟩ => ?_, fun hp h0 => ?_, fun hr hc => ?_⟩
    · have hhost : origin ≠ .host := by
        rintro rfl
        exact hcand
      have hpaced : (!s.btu.pressure) = (!s.btu.pressure && decide (origin ≠ .host) && s.cle.hostList.isEmpty) := by
        simp [hhost, hlist]
      obtain ⟨t, v, bd', ht, hband, hcl, hmark, hslots, hfr, hv, hvb, hvo, hvt, hstage, hbatch, hentries, hpacer, hrefresh,
        hhl, hgmu, hslu, hmpt⟩ := State.takeVictim_started (tag := none) hs hb hm hw hpaced (by simpa using hok)
      refine ⟨t, v, bd', ?_, hband, hcl, hmark, hslots, hfr, hv, hvb, hvo, hvt, hstage, hbatch, hentries, ?_, hrefresh,
        hhl.trans hlist, hgmu, hslu, hmpt⟩
      · rw [State.ownChoice_takes hs hok hb hcand, ht]
      · rw [hpacer]
        cases s.btu.pressure <;> rfl
    · rw [State.ownChoice_not_allowed hp (.inr h0)]
    · rw [State.ownChoice_none (State.refreshCandidate_eq_none hr) (State.scoredCandidate_eq_none hc)]

end Sys2Proof.Machine
end

section
namespace Sys2Proof.Machine

/-! ### What work on a stream's head makes of its FIFO and its recovery (R66, R67, R82) -/

/-- Whether one of some items counts toward a recovery (R82). -/
def countsToward (items : List Item) (r : Recovery) : Bool := items.any fun it => it.recoveries.contains r

/-- A recovery that outlasts some items outlasts more of them (R82). -/
theorem filter_countsToward_append (x : Option Recovery) (items rest : List Item) :
    (x.filter (countsToward (items ++ rest))).filter (countsToward rest) = x.filter (countsToward rest) := by
  rw [Option.filter_filter]
  congr 1
  funext r
  rw [countsToward, List.any_append, countsToward]
  cases rest.any fun it => it.recoveries.contains r <;> simp

/-- The recovery a stream stands in, if it does, has an item left in its FIFO (R80, R82). -/
def Stream.Recovers (x : Stream) : Prop :=
  ∀ r, x.recovery = some r → countsToward x.fifo r = true

/-- `y` is `x` with items gone from the head of its FIFO, each of them `gone`, and a recovery that none of those left
counts toward ended (R67, R82). -/
structure Stream.Drained (x y : Stream) (gone : Item → Prop) : Prop where
  fifo : ∃ items, x.fifo = items ++ y.fifo ∧ ∀ it ∈ items, gone it
  recovery : x.Recovers → y.recovery = x.recovery.filter (countsToward y.fifo)

section
variable {x y z : Stream} {gone : Item → Prop}

theorem Stream.Recovers.filter (h : x.Recovers) :
    x.recovery = x.recovery.filter (countsToward x.fifo) := by
  cases hr : x.recovery with
  | none => rfl
  | some r => exact (Option.filter_some_pos (h r hr)).symm

theorem Stream.Drained.of_same (hf : y.fifo = x.fifo) (hr : y.recovery = x.recovery) : x.Drained y gone :=
  ⟨⟨[], by rw [hf]; rfl, by simp⟩, fun h => by rw [hr, hf]; exact h.filter⟩

theorem Stream.Drained.recovers (h : x.Drained y gone) (hx : x.Recovers) : y.Recovers := by
  intro r hr
  rw [h.recovery hx] at hr
  exact (Option.filter_eq_some_iff.1 hr).2

theorem Stream.Drained.trans (h : x.Drained y gone) (k : y.Drained z gone) : x.Drained z gone := by
  obtain ⟨items, hitems, hall⟩ := h.fifo
  obtain ⟨items', hitems', hall'⟩ := k.fifo
  refine ⟨⟨items ++ items', by rw [hitems, hitems', List.append_assoc], fun it hit => ?_⟩, fun hx => ?_⟩
  · obtain hit | hit := List.mem_append.1 hit
    · exact hall it hit
    · exact hall' it hit
  · rw [k.recovery (h.recovers hx), h.recovery hx, hitems', filter_countsToward_append]

/-- The head leaves the FIFO. -/
theorem Stream.Drained.keeping {it : Item} {rest : List Item} (hf : x.fifo = it :: rest) (hit : gone it) :
    x.Drained (x.keeping rest) gone :=
  ⟨⟨[it], hf, by simpa using hit⟩, fun _ => rfl⟩

end

section
variable {r s : State} {n : Fin 9}

/-- A STORE handed back for PRESSURE changes nothing but the requests (R66, R171). -/
theorem State.HeadWork.hold (h : r.HeadWork s) (tag : Nat) (why : HoldReason) : r.HeadWork (s.hold tag why) :=
  (State.HeadWork.base r).hold h tag why

/-- An item that work on a stream's head may take off its FIFO: a STORE handed back, or a stale re-placement (R66,
R67). -/
def State.leavesHead (r : State) (it : Item) : Prop := it.work.isStore = true ∨ r.stale it = true

theorem State.HeadWork.stale (h : r.HeadWork s) (it : Item) : s.stale it = r.stale it := by
  unfold State.stale
  cases it.work with
  | replace src => exact congrArg (fun x => !it.faulted && !x) (h.slotLiveFor src it.lgn)
  | store t p => rfl
  | fold q ps => rfl
  | clean src => rfl

theorem State.grantOpen_stream (s : State) (n : Fin 9) :
    ((s.grantOpen n).stream n).fifo = (s.stream n).fifo ∧ ((s.grantOpen n).stream n).recovery = (s.stream n).recovery
      ∧ ((s.grantOpen n).stream n).writing = (s.stream n).writing := by
  unfold State.grantOpen
  split
  · obtain ⟨-, -, -, -, -, -, hstream, -⟩ := s.grantBand_frame n _ _
    rw [hstream]
    exact ⟨rfl, rfl, rfl⟩
  · exact ⟨rfl, rfl, rfl⟩

theorem State.pumpFor_drained (h : r.HeadWork s) (fuel : Nat) :
    (s.stream n).Drained ((s.pumpFor n fuel).stream n) r.leavesHead := by
  induction fuel generalizing s with
  | zero => exact .of_same rfl rfl
  | succ fuel ih =>
    unfold State.pumpFor
    dsimp only
    split
    · exact .of_same rfl rfl
    split
    · exact .of_same rfl rfl
    next it rest hfifo =>
    split
    · split
      · next hopen =>
        have hstore : it.work.isStore = true ∧ (s.stream n).recovery = none := by
          have : hostOpen (s.stream n) it = true := by
            simp only [Bool.and_eq_true] at hopen
            exact hopen.1
          simpa [hostOpen] using this
        obtain ⟨u, hu⟩ : ∃ u, u = s.updStream n fun x => { x with fifo := rest } := ⟨_, rfl⟩
        have hwu : r.HeadWork u := hu ▸ State.HeadWork.stream (n := n) rfl rfl rfl h
        have hfirst : (s.stream n).Drained (u.stream n) r.leavesHead := by
          rw [hu, State.stream_updStream, if_pos rfl]
          refine ⟨⟨[it], hfifo, fun it hit => .inl ?_⟩, fun _ => by simp [hstore.2]⟩
          rw [List.mem_singleton.1 hit]
          exact hstore.1
        rw [← hu]
        cases it.work.tag with
        | none => exact hfirst.trans (ih hwu)
        | some tag => exact Stream.Drained.trans (y := (u.hold tag .pressure).stream n) hfirst (ih (hwu.hold tag .pressure))
      split
      · have hself : (s.updStream n fun x => { x with openPending := true }).stream n =
          { s.stream n with openPending := true } := s.stream_setStream_self ..
        show (s.stream n).Drained ((s.updStream n fun x => { x with openPending := true }).stream n) r.leavesHead
        rw [hself]
        exact .of_same rfl rfl
      · obtain ⟨hf, hrec, -⟩ := s.grantOpen_stream n
        exact (Stream.Drained.of_same hf hrec).trans (ih h.grantOpen)
    · next b hb =>
      split
      · exact .of_same rfl rfl
      split
      · next hst =>
        have hdrop : (s.dropHead n).stream n = (s.stream n).keeping rest := by
          rw [State.dropHead, State.stream_updStream, if_pos rfl, hfifo]
          rfl
        have hstep := Stream.Drained.keeping (x := s.stream n) (gone := r.leavesHead) hfifo (.inr ((h.stale it).symm.trans hst))
        rw [← hdrop] at hstep
        exact hstep.trans (ih ((State.HeadWork.pump r n).dropHead h))
      · obtain ⟨u, hu⟩ : ∃ u, u = s.updStream n fun x => { x with writing := some (slotsBehind (s.frontier b)) } :=
          ⟨_, rfl⟩
        obtain ⟨k, hk⟩ := u.queueRun_har n
        have hself : u.stream n = { s.stream n with writing := some (slotsBehind (s.frontier b)) } := by
          rw [hu]
          exact s.stream_setStream_self ..
        rw [← hu, hk]
        show (s.stream n).Drained (u.stream n) r.leavesHead
        rw [hself]
        exact .of_same rfl rfl

end

end Sys2Proof.Machine
end

section
namespace Sys2Proof.Machine

/-! ### A machinery open asked by a stream's head (R26, R66) -/

section
variable {r s : State} {n : Fin 9}

theorem State.band?_grantBand (s : State) (n : Fin 9) (b : Nat) (spill : Bool) (k : Nat) :
    (s.grantBand n b spill).band? k =
      (s.band? k).map fun x => if b = k then { x with state := .opened, stream := some n } else x := by
  obtain ⟨-, -, -, -, -, -, hbands, -⟩ := ((s.raiseSpill n spill).openFor n b).judgePressureOn_frame
  obtain ⟨-, -, -, -, -, -, hbtu⟩ := s.raiseSpill_frame n spill
  rw [State.grantBand_eq, State.band?, hbands]
  refine ((s.raiseSpill n spill).band?_updBand b k _).trans ?_
  rw [State.band?, hbtu]
  rfl

/-- With a band in the free pool an open finds one (R24, R27). -/
theorem State.pickBand_of_free (hs : s.BandsSound) (h : s.freeCount ≠ 0) (n : Fin 9) :
    ∃ b spill, s.pickBand n = some (b, spill) := by
  unfold State.pickBand
  split
  · next b _ => exact ⟨b, false, rfl⟩
  · obtain ⟨bd, hbd, hfree⟩ := List.countP_pos_iff.1 (Nat.pos_of_ne_zero h)
    obtain ⟨i, hi⟩ := List.mem_iff_getElem?.1 hbd
    have hnum : bd.number = i := (hs i bd hi).1
    have hlt : i < s.btu.bands.length := (List.getElem?_eq_some_iff.1 hi).1
    cases hff : s.firstFree 0 s.btu.bands.length with
    | some b => exact ⟨b, true, rfl⟩
    | none =>
      rw [State.firstFree, Option.map_eq_none_iff, List.find?_eq_none] at hff
      exact absurd (by simp [hfree, hnum, hlt]) (hff bd hbd)

theorem State.grantOpen_of_pick {b : Nat} {spill : Bool} (h : s.pickBand n = some (b, spill)) :
    s.grantOpen n = s.grantBand n b spill := by
  simp [State.grantOpen, h]

theorem State.pump_drained (h : r.HeadWork s) : (s.stream n).Drained ((s.pump n).stream n) r.leavesHead := by
  obtain ⟨v, out, hended, -⟩ := (s.goOn n).raiseEnded_eq s.recoveries
  rw [State.pump, hended]
  exact State.pumpFor_drained h _

variable {it : Item} {rest : List Item}

/-- An open asked while the pool is empty, or while others wait, waits (R26; log entry 2). -/
theorem State.pump_waits (hw : (s.stream n).writing = none) (hp : (s.stream n).openPending = false)
    (hf : (s.stream n).fifo = it :: rest) (hb : (s.stream n).openBand = none)
    (hm : hostOpen (s.stream n) it = false) (hwait : s.freeCount = 0 ∨ s.btu.openWait ≠ []) :
    ∃ v out, s.pump n = { s.setStream n { s.stream n with openPending := true } with
      btu := { s.btu with openWait := s.btu.openWait ++ [n] }, evu := v, flu := { s.flu with outbound := out } } := by
  obtain ⟨v, out, hended, -⟩ := (s.goOn n).raiseEnded_eq s.recoveries
  have hgo : s.goOn n = { s.setStream n { s.stream n with openPending := true } with
      btu := { s.btu with openWait := s.btu.openWait ++ [n] } } := by
    have hstep : s.goOn n = { s.updStream n fun x => { x with openPending := true } with
        btu := { s.btu with openWait := s.btu.openWait ++ [n] } } := by
      unfold State.goOn
      rw [State.pumpFor]
      simp only [hw, hp, hf, hb, hm, Option.isSome_none, Bool.or_self, Bool.false_and, Bool.false_eq_true, if_false,
        if_pos hwait]
      rfl
    exact hstep
  refine ⟨v, out, ?_⟩
  rw [State.pump, hended, hgo]
  rfl

/-- An open asked with the pool not empty and none waiting is granted, and the stream goes on in its band (R26, R67,
R68). -/
theorem State.pump_grants (hs : s.BandsSound) (hw : (s.stream n).writing = none) (hp : (s.stream n).openPending = false)
    (hf : (s.stream n).fifo = it :: rest) (hb : (s.stream n).openBand = none)
    (hm : hostOpen (s.stream n) it = false) (hfree : s.freeCount ≠ 0) (hnone : s.btu.openWait = []) :
    ∃ b bd, s.band? b = some bd ∧ bd.state = .empty
      ∧ (s.pump n).band? b = some { bd with state := .opened, stream := some n }
      ∧ ((s.pump n).stream n).openBand = some b ∧ ((s.pump n).stream n).openPending = false
      ∧ (∃ gone, (s.stream n).fifo = gone ++ ((s.pump n).stream n).fifo ∧ ∀ x ∈ gone, s.stale x = true)
      ∧ (s.mpt.up = true → ∀ x items, ((s.pump n).stream n).fifo = x :: items →
        ((s.pump n).stream n).writing = some (slotsBehind bd.frontier) ∧ s.stale x = false) := by
  obtain ⟨b, spill, hpick⟩ := State.pickBand_of_free hs hfree n
  obtain ⟨bd, hbd, he⟩ := State.pickBand_isEmpty hs hpick
  obtain ⟨g, hg⟩ : ∃ g, g = s.grantBand n b spill := ⟨_, rfl⟩
  have hgrant : s.HeadWork g := by
    rw [hg, ← State.grantOpen_of_pick hpick]
    exact (State.HeadWork.refl hs).grantOpen
  obtain ⟨-, -, -, -, -, -, hstream, -⟩ := s.grantBand_frame n b spill
  rw [← hg] at hstream
  have hgo : s.goOn n = g.pumpFor n ((s.stream n).fifo.length + 1) := by
    rw [hg, ← State.grantOpen_of_pick hpick]
    unfold State.goOn
    rw [State.pumpFor]
    simp [hw, hp, hf, hb, hm, hfree, hnone]
  have hgband : g.band? b = some { bd with state := .opened, stream := some n } := by
    rw [hg, State.band?_grantBand, hbd]
    simp
  obtain ⟨x, h, heq, hx, hplace, -⟩ := State.pumpFor_open (s := g) (n := n) (b := b) (by rw [hstream])
    ((s.stream n).fifo.length + 1)
  obtain ⟨v, out, hended, -⟩ := (s.goOn n).raiseEnded_eq s.recoveries
  have hpump : s.pump n = { g.setStream n x with har := h, evu := v, flu := { g.flu with outbound := out } } := by
    rw [State.pump, hended, hgo, heq]
    rfl
  have hxn : (s.pump n).stream n = x := by
    rw [hpump]
    exact g.stream_setStream_self n x
  obtain ⟨gone, hgone, hall⟩ := hx.fifo
  have hgfifo : (g.stream n).fifo = (s.stream n).fifo := by rw [hstream]
  have hopen := hx.openBand
  have hpend := hx.openPending
  rw [hstream] at hopen hpend
  refine ⟨b, bd, hbd, he, ?_, ?_, ?_, ?_, ?_⟩
  · rw [hpump]
    exact hgband
  · rw [hxn, hopen]
  · rw [hxn, hpend]
  · rw [hxn, ← hgfifo]
    exact ⟨gone, hgone, fun y hy => (hgrant.stale y).symm.trans (hall y hy)⟩
  · intro hup y items hy
    rw [hxn] at hy ⊢
    obtain ⟨hwrite, hst⟩ := hplace ((congrArg Mpt.up hgrant.mpt).trans hup) (by rw [hstream]; exact hw) (by rw [hstream])
      (by rw [hgfifo]; exact Nat.lt_succ_self _) y items hy
    refine ⟨hwrite.trans ?_, (hgrant.stale y).symm.trans hst⟩
    simp [State.frontier, hgband]

end

end Sys2Proof.Machine
end

section
namespace Sys2Proof.Machine

/-! ### A write fault (R30, R79, R80) -/

section
variable {s : State} {n : Fin 9} {b w : Nat} {bd : Band}

/-- A band record closed, with its close order and the reason (R30). -/
def Band.closedFor (bd : Band) (order : Nat) (why : CloseReason) : Band :=
  { bd with state := .full, stream := none, closeOrder := some order, closeReason := some why }

/-- The close of an OPEN band (R30). -/
theorem State.closeBand_eq (hb : s.band? b = some bd) (ho : bd.state = .opened) (why : CloseReason) :
    s.closeBand b why = { s.updBand b fun x => x.closedFor s.btu.closeOrder why with
      btu := { (s.updBand b fun x => x.closedFor s.btu.closeOrder why).btu with
        closeOrder := min (s.btu.closeOrder + 1) Config.counterMax } } := by
  simp only [State.closeBand, hb, ho, if_true]
  rfl

/-- The part once a write fault has closed the band and begun the recovery, the stream not yet gone on (R79, R80). -/
def State.faultClosed (s : State) (n : Fin 9) (b w d : Nat) : State :=
  let u := (s.frontierReport b (min (s.frontier b + d) (16 * w + 15)) none).closeBand b .fault
  { u with swr := { u.swr with faultSerial := u.swr.faultSerial + 1 } }.updStream n fun x =>
    { x with
      fifo := faultedFifo x ⟨u.swr.faultSerial, b⟩, exposed := [], openBand := none
      recovery := some ⟨u.swr.faultSerial, b⟩, writing := none }

theorem State.writeFault_eq (ho : (s.stream n).openBand = some b) (hw : (s.stream n).writing = some w) (d : Nat) :
    s.writeFault n d = (s.faultClosed n b w d).pump n := by
  simp only [State.writeFault, ho, hw]
  rfl

/-- What a write fault leaves before the stream goes on. -/
theorem State.faultClosed_spec {d : Nat} (hs : s.BandsSound) (hb : s.band? b = some bd) (ho : bd.state = .opened)
    (hle : bd.frontier ≤ 16 * w + 15) :
    (s.faultClosed n b w d).BandsSound ∧ (s.faultClosed n b w d).mpt = s.mpt ∧ (s.faultClosed n b w d).har = s.har
      ∧ (s.faultClosed n b w d).btu.openWait = s.btu.openWait ∧ (s.faultClosed n b w d).freeCount = s.freeCount
      ∧ (s.faultClosed n b w d).band? b = some ({ bd with
          frontier := min (bd.frontier + d) (16 * w + 15)
          slots := slotsAt bd.slots (slotsBehind (min (bd.frontier + d) (16 * w + 15))) none : Band}.closedFor
            s.btu.closeOrder .fault)
      ∧ (s.faultClosed n b w d).stream n = { s.stream n with
          fifo := faultedFifo (s.stream n) ⟨s.swr.faultSerial, b⟩, exposed := [], openBand := none
          recovery := some ⟨s.swr.faultSerial, b⟩, writing := none } := by
  have hfr : s.frontier b = bd.frontier := by simp [State.frontier, hb]
  obtain ⟨f, hf⟩ : ∃ f, f = min (bd.frontier + d) (16 * w + 15) := ⟨_, rfl⟩
  obtain ⟨u, hu⟩ : ∃ u, u = s.frontierReport b f none := ⟨_, rfl⟩
  obtain ⟨bu, hbu⟩ : ∃ bu : Band, bu = { bd with frontier := f, slots := slotsAt bd.slots (slotsBehind f) none } := ⟨_, rfl⟩
  have hub : u.band? b = some bu := by
    have := s.band?_updBand b b fun bd => bd.frontierReport f none
    rw [hb, Option.map_some, if_pos rfl, Band.frontierReport, if_pos ⟨ho, by omega⟩, ← hbu] at this
    rw [hu]
    exact this
  have hbo : bu.state = .opened := by rw [hbu]; exact ho
  have hclose := State.closeBand_eq hub hbo .fault
  have hkeep : u.freeCount = s.freeCount := by
    have := State.freeCount_updBand hb fun bd => bd.frontierReport f none
    rw [Band.frontierReport, if_pos ⟨ho, by omega⟩] at this
    rw [hu]
    exact Nat.add_right_cancel this
  have hfaulted : s.faultClosed n b w d = ({ u.closeBand b .fault with
      swr := { u.swr with faultSerial := u.swr.faultSerial + 1 } } : State).updStream n fun x =>
    { x with
      fifo := faultedFifo x ⟨s.swr.faultSerial, b⟩, exposed := [], openBand := none
      recovery := some ⟨s.swr.faultSerial, b⟩, writing := none } := by
    unfold State.faultClosed
    dsimp only
    rw [hfr, ← hf, ← hu, hclose, hu]
    rfl
  rw [hfaulted, ← hf, ← hbu]
  refine ⟨?_, ?_, ?_, ?_, ?_, ?_, ?_⟩
  · rw [hu]
    exact (State.closeBand_work (State.frontierReport_work (BlockWork.refl s) b f none) b .fault).bands hs
  · rw [hclose, hu]; rfl
  · rw [hclose, hu]; rfl
  · rw [hclose, hu]; rfl
  · have := State.freeCount_updBand hub fun x => x.closedFor u.btu.closeOrder .fault
    have hno : bu.isFree = false := by simp [Band.isFree, hbo]
    rw [hno, hkeep] at this
    rw [hclose]
    exact this
  · have := u.band?_updBand b b fun x => x.closedFor u.btu.closeOrder .fault
    rw [hub, Option.map_some, if_pos rfl] at this
    have horder : u.btu.closeOrder = s.btu.closeOrder := by rw [hu]; rfl
    rw [hclose, ← horder]
    exact this
  · rw [hclose, hu]
    exact State.stream_setStream_self ..

/-- A slot past the list's end is filled with TORN entries only: what is LIVE stays (R21). -/
theorem live_slotsAt {slots : List Slot} {m k lgn : Nat} :
    (slotsAt slots m none)[k]? = some (.live lgn) ↔ slots[k]? = some (.live lgn) := by
  show (slots ++ List.replicate (m - slots.length) Slot.torn)[k]? = some (.live lgn) ↔ _
  by_cases hk : k < slots.length
  · rw [List.getElem?_append_left hk]
  · rw [List.getElem?_append_right (by omega), List.getElem?_eq_none (l := slots) (by omega), List.getElem?_replicate]
    split <;> simp

end

/-- The write faults' ports are as UP as before. -/
theorem State.writeFaults.up {s : State} {o : MediaOp} {i : Instr} {done : Nat} {m : Mpt}
    (h : s.writeFaults o i done m) : m.up = s.mpt.up := by
  rcases h with ⟨-, _, _, _, -, ⟨-, -, -, -, rfl⟩ | ⟨-, -, -, -, rfl⟩⟩ | ⟨-, -, ⟨_, _, _, -, -, -, rfl⟩ | ⟨-, -, -, rfl⟩⟩ <;> rfl

end Sys2Proof.Machine
end

section
namespace Sys2Proof.Machine

/-- A write run of a stream reads nothing: it ends no reader (R37). -/
theorem State.reportOutcome_write {s : State} {n : Fin 9} {o : MediaOp} (ho : o.origin = .stream n) (hw : o.isWrite = true)
    (out : Outcome) : s.reportOutcome o out = s.streamOutcome n o out := by
  have hb : o.bandRead = none := by simp [MediaOp.bandRead, hw]
  have hr : o.recordRead = none := by simp [MediaOp.recordRead, ho]
  have hend : s.endReaders o = s := by simp [State.endReaders, hb, hr]
  simp [State.reportOutcome, State.ownerOutcome, ho, hend]

/-- Items that left the head of a list, none of which is `x`, left it before `x`. -/
theorem left_before {α : Type} {gone l before after : List α} {x : α} (h : before ++ x :: after = gone ++ l) (hx : x ∉ gone) :
    ∃ kept, before = gone ++ kept ∧ l = kept ++ x :: after := by
  rcases List.append_eq_append_iff.1 h with ⟨c, hc, hl⟩ | ⟨c, hc, hl⟩
  · cases c with
    | nil => exact ⟨[], by simpa using hc.symm, by simpa using hl.symm⟩
    | cons y c =>
      obtain ⟨rfl, -⟩ : x = y ∧ after = c ++ l := by simpa using hl
      exact absurd (by rw [hc]; simp) hx
  · exact ⟨c, hc, hl⟩

/-- Settles O22: the fault ends the run, closes the band and begins the recovery; then its open waits or is granted. -/
theorem write_fault_closes_band : Obligations.Write_fault_closes_band := by
  intro s n o i it rest b w done m bd r copies hs hop ho hw hfault hopen hwriting hfifo hpend hb hst hle hr hcopies
  obtain ⟨k, answered, hexec, -⟩ := exec_writeFaults hop hw hfault
  obtain ⟨u, hu⟩ : ∃ u, u = (s.withPort m).faultClosed n b w done := ⟨_, rfl⟩
  obtain ⟨fi, hfi⟩ : ∃ fi : Item, fi = { it with faulted := true, recoveries := it.recoveries ++ [r] } := ⟨_, rfl⟩
  have hrun : exec i s = .next (u.pump n) := by
    have hreport := State.reportOutcome_write (s := s.withPort m) (n := n)
      (o := { o with defers := k, sectorsDone := done }) ho hw (.writeFault answered)
    rw [hexec, hreport, hu]
    exact congrArg _ (State.writeFault_eq (s := s.withPort m) hopen hwriting done)
  obtain ⟨hsu, hmpt, hhar, hwait, hfree, hband, hstream⟩ :=
    State.faultClosed_spec (s := s.withPort m) (n := n) (d := done) hs hb hst hle
  rw [← hu] at hsu hmpt hhar hwait hfree hband hstream
  have hlist : faultedFifo (s.stream n) ⟨s.swr.faultSerial, b⟩ = copies ++ fi :: rest := by
    rw [hcopies, hfi, hr, faultedFifo, hfifo]
  have hfu : (u.stream n).fifo = copies ++ fi :: rest := by rw [hstream]; exact hlist
  have hwu : (u.stream n).writing = none := by rw [hstream]
  have hpu : (u.stream n).openPending = false := by rw [hstream]; exact hpend
  have hbu : (u.stream n).openBand = none := by rw [hstream]
  have hru : (u.stream n).recovery = some r := by rw [hstream, hr]; rfl
  have hcount : countsToward (copies ++ fi :: rest) r = true := by simp [countsToward, hfi]
  have hwork : u.HeadWork (u.pump n) := (State.HeadWork.pump u n).pump (State.HeadWork.refl hsu)
  have hhost (x : Item) : hostOpen (u.stream n) x = false := by simp [hostOpen, hru]
  obtain ⟨head, tail, hhead⟩ : ∃ head tail, (u.stream n).fifo = head :: tail := by
    rw [hfu]
    exact List.exists_cons_of_ne_nil (by simp)
  have hclosed := hwork.bands hband (by simp [Band.closedFor])
  have hrec : (u.stream n).Recovers := fun r' hr' => by
    rw [hru] at hr'
    rw [hfu, ← Option.some.inj hr']
    exact hcount
  have hdrained := (State.pump_drained (n := n) (State.HeadWork.refl hsu)).recovery hrec
  rw [hru] at hdrained
  have hexposed : ((u.pump n).stream n).exposed = [] := by rw [hwork.exposed n, hstream]
  refine ⟨u.pump n, hrun, ⟨_, hclosed, rfl, rfl, rfl, rfl, rfl⟩, by rw [hwork.mpt, hmpt]; rfl, ?_, hexposed, fun hno => ?_,
    fun hyes hnone => ?_⟩
  · suffices hleft : countsToward ((u.pump n).stream n).fifo r = true by
      rw [hdrained, Option.filter_some_pos hleft]
    by_cases hno : u.freeCount = 0 ∨ u.btu.openWait ≠ []
    · obtain ⟨v, out, hpump⟩ := State.pump_waits hwu hpu hhead hbu (hhost head) hno
      have hself : (u.pump n).stream n = { u.stream n with openPending := true } := by
        rw [hpump]
        exact u.stream_setStream_self ..
      rw [hself]
      exact hfu ▸ hcount
    · obtain ⟨hyes, hnone⟩ : u.freeCount ≠ 0 ∧ u.btu.openWait = [] := by simpa using hno
      obtain ⟨-, -, -, -, -, -, -, ⟨gone, hgone, hall⟩, -⟩ := State.pump_grants hsu hwu hpu hhead hbu (hhost head) hyes hnone
      rw [hfu] at hgone
      obtain ⟨kept, -, hkept⟩ := left_before hgone fun hmem => by
        have := (State.stale_iff.1 (hall fi hmem)).1
        simp [hfi] at this
      rw [hkept]
      simp [countsToward, hfi]
  · obtain ⟨v, out, hpump⟩ := State.pump_waits hwu hpu hhead hbu (hhost head) (by rw [hfree, hwait]; exact hno)
    have hself : (u.pump n).stream n = { u.stream n with openPending := true } := by
      rw [hpump]
      exact u.stream_setStream_self ..
    rw [hself]
    refine ⟨hfu.trans (by rw [hfi]), hbu, rfl, hwu, ?_, ?_⟩
    · rw [hpump, ← show u.btu.openWait = s.btu.openWait from hwait]
    · rw [hpump]
      exact hhar
  · obtain ⟨b', bd', hb', he, hopened, hob, hop', ⟨gone, hgone, hall⟩, hplace⟩ := State.pump_grants hsu hwu hpu hhead hbu
      (hhost head) (by rw [hfree]; exact hyes) (by rw [hwait]; exact hnone)
    rw [hfu] at hgone
    obtain ⟨kept, hbefore, hkept⟩ := left_before hgone fun hmem => by
      have := (State.stale_iff.1 (hall fi hmem)).1
      simp [hfi] at this
    have hcopy : ∀ y ∈ copies, y.faulted = false ∧ ∃ slot, y.work = .replace ⟨b, slot⟩
        ∧ (u.slotLiveFor ⟨b, slot⟩ y.lgn = true ↔ bd.slots[slot]? = some (.live y.lgn)) := by
      intro y hy
      rw [hcopies] at hy
      obtain ⟨z, -, rfl⟩ := List.mem_map.1 hy
      refine ⟨rfl, z.slot, rfl, ?_⟩
      simp only [State.slotLiveFor, hband, Band.closedFor, decide_eq_true_eq]
      exact live_slotsAt
    have hupu : u.mpt.up = s.mpt.up := (congrArg Mpt.up hmpt).trans hfault.up
    refine ⟨⟨gone, kept, hbefore, fun y hy => ?_, fun hup y hy => ?_, by rw [hkept, hfi]⟩,
      ⟨b', _, hob, hopened, rfl, rfl, fun hup => ?_⟩, hop'⟩
    · obtain ⟨-, slot, hwork', hlive⟩ := hcopy y (by rw [hbefore]; exact List.mem_append_left _ hy)
      obtain ⟨-, src, hsrc, hdead⟩ := State.stale_iff.1 (hall y hy)
      obtain rfl : src = ⟨b, slot⟩ := by simpa using hsrc.symm.trans hwork'
      exact ⟨slot, hwork', fun h => by simp [hlive.2 h] at hdead⟩
    · obtain ⟨hfault', slot, hwork', hlive⟩ := hcopy y (by
        rw [hbefore]
        exact List.mem_append_right _ (List.mem_of_head? hy))
      obtain ⟨items, hitems⟩ := List.head?_eq_some_iff.1 hy
      obtain ⟨-, hstale⟩ := hplace (hupu.trans hup) y (items ++ fi :: rest) (by rw [hkept, hitems]; rfl)
      obtain h | h | ⟨src, hsrc, h⟩ := State.not_stale_iff.1 hstale
      · simp [hfault'] at h
      · simp [hwork', Work.isReplace] at h
      · obtain rfl : src = ⟨b, slot⟩ := by simpa using hsrc.symm.trans hwork'
        exact ⟨slot, hwork', hlive.1 h⟩
    · obtain ⟨x, items, hx⟩ : ∃ x items, kept ++ fi :: rest = x :: items := List.exists_cons_of_ne_nil (by simp)
      exact (hplace (hupu.trans hup) x items (hkept.trans hx)).1

end Sys2Proof.Machine
end

section
namespace Sys2Proof.Machine

/-! ### What the work after an item's placement leaves as it was (R53, R70, R77) -/

/-- The slots of a band and its frontier. -/
def Band.placed (bd : Band) : List Slot × Nat := (bd.slots, bd.frontier)

/-- `t` holds the slots, frontiers, watch windows and notices of `s`. -/
structure State.SlotsKept (s t : State) : Prop where
  placed : ∀ k, (t.band? k).map Band.placed = (s.band? k).map Band.placed
  windows : t.evu.windows = s.evu.windows
  notices : t.evu.watchQueue = s.evu.watchQueue
  zones : t.btu.zones = s.btu.zones

/-- `t` holds the exposed sets and zone ranges of `s` too. -/
structure State.PlacesKept (s t : State) : Prop extends s.SlotsKept t where
  exposed : ∀ m, (t.stream m).exposed = (s.stream m).exposed
  lo : ∀ m, (t.stream m).lo = (s.stream m).lo
  hi : ∀ m, (t.stream m).hi = (s.stream m).hi

namespace State.SlotsKept
variable {s t u : State}

theorem refl (s : State) : s.SlotsKept s := ⟨fun _ => rfl, rfl, rfl, rfl⟩

theorem trans (h : s.SlotsKept t) (k : t.SlotsKept u) : s.SlotsKept u :=
  ⟨fun j => (k.placed j).trans (h.placed j), k.windows.trans h.windows, k.notices.trans h.notices, k.zones.trans h.zones⟩

theorem updBand (h : s.SlotsKept t) (b : Nat) {f : Band → Band} (hf : ∀ bd, (f bd).placed = bd.placed) :
    s.SlotsKept (t.updBand b f) :=
  { h with
    placed := fun k => by
      rw [State.band?_updBand, Option.map_map, ← h.placed k]
      congr 1
      funext bd
      show (if b = k then f bd else bd).placed = bd.placed
      split
      · exact hf bd
      · rfl }

/-- A band's slots and frontier are as before. -/
theorem band (h : s.SlotsKept t) {k : Nat} {bd : Band} (hb : s.band? k = some bd) :
    ∃ bd', t.band? k = some bd' ∧ bd'.slots = bd.slots ∧ bd'.frontier = bd.frontier := by
  have := h.placed k
  rw [hb] at this
  obtain ⟨bd', hb', hp⟩ := Option.map_eq_some_iff.1 this
  exact ⟨bd', hb', congrArg Prod.fst hp, congrArg Prod.snd hp⟩

theorem closeBand (h : s.SlotsKept t) (b : Nat) (why : CloseReason) : s.SlotsKept (t.closeBand b why) := by
  unfold State.closeBand
  split
  · split
    · have := h.updBand b (f := fun bd => bd.closedFor t.btu.closeOrder why) fun _ => rfl
      exact { this with }
    · exact h
  · exact h

end State.SlotsKept

namespace State.PlacesKept
variable {s t : State} {n : Fin 9}

theorem refl (s : State) : s.PlacesKept s := ⟨.refl s, fun _ => rfl, fun _ => rfl, fun _ => rfl⟩

theorem updBand (h : s.PlacesKept t) (b : Nat) {f : Band → Band} (hf : ∀ bd, (f bd).placed = bd.placed) :
    s.PlacesKept (t.updBand b f) :=
  { h.toSlotsKept.updBand b hf with exposed := h.exposed, lo := h.lo, hi := h.hi }

theorem base (s : State) : Kept.Base s.PlacesKept where
  outbound := fun _ h => { h with }
  requests := fun _ _ h => { h with }
  events := fun _ _ h => { h with }
  queues := fun _ _ _ h => { h with }
  buffers := fun _ h => { h with }

/-- A stream record may change in all but its zone range and its exposed set. -/
theorem stream {x : Stream} (hlo : x.lo = (t.stream n).lo) (hhi : x.hi = (t.stream n).hi)
    (hex : x.exposed = (t.stream n).exposed) (h : s.PlacesKept t) : s.PlacesKept (t.setStream n x) :=
  have hkeep {α : Type} {f : Stream → α} (hf : f x = f (t.stream n)) (m : Fin 9) :
      f ((t.setStream n x).stream m) = f (t.stream m) := by
    rw [State.stream_setStream]
    split
    · next hm => rw [hm, hf]
    · rfl
  { h with
    exposed := fun m => (hkeep hex m).trans (h.exposed m)
    lo := fun m => (hkeep hlo m).trans (h.lo m)
    hi := fun m => (hkeep hhi m).trans (h.hi m) }

theorem grantOpen (h : s.PlacesKept t) : s.PlacesKept (t.grantOpen n) := by
  unfold State.grantOpen
  split
  · next b spill hpick =>
    have hraise : s.PlacesKept (t.raiseSpill n spill) := by
      unfold State.raiseSpill
      split
      · exact (base s).raise h ..
      · exact h
    have hopen : s.PlacesKept ((t.raiseSpill n spill).openFor n b) :=
      stream (n := n) rfl rfl rfl
        (hraise.updBand b (f := fun bd => { bd with state := .opened, stream := some n }) fun _ => rfl)
    exact (base s).judgePressureOn (fun _ h => { h with }) hopen
  · exact h

theorem pump (s : State) (n : Fin 9) : Kept.Pump s.PlacesKept n :=
  { base s with
    stream := stream
    wait := fun _ h => { h with }
    grant := grantOpen }

theorem reads (s : State) : Kept.Reads s.PlacesKept :=
  { base s with
    log := fun _ h => { h with }
    readStart := fun b h => h.updBand b fun bd => by split <;> rfl
    readEnd := fun b h => h.updBand b fun bd => by split <;> rfl }

theorem log (s : State) : Kept.Log s.PlacesKept :=
  { reads s with map := fun _ h => { h with } }

theorem cleaner (s : State) : Kept.Cleaner s.PlacesKept :=
  { reads s, pump s relocation with
    cleaner := fun _ _ _ h => { h with }
    spend := fun h => { h with }
    leave := fun b m h => h.updBand b fun bd => by split <;> rfl }

theorem placedGranule (h : s.PlacesKept t) : s.PlacesKept t.placedGranule := { h with }

end State.PlacesKept

/-! ### The map, the pacer and the log through that work -/

/-- The map is `g`. -/
abbrev State.MapIs (g : Gmu) (s : State) : Prop := s.gmu = g

namespace State.MapIs

theorem base (g : Gmu) : Kept.Base (State.MapIs g) where
  outbound := fun _ h => h
  requests := fun _ _ h => h
  events := fun _ _ h => h
  queues := fun _ _ _ h => h
  buffers := fun _ h => h

theorem pump (g : Gmu) (n : Fin 9) : Kept.Pump (State.MapIs g) n :=
  { base g with
    stream := fun _ _ _ h => h
    wait := fun _ h => h
    grant := fun h => (base g).grantOpen (fun _ h => h) (fun _ h => h) h }

theorem cleaner (g : Gmu) : Kept.Cleaner (State.MapIs g) :=
  { pump g relocation with
    log := fun _ h => h
    readStart := fun _ h => h
    readEnd := fun _ h => h
    cleaner := fun _ _ _ h => h
    spend := fun h => h
    leave := fun _ _ h => h }

end State.MapIs

/-- The cleaner is `c`. -/
abbrev State.CleanerIs (c : Cle) (s : State) : Prop := s.cle = c

namespace State.CleanerIs

theorem base (c : Cle) : Kept.Base (State.CleanerIs c) where
  outbound := fun _ h => h
  requests := fun _ _ h => h
  events := fun _ _ h => h
  queues := fun _ _ _ h => h
  buffers := fun _ h => h

theorem pump (c : Cle) (n : Fin 9) : Kept.Pump (State.CleanerIs c) n :=
  { base c with
    stream := fun _ _ _ h => h
    wait := fun _ h => h
    grant := fun h => (base c).grantOpen (fun _ h => h) (fun _ h => h) h }

theorem log (c : Cle) : Kept.Log (State.CleanerIs c) :=
  { base c with
    log := fun _ h => h
    readStart := fun _ h => h
    readEnd := fun _ h => h
    map := fun _ h => h }

end State.CleanerIs

/-- The staging log is `l`. -/
abbrev State.LogIs (l : Slu) (s : State) : Prop := s.slu = l

namespace State.LogIs

theorem base (l : Slu) : Kept.Base (State.LogIs l) where
  outbound := fun _ h => h
  requests := fun _ _ h => h
  events := fun _ _ h => h
  queues := fun _ _ _ h => h
  buffers := fun _ h => h

theorem pump (l : Slu) (n : Fin 9) : Kept.Pump (State.LogIs l) n :=
  { base l with
    stream := fun _ _ _ h => h
    wait := fun _ h => h
    grant := fun h => (base l).grantOpen (fun _ h => h) (fun _ h => h) h }

end State.LogIs

end Sys2Proof.Machine
end

section
namespace Sys2Proof.Machine

/-! ### FOLD requests that end (R101) -/

section
variable {s : State}

/-- The end of one request leaves the others' entries. -/
theorem State.entry?_finish_of_ne {tag other : Nat} (h : other ≠ tag) (st : Status) (fs : List Field) :
    (s.finish other st fs).entry? tag = s.entry? tag := by
  unfold State.finish
  split
  · show (s.rqu.entries.filter fun x => decide (x.tag ≠ other)).find? (fun x => decide (x.tag = tag)) = _
    rw [List.find?_filter]
    refine congrArg (fun p => s.rqu.entries.find? p) (funext fun x => ?_)
    by_cases hx : x.tag = tag
    · simp [hx, Ne.symm h]
    · simp [hx]
  · rfl

/-- What replying FOLD requests can change: the requests and the outbound queue, no entry of another tag gone. -/
theorem State.finishFolds_eq (reqs : List FoldReq) (s : State) :
    ∃ es held out, reqs.foldl (fun s q => s.finish q.tag .done (q.fields true)) s = { s with
        rqu := { s.rqu with entries := es, held := held }, flu := { s.flu with outbound := out } }
      ∧ ∀ tag, (∀ q ∈ reqs, q.tag ≠ tag) →
        (reqs.foldl (fun s q => s.finish q.tag .done (q.fields true)) s).entry? tag = s.entry? tag := by
  induction reqs generalizing s with
  | nil => exact ⟨s.rqu.entries, s.rqu.held, s.flu.outbound, rfl, fun _ _ => rfl⟩
  | cons q reqs ih =>
    obtain ⟨es, held, out, hfirst⟩ := s.finish_eq q.tag .done (q.fields true)
    obtain ⟨es', held', out', hrest, hentry⟩ := ih (s.finish q.tag .done (q.fields true))
    refine ⟨es', held', out', ?_, fun tag htag => ?_⟩
    · rw [List.foldl_cons, hrest, hfirst]
    · rw [List.foldl_cons, hentry tag fun x hx => htag x (List.mem_cons_of_mem q hx)]
      exact State.entry?_finish_of_ne (htag q List.mem_cons_self) ..

/-- What judging the FOLD requests can change (R101). -/
theorem State.judgeFoldReqs_eq (s : State) :
    ∃ es held out reqs, s.judgeFoldReqs = { s with
        slu := { s.slu with foldReqs := reqs }
        rqu := { s.rqu with entries := es, held := held }, flu := { s.flu with outbound := out } }
      ∧ ∀ tag, (∀ q ∈ s.slu.foldReqs, q.tag ≠ tag) → s.judgeFoldReqs.entry? tag = s.entry? tag := by
  unfold State.judgeFoldReqs
  split
  · obtain ⟨es, held, out, heq, hentry⟩ :=
      State.finishFolds_eq s.slu.foldReqs { s with slu := { s.slu with foldReqs := [] } }
    exact ⟨es, held, out, [], heq, hentry⟩
  · exact ⟨s.rqu.entries, s.rqu.held, s.flu.outbound, s.slu.foldReqs, rfl, fun _ _ => rfl⟩

/-- What killing records can change: the directory, the FOLD requests with their entries, and the outbound queue (R46,
R97, R101). -/
theorem State.killRecords_eq (s : State) (ps : List Nat) :
    ∃ es held out l, s.killRecords ps = { s with
        slu := l, rqu := { s.rqu with entries := es, held := held }, flu := { s.flu with outbound := out } }
      ∧ l.fold = s.slu.fold ∧ l.overlayWait = s.slu.overlayWait ∧ (∀ x ∈ l.dir, x.pos ∈ ps → x.state = .dead)
      ∧ ∀ tag, (∀ q ∈ s.slu.foldReqs, q.tag ≠ tag) → (s.killRecords ps).entry? tag = s.entry? tag := by
  obtain ⟨l, hl⟩ : ∃ l : Slu, l = { s.slu with dir := s.slu.dir.map fun r : Record => r.killedBy ps } := ⟨_, rfl⟩
  obtain ⟨-, hfold, hwait, hreqs⟩ := l.advance_frame
  obtain ⟨es, held, out, reqs, heq, hentry⟩ := State.judgeFoldReqs_eq { s with slu := l.advance }
  have hkill : s.killRecords ps = ({ s with slu := l.advance } : State).judgeFoldReqs := by rw [hl]; rfl
  refine ⟨es, held, out, { l.advance with foldReqs := reqs }, hkill.trans heq, ?_, ?_, fun x hx hp => ?_, fun tag htag => ?_⟩
  · exact hfold.trans (by rw [hl])
  · exact hwait.trans (by rw [hl])
  · have hx : x ∈ l.dir := Slu.mem_advance (l := l) hx
    rw [hl] at hx
    obtain ⟨r, -, rfl⟩ := List.mem_map.1 hx
    have hpos : (r.killedBy ps).pos = r.pos := by
      unfold Record.killedBy
      split
      · rfl
      · split
        · rfl
        · split
          · split <;> rfl
          · rfl
    rw [hpos] at hp
    simp [Record.killedBy, hp]
  · rw [hkill]
    refine (hentry tag ?_).trans rfl
    rw [show ({ s with slu := l.advance } : State).slu.foldReqs = s.slu.foldReqs from hreqs.trans (by rw [hl])]
    exact htag

theorem State.countFold_eq (s : State) (f : FoldReq → FoldReq) :
    ∃ es held out reqs, s.countFold f = { s with
      slu := { s.slu with foldReqs := reqs }
      rqu := { s.rqu with entries := es, held := held }, flu := { s.flu with outbound := out } } := by
  unfold State.countFold
  split
  · next q rest hreqs =>
    dsimp only
    split
    · obtain ⟨es, held, out, heq⟩ := ({ s with slu := { s.slu with foldReqs := rest } } : State).finish_eq (f q).tag .done
        ((f q).fields (!s.anyLiveRecord))
      exact ⟨es, held, out, rest, heq⟩
    · exact ⟨s.rqu.entries, s.rqu.held, s.flu.outbound, _, rfl⟩
  · exact ⟨s.rqu.entries, s.rqu.held, s.flu.outbound, s.slu.foldReqs, rfl⟩

/-- The end of a fold with no STORE waiting for an overlay: the fold record ends, and FOLD requests may (R101, R106). -/
theorem State.foldEnd_eq (h : s.slu.overlayWait = []) (f : FoldReq → FoldReq) :
    ∃ es held out reqs, s.foldEnd f = { s with
      slu := { s.slu with fold := none, foldReqs := reqs }
      rqu := { s.rqu with entries := es, held := held }, flu := { s.flu with outbound := out } } := by
  obtain ⟨es, held, out, reqs, hcount⟩ := ({ s with slu := { s.slu with fold := none } } : State).countFold_eq f
  obtain ⟨es', held', out', reqs', hjudge, -⟩ :=
    (({ s with slu := { s.slu with fold := none } } : State).countFold f).judgeFoldReqs_eq
  refine ⟨es', held', out', reqs', ?_⟩
  have hend : s.foldEnd f = (({ s with slu := { s.slu with fold := none } } : State).countFold f).judgeFoldReqs := by
    refine State.rejudgeOverlays_of_no_wait ?_
    rw [hjudge, hcount]
    exact h
  rw [hend, hjudge, hcount]

theorem State.foldPlaced_eq (h : s.slu.overlayWait = []) (v : Verdict) :
    ∃ es held out reqs, s.foldPlaced v = { s with
      slu := { s.slu with fold := none, foldReqs := reqs }
      rqu := { s.rqu with entries := es, held := held }, flu := { s.flu with outbound := out } } := by
  cases v with
  | accepted => exact State.foldEnd_eq h _
  | rejected => exact State.foldEnd_eq h _

end

end Sys2Proof.Machine
end

section
namespace Sys2Proof.Machine

/-! ### An item's completion, stage by stage (R53, R69 to R71, R77) -/

/-- The part once an item's home change is proposed, its slot reported and the item exposed (R53, R71, R77). -/
def State.itemPlaced (s : State) (n : Fin 9) (b w : Nat) (it : Item) : State :=
  ((s.propose it ⟨b, w⟩).moveFrontier n b (16 * (w + 1)) (some ((s.verdict it).slot it.lgn)) true).updStream n fun x =>
    { x with exposed := x.exposed ++ [⟨w, it.lgn, it.content⟩] }

/-- The part once the item's owner is told, and the pacer of a placed granule (R70, R126). -/
def State.itemTold (s : State) (n : Fin 9) (it : Item) (v : Verdict) : State :=
  if n = relocation then s.reportItem it v else (s.reportItem it v).placedGranule

/-- The part once the item has left its stream's head. -/
def State.itemLeft (s : State) (n : Fin 9) : State := (s.dropHead n).updStream n fun x => { x with writing := none }

/-- All that follows an item's placement. -/
def State.itemSettled (s : State) (n : Fin 9) (b : Nat) (it : Item) (v : Verdict) (rs : List Recovery) : State :=
  ((((s.itemTold n it v).itemLeft n).capacityClose n b).goOn n).raiseEnded rs

theorem State.itemComplete_eq (s : State) (n : Fin 9) (b w : Nat) (it : Item) :
    s.itemComplete n b w it = (s.itemPlaced n b w it).itemSettled n b it (s.verdict it) s.recoveries := rfl

section
variable {s : State} {n : Fin 9} {b : Nat} {it : Item} {v : Verdict} {rs : List Recovery}

theorem State.itemTold_keeps (s : State) (n : Fin 9) (it : Item) (v : Verdict) : s.PlacesKept (s.itemTold n it v) := by
  have hreport : s.PlacesKept (s.reportItem it v) := by
    unfold State.reportItem
    split
    · exact (State.PlacesKept.base s).storeDone (.refl s) _
    · exact (State.PlacesKept.log s).foldPlaced (.refl s) _
    · exact (State.PlacesKept.cleaner s).copyPlaced (.refl s) ..
    · exact .refl s
  unfold State.itemTold
  split
  · exact hreport
  · exact hreport.placedGranule

theorem State.itemLeft_keeps {r : State} (h : r.PlacesKept s) : r.PlacesKept (s.itemLeft n) :=
  (State.PlacesKept.pump r n).stream rfl rfl rfl ((State.PlacesKept.pump r n).dropHead h)

/-- What closing a full band keeps: all slots; and the exposed set is released whole (R71, R77). -/
theorem State.capacityClose_spec (s : State) (n : Fin 9) (b : Nat) :
    s.SlotsKept (s.capacityClose n b) ∧ ((s.capacityClose n b).stream n).exposed =
        (if 16 * (s.geo b).cap ≤ s.frontier b then [] else (s.stream n).exposed)
      ∧ (s.capacityClose n b).gmu = s.gmu ∧ (s.capacityClose n b).cle = s.cle ∧ (s.capacityClose n b).slu = s.slu := by
  unfold State.capacityClose
  split
  · obtain ⟨u, hu⟩ : ∃ u, u = s.updStream n fun x => { x with exposed := [], openBand := none } := ⟨_, rfl⟩
    have hkept : s.SlotsKept u := hu ▸ { State.SlotsKept.refl s with }
    have hexposed : (u.stream n).exposed = [] := by rw [hu, State.stream_updStream, if_pos rfl]
    rw [← hu]
    have hclose : (u.closeBand b .capacity).swr = u.swr ∧ (u.closeBand b .capacity).gmu = u.gmu
        ∧ (u.closeBand b .capacity).cle = u.cle ∧ (u.closeBand b .capacity).slu = u.slu := by
      unfold State.closeBand
      split
      · split <;> exact ⟨rfl, rfl, rfl, rfl⟩
      · exact ⟨rfl, rfl, rfl, rfl⟩
    obtain ⟨hswr, hgmu, hcle, hslu⟩ := hclose
    refine ⟨hkept.closeBand b _, ?_, ?_, ?_, ?_⟩
    · rw [State.stream_congr hswr, hexposed]
    · rw [hgmu, hu]; rfl
    · rw [hcle, hu]; rfl
    · rw [hslu, hu]; rfl
  · exact ⟨.refl s, rfl, rfl, rfl, rfl⟩

/-- What follows an item's placement keeps every slot, and releases the exposed set of a full band (R71, R77). -/
theorem State.itemSettled_keeps (s : State) (n : Fin 9) (b : Nat) (it : Item) (v : Verdict) (rs : List Recovery) :
    s.SlotsKept (s.itemSettled n b it v rs) ∧ ((s.itemSettled n b it v rs).stream n).exposed =
      if 16 * (s.geo b).cap ≤ s.frontier b then [] else (s.stream n).exposed := by
  obtain ⟨d, hd⟩ : ∃ d, d = (s.itemTold n it v).itemLeft n := ⟨_, rfl⟩
  have hsd : s.PlacesKept d := hd ▸ State.itemLeft_keeps (State.itemTold_keeps s n it v)
  obtain ⟨hclose, hex, -⟩ := d.capacityClose_spec n b
  have hgo : (d.capacityClose n b).PlacesKept (s.itemSettled n b it v rs) := by
    rw [State.itemSettled, ← hd]
    exact (State.PlacesKept.base _).raiseEnded ((State.PlacesKept.pump _ n).goOn (.refl _)) rs
  have hgeo : d.geo b = s.geo b := congrArg (bandGeo · b) hsd.zones
  have hfr : d.frontier b = s.frontier b := by
    have := hsd.placed b
    unfold State.frontier
    cases hb : s.band? b with
    | none =>
      rw [hb] at this
      rw [Option.map_eq_none_iff.1 this]
    | some bd =>
      obtain ⟨bd', hb', -, hf⟩ := hsd.toSlotsKept.band hb
      simp [hb', hf]
  refine ⟨(hsd.toSlotsKept.trans hclose).trans hgo.toSlotsKept, ?_⟩
  rw [hgo.exposed n, hex, hgeo, hfr, hsd.exposed n]

/-- What follows the owner's being told keeps the map. -/
theorem State.itemSettled_gmu (h : (s.reportItem it v).gmu = s.gmu) : (s.itemSettled n b it v rs).gmu = s.gmu := by
  have htold : (s.itemTold n it v).gmu = s.gmu := by
    unfold State.itemTold
    split <;> exact h
  obtain ⟨-, -, hgmu, -⟩ := ((s.itemTold n it v).itemLeft n).capacityClose_spec n b
  exact (State.MapIs.base s.gmu).raiseEnded ((State.MapIs.pump s.gmu n).goOn (hgmu.trans htold)) rs

theorem State.itemSettled_slu {l : Slu} (h : (s.reportItem it v).slu = l) : (s.itemSettled n b it v rs).slu = l := by
  have htold : (s.itemTold n it v).slu = l := by
    unfold State.itemTold
    split <;> exact h
  obtain ⟨-, -, -, -, hslu⟩ := ((s.itemTold n it v).itemLeft n).capacityClose_spec n b
  exact (State.LogIs.base l).raiseEnded ((State.LogIs.pump l n).goOn (hslu.trans htold)) rs

theorem State.itemSettled_pacer (h : (s.reportItem it v).cle = s.cle) :
    (s.itemSettled n b it v rs).cle.pacer = if n = relocation then s.cle.pacer else s.cle.pacer.decrease .event := by
  have htold : (s.itemTold n it v).cle.pacer = if n = relocation then s.cle.pacer else s.cle.pacer.decrease .event := by
    unfold State.itemTold
    split
    · rw [h]
    · show (s.reportItem it v).cle.pacer.decrease .event = _
      rw [h]
  obtain ⟨-, -, -, hcle, -⟩ := ((s.itemTold n it v).itemLeft n).capacityClose_spec n b
  have hgo := (State.CleanerIs.base _).raiseEnded ((State.CleanerIs.pump _ n).goOn hcle) rs
  exact (congrArg Cle.pacer hgo).trans htold

/-- A frame that stands in the outbound queue once the owner is told stands there to the end. -/
theorem State.itemSettled_outbound {f : OutFrame} (h : f ∈ (s.reportItem it v).flu.outbound) :
    f ∈ (s.itemSettled n b it v rs).flu.outbound := by
  have htold : f ∈ (s.itemTold n it v).flu.outbound := by
    unfold State.itemTold
    split <;> exact h
  obtain ⟨more, hmore⟩ := (State.raiseEnded_work (State.goOn_work (State.capacityClose_work (State.updStream_work
    (State.dropHead_work (BlockWork.refl (s.itemTold n it v)) n) n (f := fun x => { x with writing := none })
      fun _ => ⟨rfl, rfl⟩) n b) n) rs).outbound
  rw [State.itemSettled]
  exact hmore ▸ List.mem_append_left _ htold

end

end Sys2Proof.Machine
end

section
namespace Sys2Proof.Machine

/-! ### Home changes as they are proposed (R46, R53 to R58) -/

/-- What a home change leaves alone of the part. -/
structure State.ProposeKeeps (s t : State) : Prop where
  swr : t.swr = s.swr
  cle : t.cle = s.cle
  zones : t.btu.zones = s.btu.zones

theorem State.ProposeKeeps.homes (s : State) : Kept.Homes s.ProposeKeeps where
  outbound := fun _ h => { h with }
  requests := fun _ _ h => { h with }
  events := fun _ _ h => { h with }
  queues := fun _ _ _ h => { h with }
  buffers := fun _ h => { h with }
  log := fun _ h => { h with }
  map := fun _ h => { h with }
  readStart := fun _ h => { h with }
  readEnd := fun _ h => { h with }
  supersede := fun x h => by
    cases x with
    | none => exact h
    | some x => exact { h with }
  watch := fun _ _ h => { h with }

/-- Band `b` is OPEN, its frontier `f`. -/
def State.OpenTo (b f : Nat) (s : State) : Prop := ∃ bd, s.band? b = some bd ∧ bd.state = .opened ∧ bd.frontier = f

theorem State.OpenTo.updBand {b f : Nat} {s : State} (h : s.OpenTo b f) (k : Nat) {g : Band → Band}
    (hg : ∀ bd, (g bd).state = bd.state ∧ (g bd).frontier = bd.frontier) : (s.updBand k g).OpenTo b f := by
  obtain ⟨bd, hb, hst, hf⟩ := h
  refine ⟨if k = b then g bd else bd, by rw [State.band?_updBand, hb, Option.map_some], ?_⟩
  obtain ⟨hgs, hgf⟩ := hg bd
  split
  · exact ⟨hgs.trans hst, hgf.trans hf⟩
  · exact ⟨hst, hf⟩

theorem Band.supersede_frontier (bd : Band) (w : Nat) : (bd.supersede w).frontier = bd.frontier := by
  unfold Band.supersede
  split
  · split <;> rfl
  · rfl

theorem State.OpenTo.homes (b f : Nat) : Kept.Homes (State.OpenTo b f) where
  outbound := fun _ h => h
  requests := fun _ _ h => h
  events := fun _ _ h => h
  queues := fun _ _ _ h => h
  buffers := fun _ h => h
  log := fun _ h => h
  map := fun _ h => h
  readStart := fun k h => h.updBand k fun bd => by split <;> exact ⟨rfl, rfl⟩
  readEnd := fun k h => h.updBand k fun bd => by split <;> exact ⟨rfl, rfl⟩
  supersede := fun x h => by
    cases x with
    | none => exact h
    | some x => exact h.updBand x.band fun bd => ⟨bd.supersede_state x.slot, bd.supersede_frontier x.slot⟩
  watch := fun _ _ h => h

section
variable {s : State}

/-- A home change's notice is drawn from the watch windows alone (R58, R181). -/
theorem State.homeChange_evu {t : State} (h : t.evu = s.evu) (lgn : Nat) (cause : HomeCause) (old new : Option Home) :
    (t.homeChange lgn cause old new).evu = (s.homeChange lgn cause old new).evu := by
  unfold State.homeChange
  dsimp only
  rw [h]
  split
  · exact h
  · unfold State.offerWatch
    rw [h]
    split
    · rfl
    · simp [State.raise_evu]

theorem State.homeChange_entry? (s : State) (lgn : Nat) (cause : HomeCause) (old new : Option Home) (tag : Nat) :
    (s.homeChange lgn cause old new).entry? tag = s.entry? tag := by
  obtain ⟨hrqu, -⟩ := s.homeChange_frame lgn cause old new
  rw [State.entry?, hrqu]
  rfl

/-- A STORE's home change (R46, R53). -/
theorem State.proposeStore_spec (s : State) (lgn p : Nat) (new : Home) :
    (s.proposeStore lgn p new).gmu = { s.gmu with map := tablePut {} s.gmu.map lgn { home := some new, base := p } }
      ∧ (s.proposeStore lgn p new).evu = (s.homeChange lgn .store (s.entryOf lgn).home (some new)).evu
      ∧ ∀ tag, (∀ q ∈ s.slu.foldReqs, q.tag ≠ tag) → (s.proposeStore lgn p new).entry? tag = s.entry? tag := by
  obtain ⟨x, hx⟩ := s.supersede_frame (s.entryOf lgn).home
  obtain ⟨es, held, out, l, hkill, -, -, -, hentry⟩ := (({ s with btu := x } : State).setEntryOf lgn
    { home := some new, base := p }).killRecords_eq ((s.chain lgn).map Record.pos)
  have hgranule : s.supersedeGranule lgn p (some new) = (({ s with btu := x } : State).setEntryOf lgn
      { home := some new, base := p }).killRecords ((s.chain lgn).map Record.pos) := by
    rw [← hx]
    rfl
  have hstore : s.proposeStore lgn p new =
      (s.supersedeGranule lgn p (some new)).homeChange lgn .store (s.entryOf lgn).home (some new) := rfl
  obtain ⟨-, hgmu, -⟩ := (s.supersedeGranule lgn p (some new)).homeChange_frame lgn .store (s.entryOf lgn).home (some new)
  refine ⟨?_, ?_, fun tag htag => ?_⟩
  · rw [hstore, hgmu, hgranule, hkill]
    rfl
  · rw [hstore]
    refine State.homeChange_evu ?_ ..
    rw [hgranule, hkill]
    rfl
  · rw [hstore, State.homeChange_entry?, hgranule]
    exact hentry tag htag

/-- The map entry that an accepted FOLD leaves (R46, R55). -/
def State.foldedEntry (s : State) (lgn q : Nat) (merged : List Nat) (new : Home) : MapEntry :=
  { home := some new, base := q, overlays := (s.entryOf lgn).overlays - s.survivors merged
    newest := if (s.entryOf lgn).overlays - s.survivors merged = 0 then none else (s.entryOf lgn).newest }

/-- A FOLD's accepted home change: the records it merged are DEAD (R46, R55). -/
theorem State.acceptFold_spec (s : State) (lgn q : Nat) (merged : List Nat) (new : Home) :
    (s.acceptFold lgn q merged new).gmu =
        { s.gmu with map := tablePut {} s.gmu.map lgn (s.foldedEntry lgn q merged new) }
      ∧ (s.acceptFold lgn q merged new).evu = (s.homeChange lgn .fold (s.entryOf lgn).home (some new)).evu
      ∧ (s.acceptFold lgn q merged new).slu.overlayWait = s.slu.overlayWait
      ∧ ∀ x ∈ (s.acceptFold lgn q merged new).slu.dir, x.pos ∈ merged → x.state = .dead := by
  obtain ⟨x, hx⟩ := s.supersede_frame (s.entryOf lgn).home
  obtain ⟨e, he⟩ : ∃ e, e = s.foldedEntry lgn q merged new := ⟨_, rfl⟩
  obtain ⟨es, held, out, l, hkill, -, hwait, hdead, -⟩ := (({ s with btu := x } : State).setEntryOf lgn e).killRecords_eq merged
  have hfold : s.acceptFold lgn q merged new = ((({ s with btu := x } : State).setEntryOf lgn e).killRecords merged).homeChange
      lgn .fold (s.entryOf lgn).home (some new) := by
    rw [← hx, he]
    rfl
  obtain ⟨-, hgmu, -, -, hslu, -⟩ := ((({ s with btu := x } : State).setEntryOf lgn e).killRecords merged).homeChange_frame
    lgn .fold (s.entryOf lgn).home (some new)
  rw [← he, hfold]
  refine ⟨?_, ?_, ?_, ?_⟩
  · rw [hgmu, hkill]
    rfl
  · refine State.homeChange_evu ?_ ..
    rw [hkill]
    rfl
  · rw [hslu, hkill]
    exact hwait
  · rw [hslu, hkill]
    exact hdead

/-- A copy's accepted home change (R46, R56). -/
theorem State.acceptCopy_spec (s : State) (lgn : Nat) (src new : Home) (cause : HomeCause) :
    (s.acceptCopy lgn src new cause).gmu =
        { s.gmu with map := tablePut {} s.gmu.map lgn { s.entryOf lgn with home := some new } }
      ∧ (s.acceptCopy lgn src new cause).evu = (s.homeChange lgn cause (some src) (some new)).evu
      ∧ (s.acceptCopy lgn src new cause).btu = (s.supersede (some src)).btu := by
  obtain ⟨x, hx⟩ := s.supersede_frame (some src)
  have hcopy : s.acceptCopy lgn src new cause = ((s.supersede (some src)).setEntryOf lgn
    { s.entryOf lgn with home := some new }).homeChange lgn cause (some src) (some new) := rfl
  obtain ⟨-, hgmu, hbtu, -⟩ := ((s.supersede (some src)).setEntryOf lgn { s.entryOf lgn with home := some new }).homeChange_frame
    lgn cause (some src) (some new)
  rw [hcopy]
  refine ⟨?_, State.homeChange_evu ?_ .., ?_⟩
  · rw [hgmu, hx]
    rfl
  · rw [hx]
    rfl
  · rw [hbtu]
    rfl

end

end Sys2Proof.Machine
end

section
namespace Sys2Proof.Machine

/-! ### An item's placement (R21, R53 to R56, R71, R77) -/

section
variable {s : State} {n : Fin 9} {b w f : Nat} {it : Item}

theorem State.propose_rejected (h : s.verdict it = .rejected) (new : Home) : s.propose it new = s := by
  simp [State.propose, h]

theorem State.propose_store {tag p : Nat} (h : it.work = .store tag p) (new : Home) :
    s.verdict it = .accepted ∧ s.propose it new = s.proposeStore it.lgn p new := by
  simp [State.propose, State.verdict, h]

theorem State.propose_fold {q : Nat} {merged : List Nat} (h : it.work = .fold q merged)
    (hq : (s.entryOf it.lgn).base < q) (new : Home) :
    s.verdict it = .accepted ∧ s.propose it new = s.acceptFold it.lgn q merged new := by
  simp [State.propose, State.verdict, h, hq]

theorem State.verdict_fold_rejected {q : Nat} {merged : List Nat} (h : it.work = .fold q merged)
    (hq : q ≤ (s.entryOf it.lgn).base) : s.verdict it = .rejected := by
  simp [State.verdict, h, Nat.not_lt.2 hq]

/-- A copy accepted: its home is moved, with the cause its work says (R56, R58). -/
theorem State.propose_copy {src : Home} {cause : HomeCause} (h : (s.entryOf it.lgn).home = some src)
    (hw : it.work = .clean src ∧ cause = .clean ∨ it.work = .replace src ∧ cause = .replace) (new : Home) :
    s.verdict it = .accepted ∧ s.propose it new = s.acceptCopy it.lgn src new cause := by
  rcases hw with ⟨hw, rfl⟩ | ⟨hw, rfl⟩ <;> simp [State.propose, State.verdict, hw, h]

theorem State.verdict_copy_rejected {src : Home} (h : (s.entryOf it.lgn).home ≠ some src)
    (hw : it.work = .clean src ∨ it.work = .replace src) : s.verdict it = .rejected := by
  rcases hw with hw | hw <;> simp [State.verdict, hw, h]

/-- A proposed home change changes at most the granule's own map entry (R53 to R56). -/
theorem State.propose_gmu (s : State) (it : Item) (new : Home) :
    (s.propose it new).gmu = s.gmu
      ∨ ∃ e, (s.propose it new).gmu = { s.gmu with map := tablePut {} s.gmu.map it.lgn e } := by
  cases hv : s.verdict it with
  | rejected => exact .inl (congrArg State.gmu (State.propose_rejected hv new))
  | accepted =>
    right
    cases hw : it.work with
    | store tag p =>
      obtain ⟨hgmu, -⟩ := s.proposeStore_spec it.lgn p new
      rw [(State.propose_store hw new).2]
      exact ⟨_, hgmu⟩
    | fold q merged =>
      have hq : (s.entryOf it.lgn).base < q := by
        by_contra hq
        rw [State.verdict_fold_rejected hw (Nat.not_lt.1 hq)] at hv
        cases hv
      obtain ⟨hgmu, -⟩ := s.acceptFold_spec it.lgn q merged new
      rw [(State.propose_fold hw hq new).2]
      exact ⟨_, hgmu⟩
    | clean src =>
      have hsrc : (s.entryOf it.lgn).home = some src := by
        by_contra hsrc
        rw [State.verdict_copy_rejected hsrc (.inl hw)] at hv
        cases hv
      obtain ⟨hgmu, -⟩ := s.acceptCopy_spec it.lgn src new .clean
      rw [(State.propose_copy hsrc (.inl ⟨hw, rfl⟩) new).2]
      exact ⟨_, hgmu⟩
    | replace src =>
      have hsrc : (s.entryOf it.lgn).home = some src := by
        by_contra hsrc
        rw [State.verdict_copy_rejected hsrc (.inr hw)] at hv
        cases hv
      obtain ⟨hgmu, -⟩ := s.acceptCopy_spec it.lgn src new .replace
      rw [(State.propose_copy hsrc (.inr ⟨hw, rfl⟩) new).2]
      exact ⟨_, hgmu⟩

/-- What the placement keeps of the part as the home change left it. -/
theorem State.itemPlaced_frame (s : State) (n : Fin 9) (b w : Nat) (it : Item) :
    (s.itemPlaced n b w it).gmu = (s.propose it ⟨b, w⟩).gmu ∧ (s.itemPlaced n b w it).slu = (s.propose it ⟨b, w⟩).slu
      ∧ (s.itemPlaced n b w it).cle = (s.propose it ⟨b, w⟩).cle ∧ (s.itemPlaced n b w it).evu = (s.propose it ⟨b, w⟩).evu
      ∧ (s.itemPlaced n b w it).rqu = (s.propose it ⟨b, w⟩).rqu
      ∧ (s.itemPlaced n b w it).btu.zones = (s.propose it ⟨b, w⟩).btu.zones := by
  simp only [State.itemPlaced, State.moveFrontier, if_true]
  exact ⟨rfl, rfl, rfl, rfl, rfl, rfl⟩

/-- The placement of an item: the band's frontier behind its slot, the slot as the home change left it, the item exposed
(R21, R71, R77). -/
theorem State.itemPlaced_spec (h : (s.propose it ⟨b, w⟩).OpenTo b f) (hf : f ≤ 16 * (w + 1)) :
    (∃ bp, (s.propose it ⟨b, w⟩).band? b = some bp ∧ (s.itemPlaced n b w it).band? b = some { bp with
        frontier := 16 * (w + 1), slots := slotsAt bp.slots (w + 1) (some ((s.verdict it).slot it.lgn)) })
      ∧ (∀ k, k ≠ b → (s.itemPlaced n b w it).band? k = (s.propose it ⟨b, w⟩).band? k)
      ∧ (s.itemPlaced n b w it).geo = s.geo
      ∧ ((s.itemPlaced n b w it).stream n).exposed =
        ((s.stream n).exposed.filter fun x => staysExposed (s.geo b) (16 * (w + 1) / (s.geo b).spt) x.slot) ++
          [⟨w, it.lgn, it.content⟩] := by
  have hkeeps := (State.ProposeKeeps.homes s).propose ⟨rfl, rfl, rfl⟩ it ⟨b, w⟩
  obtain ⟨p, hp⟩ : ∃ p, p = s.propose it ⟨b, w⟩ := ⟨_, rfl⟩
  obtain ⟨v, hv⟩ : ∃ v, v = some ((s.verdict it).slot it.lgn) := ⟨_, rfl⟩
  obtain ⟨u, hu⟩ : ∃ u, u = p.frontierReport b (16 * (w + 1)) v := ⟨_, rfl⟩
  have hplaced : s.itemPlaced n b w it = (u.updStream n fun x =>
      x.release (u.geo b) (completedTracks (u.geo b).spt (16 * (w + 1)))).updStream n fun x =>
        { x with exposed := x.exposed ++ [⟨w, it.lgn, it.content⟩] } := by
    rw [hu, hv, hp]
    rfl
  rw [← hp] at h hkeeps ⊢
  obtain ⟨bp, hb, ho, hbf⟩ := h
  have hband (k : Nat) := p.band?_updBand b k fun bd => bd.frontierReport (16 * (w + 1)) v
  have hgeo : u.geo = s.geo := by
    rw [hu]
    exact congrArg bandGeo hkeeps.zones
  have hbehind : slotsBehind (16 * (w + 1)) = w + 1 := slotsBehind_mul (w + 1)
  have hstream : u.stream n = s.stream n := by
    rw [hu]
    exact State.stream_congr hkeeps.swr n
  rw [hplaced]
  refine ⟨⟨bp, hb, ?_⟩, fun k hk => ?_, ?_, ?_⟩
  · have := hband b
    rw [hb, Option.map_some, if_pos rfl, Band.frontierReport, if_pos ⟨ho, by omega⟩, hbehind, hv] at this
    rw [hu, hv]
    exact this
  · have := hband k
    rw [Option.map_congr fun x _ => if_neg (Ne.symm hk), Option.map_id'] at this
    rw [hu]
    exact this
  · exact hgeo
  · rw [State.stream_updStream, if_pos rfl, State.stream_updStream, if_pos rfl, hstream, hgeo]
    rfl

end

end Sys2Proof.Machine
end

section
namespace Sys2Proof.Machine

/-! ### The sixteenth sector of an item (R21, R53 to R58, R69 to R71, R77, R126) -/

section
variable {s : State} {n : Fin 9} {b w f : Nat} {it : Item}

/-- The verdict on an item in its slot, once it is placed: `slotsAt` reaches to the slot behind the frontier (R21). -/
theorem slot_slotsAt (slots : List Slot) (w : Nat) (v : Slot) : (slotsAt slots (w + 1) (some v))[w]? = some v := by
  unfold slotsAt
  dsimp only
  rw [Nat.add_sub_cancel]
  exact List.getElem?_set_self (by simp only [List.length_append, List.length_replicate]; omega)

theorem slotsAt_of_ne {slots : List Slot} {w k : Nat} {x v : Slot} (h : slots[k]? = some x) (hk : k ≠ w) :
    (slotsAt slots (w + 1) (some v))[k]? = some x := by
  unfold slotsAt
  dsimp only
  rw [Nat.add_sub_cancel, List.getElem?_set_ne (Ne.symm hk),
    List.getElem?_append_left (List.getElem?_eq_some_iff.1 h).1, h]

/-- The band and the exposed set as an item completes (R21, R71, R77). -/
theorem State.itemComplete_band (h : s.OpenTo b f) (hf : f ≤ 16 * (w + 1)) :
    (∃ bd', (s.itemComplete n b w it).band? b = some bd' ∧ bd'.frontier = 16 * (w + 1)
        ∧ bd'.slots[w]? = some ((s.verdict it).slot it.lgn))
      ∧ ((s.itemComplete n b w it).stream n).exposed = (if (s.geo b).cap ≤ w + 1 then [] else
        ((s.stream n).exposed.filter fun x => staysExposed (s.geo b) (16 * (w + 1) / (s.geo b).spt) x.slot) ++
          [⟨w, it.lgn, it.content⟩]) := by
  have hp := (State.OpenTo.homes b f).propose h it ⟨b, w⟩
  obtain ⟨⟨bp, -, hband⟩, -, hgeo, hexposed⟩ := State.itemPlaced_spec (n := n) hp hf
  obtain ⟨hkept, hset⟩ := (s.itemPlaced n b w it).itemSettled_keeps n b it (s.verdict it) s.recoveries
  rw [← State.itemComplete_eq] at hkept hset
  have hfr : (s.itemPlaced n b w it).frontier b = 16 * (w + 1) := by simp [State.frontier, hband]
  obtain ⟨bd', hb', hslots, hfr'⟩ := hkept.band hband
  refine ⟨⟨bd', hb', hfr', ?_⟩, ?_⟩
  · rw [hslots]
    exact slot_slotsAt ..
  · rw [hset, hfr, hgeo, hexposed]
    by_cases hcap : (s.geo b).cap ≤ w + 1
    · rw [if_pos hcap, if_pos (by omega)]
    · rw [if_neg hcap, if_neg (by omega)]

/-- A slot that is DEAD once the home change is proposed is DEAD to the end (R22). -/
theorem State.itemComplete_dead {src : Home} {st : BandState} (h : s.OpenTo b f) (hf : f ≤ 16 * (w + 1))
    (hd : (s.propose it ⟨b, w⟩).SlotDead src.band src.slot st) (hne : src ≠ ⟨b, w⟩) :
    ∃ bs', (s.itemComplete n b w it).band? src.band = some bs' ∧ bs'.slots[src.slot]? = some .dead := by
  have hp := (State.OpenTo.homes b f).propose h it ⟨b, w⟩
  obtain ⟨⟨bp, hbp, hband⟩, hother, -⟩ := State.itemPlaced_spec (n := n) hp hf
  obtain ⟨hkept, -⟩ := (s.itemPlaced n b w it).itemSettled_keeps n b it (s.verdict it) s.recoveries
  rw [← State.itemComplete_eq] at hkept
  obtain ⟨bs, hbs, hdead, -⟩ := hd
  by_cases hk : src.band = b
  · obtain rfl : bp = bs := by
      rw [hk, hbp] at hbs
      exact Option.some.inj hbs
    have hslot : src.slot ≠ w := fun hw => hne (by cases src; simp_all)
    obtain ⟨bs', hbs', hslots, -⟩ := hkept.band hband
    refine ⟨bs', hk ▸ hbs', ?_⟩
    rw [hslots]
    exact slotsAt_of_ne hdead hslot
  · obtain ⟨bs', hbs', hslots, -⟩ := hkept.band ((hother src.band hk).trans hbs)
    exact ⟨bs', hbs', by rw [hslots, hdead]⟩

/-- The watch windows and notices as the home change left them (R58, R181). -/
theorem State.itemComplete_watch (s : State) (n : Fin 9) (b w : Nat) (it : Item) :
    (s.itemComplete n b w it).evu.watchQueue = (s.propose it ⟨b, w⟩).evu.watchQueue
      ∧ (s.itemComplete n b w it).evu.windows = (s.propose it ⟨b, w⟩).evu.windows := by
  obtain ⟨hkept, -⟩ := (s.itemPlaced n b w it).itemSettled_keeps n b it (s.verdict it) s.recoveries
  obtain ⟨-, -, -, hevu, -⟩ := s.itemPlaced_frame n b w it
  rw [← State.itemComplete_eq] at hkept
  exact ⟨hkept.notices.trans (congrArg Evu.watchQueue hevu), hkept.windows.trans (congrArg Evu.windows hevu)⟩

theorem State.propose_overlayWait (h : s.slu.overlayWait = []) {q : Nat} {merged : List Nat} (hw : it.work = .fold q merged)
    (new : Home) : (s.propose it new).slu.overlayWait = [] := by
  by_cases hq : (s.entryOf it.lgn).base < q
  · obtain ⟨-, -, hwait, -⟩ := s.acceptFold_spec it.lgn q merged new
    rw [(State.propose_fold hw hq new).2, hwait, h]
  · rw [State.propose_rejected (State.verdict_fold_rejected hw (Nat.not_lt.1 hq)), h]

/-- A FOLD's end, no STORE waiting for an overlay, after its item is placed (R55, R106). -/
theorem State.itemComplete_fold (h : s.slu.overlayWait = []) {q : Nat} {merged : List Nat} (hw : it.work = .fold q merged) :
    (s.itemComplete n b w it).slu.fold = none
      ∧ (s.itemComplete n b w it).slu.dir = (s.propose it ⟨b, w⟩).slu.dir := by
  obtain ⟨-, hslu, -⟩ := s.itemPlaced_frame n b w it
  have hwait : (s.itemPlaced n b w it).slu.overlayWait = [] := by
    rw [hslu]
    exact State.propose_overlayWait h hw _
  obtain ⟨es, held, out, reqs, hfold⟩ := State.foldPlaced_eq hwait (s.verdict it)
  have hreport : (s.itemPlaced n b w it).reportItem it (s.verdict it) = (s.itemPlaced n b w it).foldPlaced (s.verdict it) := by
    simp [State.reportItem, hw]
  have hend := State.itemSettled_slu (n := n) (b := b) (rs := s.recoveries) (congrArg State.slu (hreport.trans hfold))
  rw [State.itemComplete_eq, hend]
  refine ⟨rfl, ?_⟩
  show (s.itemPlaced n b w it).slu.dir = _
  rw [hslu]

/-- The map as the home change left it, but for the STOREs that the end of a fold admits (R53 to R56, R90). -/
theorem State.itemComplete_gmu (h : (∀ q merged, it.work ≠ .fold q merged) ∨ s.slu.overlayWait = []) :
    (s.itemComplete n b w it).gmu = (s.propose it ⟨b, w⟩).gmu := by
  obtain ⟨hgmu, hslu, -⟩ := s.itemPlaced_frame n b w it
  rw [State.itemComplete_eq, ← hgmu]
  refine State.itemSettled_gmu ?_
  unfold State.reportItem
  split
  · exact (State.MapIs.base _).storeDone rfl _
  · next q merged hw =>
    have hwait : (s.itemPlaced n b w it).slu.overlayWait = [] := by
      rw [hslu]
      exact State.propose_overlayWait (h.resolve_left fun hall => hall q merged hw) hw _
    obtain ⟨es, held, out, reqs, hfold⟩ := State.foldPlaced_eq hwait (s.verdict it)
    rw [hfold]
  · exact (State.MapIs.cleaner _).copyPlaced rfl ..
  · rfl

/-- One decrease of the pacer for a granule placed in a band of a stream 0 to 7 (R70, R126). -/
theorem State.itemComplete_pacer (h : ∀ src, it.work ≠ .clean src) :
    (s.itemComplete n b w it).cle.pacer = if n = relocation then s.cle.pacer else s.cle.pacer.decrease .event := by
  have hkeeps := (State.ProposeKeeps.homes s).propose ⟨rfl, rfl, rfl⟩ it ⟨b, w⟩
  obtain ⟨-, -, hcle, -⟩ := s.itemPlaced_frame n b w it
  rw [State.itemComplete_eq, ← hkeeps.cle, ← hcle]
  refine State.itemSettled_pacer ?_
  unfold State.reportItem
  split
  · exact (State.CleanerIs.base _).storeDone rfl _
  · exact (State.CleanerIs.log _).foldPlaced rfl _
  · next src hw => exact absurd hw (h src)
  · rfl

/-- A STORE is replied DONE as its item completes (R70). -/
theorem State.itemComplete_store {tag p : Nat} {e : Entry} (hw : it.work = .store tag p) (he : s.entry? tag = some e)
    (hreqs : ∀ q ∈ s.slu.foldReqs, q.tag ≠ tag) :
    replyFrame e.code tag e.clamped .done e.storeFields ∈ (s.itemComplete n b w it).flu.outbound := by
  obtain ⟨-, -, -, -, hrqu, -⟩ := s.itemPlaced_frame n b w it
  obtain ⟨-, -, hentry⟩ := s.proposeStore_spec it.lgn p ⟨b, w⟩
  have he' : (s.itemPlaced n b w it).entry? tag = some e := by
    rw [State.entry?, hrqu, (State.propose_store hw ⟨b, w⟩).2]
    exact (hentry tag hreqs).trans he
  have hreport : (s.itemPlaced n b w it).reportItem it (s.verdict it) =
      (s.itemPlaced n b w it).finish tag .done e.storeFields := by
    simp [State.reportItem, hw, State.storeDone, he']
  obtain ⟨hlast, -⟩ := State.finish_of_entry he' .done e.storeFields
  rw [State.itemComplete_eq]
  refine State.itemSettled_outbound ?_
  rw [hreport]
  exact List.mem_of_getLast? hlast

end

end Sys2Proof.Machine
end

section
namespace Sys2Proof.Machine

section
variable {s : State} {n : Fin 9} {o : MediaOp} {it : Item} {rest : List Item} {b w : Nat} {bd : Band}

/-- The sixteenth sector of an item: the operation ends, and the item completes (R70, R152). -/
theorem exec_item_completes (h : s.completesItem n o it rest b w bd) :
    exec (.finished s.mpt.order.number 0 0 0) s =
      .next ((s.withPort { s.mpt with stage := .idle, op := none, failures := 0, causes := 0 }).itemComplete n b w it) := by
  obtain ⟨hstage, hop, ho, hw, hopen, hwriting, hfifo, hb, -, hcount⟩ := h
  obtain ⟨u, hu⟩ : ∃ u, u = s.withPort { s.mpt with stage := .idle, op := none, failures := 0, causes := 0 } := ⟨_, rfl⟩
  obtain ⟨k, hexec⟩ := exec_finished_complete hop (.inl hstage) 0 0
  have hreport := State.reportOutcome_write (s := u) (n := n) (o := { o with defers := k, sectorsDone := o.count }) ho hw
    .complete
  have hadvance : u.runAdvanced n o.count = u.itemComplete n b w it := by
    have hopen' : (u.stream n).openBand = some b := hu ▸ hopen
    have hwriting' : (u.stream n).writing = some w := hu ▸ hwriting
    have hfifo' : (u.stream n).fifo = it :: rest := hu ▸ hfifo
    have hfr : u.frontier b = bd.frontier := by
      have hb' : u.band? b = some bd := hu ▸ hb
      simp [State.frontier, hb']
    simp only [State.runAdvanced, hopen', hwriting', hfifo', hfr, hcount, Nat.le_refl, if_true]
  rw [hexec, ← hu, hreport]
  exact congrArg _ hadvance

theorem Pacer.decrease_event {p : Pacer} (hr : p.running = true) (hm : p.mode = .event) :
    (1 < p.count → p.decrease .event = { p with count := p.count - 1 })
      ∧ (p.count = 1 → p.decrease .event = { p with count := p.reload, credits := min (p.credits + 1) 8 }) := by
  have hdec : p.decrease .event = p.countDown := if_pos ⟨hr, hm⟩
  rw [hdec]
  refine ⟨fun h => if_neg (by omega), fun h => if_pos (by omega)⟩

theorem Pacer.decrease_event_of_not {p : Pacer} (h : p.running = false ∨ p.mode = .time) : p.decrease .event = p :=
  if_neg fun hx => by rcases h with h | h <;> simp [h] at hx

/-- The map entries after a home change, the GMU having one entry replaced or none (R42). -/
theorem State.itemComplete_entries {t : State} (hmap : s.MapCanonical)
    (h : t.gmu = (s.propose it ⟨b, w⟩).gmu) (k : Nat) (hk : k ≠ it.lgn) : t.entryOf k = s.entryOf k := by
  obtain hsame | ⟨e, he⟩ := s.propose_gmu it ⟨b, w⟩
  · exact State.entryOf_congr (h.trans hsame) k
  · exact (State.entryOf_tablePut hmap (h.trans he)).2 k hk

end

/-- Settles O21: one lemma per part of the state that an item's completion changes. -/
theorem item_completion_result : Obligations.Item_completion_result := by
  intro s n o it rest b w bd hs hmap hc
  have hexec := exec_item_completes hc
  obtain ⟨-, -, -, -, -, -, -, hb, hst, hcount⟩ := hc
  obtain ⟨u, hu⟩ : ∃ u, u = s.withPort { s.mpt with stage := .idle, op := none, failures := 0, causes := 0 } := ⟨_, rfl⟩
  rw [← hu] at hexec
  have hopenTo : u.OpenTo b bd.frontier := ⟨bd, hu ▸ hb, hst, rfl⟩
  have hle : bd.frontier ≤ 16 * (w + 1) := by omega
  have hmapu : u.MapCanonical := hu ▸ hmap
  have hentry (k : Nat) : u.entryOf k = s.entryOf k := by rw [hu]; rfl
  have hevu : u.evu = s.evu := by rw [hu]; rfl
  obtain ⟨⟨bd', hband, hfr, hslot⟩, hexposed⟩ := State.itemComplete_band (n := n) (it := it) hopenTo hle
  have hwatch := u.itemComplete_watch n b w it
  refine ⟨u.itemComplete n b w it, bd', hexec, hband, hfr, ?_, fun hno k hk => ?_, fun hclean => ⟨fun hnone => ?_, fun hn hr hm => ?_⟩,
    fun cause hcause => ?_, fun tag p e hw he hreqs => ?_, fun q merged left hw hwait hleft => ?_, fun src hw => ⟨fun hh => ?_,
      fun hh => ?_⟩⟩
  · rw [hexposed, hu]
    rfl
  · rw [← hentry k]
    refine State.itemComplete_entries hmapu (State.itemComplete_gmu ?_) k hk
    rw [hu]
    exact hno
  · have hpacer := State.itemComplete_pacer (s := u) (n := n) (b := b) (w := w) hclean
    rw [hpacer, hu]
    obtain rfl | hnone := hnone
    · exact if_pos rfl
    · show (if n = relocation then s.cle.pacer else s.cle.pacer.decrease .event) = s.cle.pacer
      rw [Pacer.decrease_event_of_not hnone, ite_self]
  · have hpacer := State.itemComplete_pacer (s := u) (n := n) (b := b) (w := w) hclean
    rw [if_neg hn, hu] at hpacer
    obtain ⟨hmore, hone⟩ := Pacer.decrease_event hr hm
    rw [hu]
    exact ⟨fun h => hpacer.trans (hmore h), fun h => hpacer.trans (hone h)⟩
  · have hchange : (u.propose it ⟨b, w⟩).evu =
        (s.homeChange it.lgn cause (s.entryOf it.lgn).home (some ⟨b, w⟩)).evu := by
      rw [← State.homeChange_evu hevu, ← hentry]
      rcases hcause with ⟨tag, p, hw, rfl⟩ | ⟨q, merged, hw, hq, rfl⟩ | ⟨src, hh, hw⟩
      · obtain ⟨-, hevu', -⟩ := u.proposeStore_spec it.lgn p ⟨b, w⟩
        rw [(State.propose_store hw ⟨b, w⟩).2, hevu']
      · obtain ⟨-, hevu', -⟩ := u.acceptFold_spec it.lgn q merged ⟨b, w⟩
        rw [(State.propose_fold hw (by rw [hentry]; exact hq) ⟨b, w⟩).2, hevu']
      · obtain ⟨-, hevu', -⟩ := u.acceptCopy_spec it.lgn src ⟨b, w⟩ cause
        rw [← hentry] at hh
        rw [(State.propose_copy hh hw ⟨b, w⟩).2, hevu', hh]
    rw [← hchange]
    exact hwatch
  · obtain ⟨hgmu, -, -⟩ := u.proposeStore_spec it.lgn p ⟨b, w⟩
    obtain ⟨hv, hprop⟩ := State.propose_store (s := u) hw ⟨b, w⟩
    have hall := State.itemComplete_gmu (s := u) (n := n) (b := b) (w := w) (it := it) (.inl fun q m h => by simp [hw] at h)
    rw [hprop, hgmu] at hall
    refine ⟨(State.entryOf_tablePut hmapu hall).1, ?_, ?_⟩
    · rw [hslot, hv]
      rfl
    · exact State.itemComplete_store hw (by rw [hu]; exact he) (by rw [hu]; exact hreqs)
  · have hwait' : u.slu.overlayWait = [] := by rw [hu]; exact hwait
    obtain ⟨hfold, hdir⟩ := State.itemComplete_fold (s := u) (n := n) (b := b) (w := w) hwait' hw
    have hall := State.itemComplete_gmu (s := u) (n := n) (b := b) (w := w) (it := it) (.inr hwait')
    refine ⟨hfold, fun hq => ?_, fun hq => ?_⟩
    · rw [← hentry] at hq
      obtain ⟨hv, hprop⟩ := State.propose_fold hw hq ⟨b, w⟩
      obtain ⟨hgmu, -, -, hdead⟩ := u.acceptFold_spec it.lgn q merged ⟨b, w⟩
      rw [hprop, hgmu] at hall
      refine ⟨?_, ?_, ?_⟩
      · rw [(State.entryOf_tablePut hmapu hall).1, hleft, hu]
        rfl
      · rw [hslot, hv]
        rfl
      · rw [hdir, hprop]
        exact hdead
    · rw [← hentry] at hq
      have hv := State.verdict_fold_rejected hw hq
      rw [State.propose_rejected hv] at hall hdir
      refine ⟨?_, ?_, ?_⟩
      · rw [State.entryOf_congr hall, hentry]
      · rw [hslot, hv]
        rfl
      · rw [hdir, hu]
        rfl
  · have hall := State.itemComplete_gmu (s := u) (n := n) (b := b) (w := w) (it := it)
      (.inl fun q m h => by rcases hw with hw | hw <;> simp [hw] at h)
    rw [← hentry] at hh
    obtain ⟨cause, hcause⟩ : ∃ cause, it.work = .clean src ∧ cause = HomeCause.clean
        ∨ it.work = .replace src ∧ cause = HomeCause.replace := by
      rcases hw with hw | hw
      · exact ⟨_, .inl ⟨hw, rfl⟩⟩
      · exact ⟨_, .inr ⟨hw, rfl⟩⟩
    obtain ⟨hv, hprop⟩ := State.propose_copy hh hcause ⟨b, w⟩
    obtain ⟨hgmu, -, hbtu⟩ := u.acceptCopy_spec it.lgn src ⟨b, w⟩ cause
    rw [hprop, hgmu] at hall
    refine ⟨?_, ?_, fun bs l hbs hstate hlive hne => ?_⟩
    · rw [(State.entryOf_tablePut hmapu hall).1, hentry]
    · rw [hslot, hv]
      rfl
    · have hstands : u.SlotStands src.band src.slot bs.state :=
        ⟨bs, by rw [hu]; exact hbs, rfl, Band.takesReports_iff.2 hstate, .inl ⟨l, hlive⟩⟩
      obtain ⟨bx, hbx, hdx, hsx⟩ := State.supersede_self hstands
      refine State.itemComplete_dead hopenTo hle (st := bs.state) ⟨bx, ?_, hdx, hsx⟩ hne
      rw [hprop]
      exact (State.band?_congr (congrArg Btu.bands hbtu) src.band).trans hbx
  · have hall := State.itemComplete_gmu (s := u) (n := n) (b := b) (w := w) (it := it)
      (.inl fun q m h => by rcases hw with hw | hw <;> simp [hw] at h)
    rw [← hentry] at hh
    have hv := State.verdict_copy_rejected hh hw
    rw [State.propose_rejected hv] at hall
    refine ⟨?_, ?_⟩
    · rw [State.entryOf_congr hall, hentry]
    · rw [hslot, hv]
      rfl

end Sys2Proof.Machine
end

section
namespace Sys2Proof.Machine

/-! ### Operations that end ABORTED (R37, R74, R96, R160) -/

/-- What operations that end ABORTED can change: bands' readers, frontiers and closes, the records' readers and the head
of the log, and of a stream its exposed set, its open band, which may end, and its item being written, which may end. -/
structure State.RunsAborted (s t : State) : Prop where
  parts : ∃ bs c l w, t = { s with btu := { s.btu with bands := bs, closeOrder := c }, slu := l, swr := w }
    ∧ bs.length = s.btu.bands.length
  records : (t.slu.dir.map fun r => (r.pos, r.state)).Sublist (s.slu.dir.map fun r => (r.pos, r.state))
  streams : ∀ m, ∃ e b w, t.stream m = { s.stream m with exposed := e, openBand := b, writing := w }
    ∧ (b = (s.stream m).openBand ∨ b = none) ∧ (w = (s.stream m).writing ∨ w = none)

namespace State.RunsAborted
variable {s t u : State}

theorem refl (s : State) : s.RunsAborted s :=
  ⟨⟨_, _, _, _, rfl, rfl⟩, List.Sublist.refl _, fun _ => ⟨_, _, _, rfl, .inl rfl, .inl rfl⟩⟩

theorem trans (h : s.RunsAborted t) (k : t.RunsAborted u) : s.RunsAborted u := by
  obtain ⟨bs, c, l, w, ht, hlen⟩ := h.parts
  obtain ⟨bs', c', l', w', hu, hlen'⟩ := k.parts
  refine ⟨⟨bs', c', l', w', by rw [hu, ht], hlen'.trans (by rw [ht]; exact hlen)⟩, k.records.trans h.records, fun m => ?_⟩
  obtain ⟨e, b, w, hm, hb, hw⟩ := h.streams m
  obtain ⟨e', b', w', hm', hb', hw'⟩ := k.streams m
  rw [hm] at hm' hb' hw'
  refine ⟨e', b', w', hm', ?_, ?_⟩
  · rcases hb' with rfl | rfl
    · exact hb
    · exact .inr rfl
  · rcases hw' with rfl | rfl
    · exact hw
    · exact .inr rfl

theorem updBand (s : State) (b : Nat) (f : Band → Band) : s.RunsAborted (s.updBand b f) :=
  ⟨⟨_, _, _, _, rfl, List.length_modify ..⟩, List.Sublist.refl _, fun _ => ⟨_, _, _, rfl, .inl rfl, .inl rfl⟩⟩

theorem updStream (s : State) (n : Fin 9) {f : Stream → Stream}
    (hf : ∃ e b w, f (s.stream n) = { s.stream n with exposed := e, openBand := b, writing := w }
      ∧ (b = (s.stream n).openBand ∨ b = none) ∧ (w = (s.stream n).writing ∨ w = none)) :
    s.RunsAborted (s.updStream n f) := by
  refine ⟨⟨_, _, _, _, rfl, rfl⟩, List.Sublist.refl _, fun m => ?_⟩
  rw [State.stream_updStream]
  split
  · next hm =>
    rw [hm]
    exact hf
  · exact ⟨_, _, _, rfl, .inl rfl, .inl rfl⟩

theorem recordReadEnd (s : State) (p : Nat) : s.RunsAborted (s.recordReadEnd p) := by
  refine ⟨⟨_, _, _, _, rfl, rfl⟩, ?_, fun _ => ⟨_, _, _, rfl, .inl rfl, .inl rfl⟩⟩
  have hdir : (s.recordReadEnd p).slu.dir =
      keepFrom (s.updRecord p fun r => { r with readers := r.readers - 1 }).slu.dir := by
    obtain ⟨hdir, -⟩ := (s.updRecord p fun r => { r with readers := r.readers - 1 }).slu.advance_frame
    exact hdir
  have hsame : (s.updRecord p fun r => { r with readers := r.readers - 1 }).slu.dir.map (fun r => (r.pos, r.state)) =
      s.slu.dir.map fun r => (r.pos, r.state) := by
    show (s.slu.dir.map _).map _ = _
    rw [List.map_map]
    refine List.map_congr_left fun r _ => ?_
    dsimp only [Function.comp]
    split <;> rfl
  rw [hdir, ← hsame]
  exact ((List.dropWhile_suffix _).sublist).map _

theorem endReaders (s : State) (o : MediaOp) : s.RunsAborted (s.endReaders o) := by
  unfold State.endReaders
  dsimp only
  cases o.bandRead with
  | none =>
    cases o.recordRead with
    | none => exact refl s
    | some p => exact recordReadEnd s p
  | some b =>
    cases o.recordRead with
    | none => exact updBand s b _
    | some p => exact (updBand s b _).trans (recordReadEnd _ p)

theorem closeBand (s : State) (b : Nat) (why : CloseReason) : s.RunsAborted (s.closeBand b why) := by
  unfold State.closeBand
  split
  · split
    · exact ⟨⟨_, _, _, _, rfl, List.length_modify ..⟩, List.Sublist.refl _, fun _ => ⟨_, _, _, rfl, .inl rfl, .inl rfl⟩⟩
    · exact refl s
  · exact refl s

theorem moveFrontier (s : State) (n : Fin 9) (b f : Nat) (v : Option Slot) :
    s.RunsAborted (s.moveFrontier n b f v true) := by
  unfold State.moveFrontier
  rw [if_pos rfl]
  exact (updBand s b _).trans (updStream _ n ⟨_, _, _, rfl, .inl rfl, .inl rfl⟩)

theorem capacityClose (s : State) (n : Fin 9) (b : Nat) : s.RunsAborted (s.capacityClose n b) := by
  unfold State.capacityClose
  split
  · exact (updStream s n ⟨_, _, _, rfl, .inr rfl, .inl rfl⟩).trans (closeBand ..)
  · exact refl s

theorem abortRound (s : State) (n : Fin 9) (d : Nat) : s.RunsAborted (s.abortRound n d) := by
  unfold State.abortRound
  dsimp only
  split
  · refine trans ?_ (updStream _ n ⟨_, _, _, rfl, .inl rfl, .inr rfl⟩)
    split
    · exact refl s
    · exact (moveFrontier s n _ _ _).trans ((moveFrontier _ n _ _ _).trans (capacityClose ..))
  · exact refl s

end State.RunsAborted

section
variable {s : State} {o : MediaOp} {n : Fin 9}

theorem State.reportAborted_stream (h : o.origin = .stream n) :
    s.reportOutcome o .aborted = (s.endReaders o).abortRound n o.sectorsDone := by
  simp [State.reportOutcome, State.ownerOutcome, h, State.streamOutcome]

/-- Only a stream's run does more, as it ends ABORTED, than end its readers (R74, R160). -/
theorem State.reportAborted_of_ne (h : ∀ n, o.origin ≠ .stream n) : s.reportOutcome o .aborted = s.endReaders o := by
  have hout : Outcome.aborted ≠ .stopped := nofun
  rw [State.reportOutcome, if_neg hout]
  unfold State.ownerOutcome
  split
  · unfold State.fetchOutcome; split <;> simp_all
  · unfold State.fetchOutcome; split <;> simp_all
  · exact absurd ‹_› (h _)
  · rfl
  · unfold State.foldRecordOutcome; split <;> simp_all
  · unfold State.foldHomeOutcome; split <;> simp_all
  · rfl
  · unfold State.qualOutcome
    split
    · split <;> rfl
    · rfl

theorem State.RunsAborted.report (s : State) (o : MediaOp) : s.RunsAborted (s.reportOutcome o .aborted) := by
  by_cases h : ∃ n, o.origin = .stream n
  · obtain ⟨n, h⟩ := h
    rw [State.reportAborted_stream h]
    exact (State.RunsAborted.endReaders s o).trans (State.RunsAborted.abortRound ..)
  · rw [State.reportAborted_of_ne fun n hn => h ⟨n, hn⟩]
    exact State.RunsAborted.endReaders s o

theorem State.reportAll_cons (s : State) (o : MediaOp) (os : List MediaOp) (out : Outcome) :
    s.reportAll (o :: os) out = (s.reportOutcome o out).reportAll os out := rfl

theorem State.reportAll_append (s : State) (os os' : List MediaOp) (out : Outcome) :
    s.reportAll (os ++ os') out = (s.reportAll os out).reportAll os' out := List.foldl_append ..

theorem State.RunsAborted.reportAll (s : State) (os : List MediaOp) : s.RunsAborted (s.reportAll os .aborted) := by
  induction os generalizing s with
  | nil => exact .refl s
  | cons o os ih => exact (State.RunsAborted.report s o).trans (ih _)

end

end Sys2Proof.Machine
end

section
namespace Sys2Proof.Machine

/-! ### Bands and streams as operations end ABORTED (R37, R74) -/

/-- A band record once `k` reads of it have ended (R37). -/
def Band.readsEnded (bd : Band) (k : Nat) : Band := { bd with readers := bd.readers - if bd.takesReports then k else 0 }

theorem Band.readsEnded_zero (bd : Band) : bd.readsEnded 0 = bd := by
  unfold Band.readsEnded
  rw [ite_self]
  rfl

theorem Band.readsEnded_readsEnded (bd : Band) (j k : Nat) : (bd.readsEnded j).readsEnded k = bd.readsEnded (j + k) := by
  have htakes : (bd.readsEnded j).takesReports = bd.takesReports := rfl
  unfold Band.readsEnded at htakes ⊢
  rw [htakes]
  cases bd.takesReports
  · rfl
  · simp [Nat.sub_sub]

section
variable {s : State} {n : Fin 9} {b k : Nat} {bd : Band}

theorem State.band?_endReaders (hb : s.band? b = some bd) (o : MediaOp) :
    (s.endReaders o).band? b = some (bd.readsEnded (if o.bandRead = some b then 1 else 0)) := by
  have hend : (s.endReaders o).band? b = (o.bandRead.elim s s.readEnd).band? b := by
    unfold State.endReaders
    dsimp only
    cases o.bandRead <;> cases o.recordRead <;> rfl
  rw [hend]
  cases ho : o.bandRead with
  | none => rw [if_neg nofun, Band.readsEnded_zero]; exact hb
  | some k =>
    have hread := s.band?_updBand k b fun bd => if bd.takesReports then { bd with readers := bd.readers - 1 } else bd
    rw [hb, Option.map_some] at hread
    refine hread.trans (congrArg some ?_)
    by_cases hk : k = b
    · rw [if_pos hk, if_pos (congrArg some hk), Band.readsEnded]
      cases bd.takesReports <;> rfl
    · rw [if_neg hk, if_neg (by simpa using hk), Band.readsEnded_zero]

theorem State.stream_endReaders (s : State) (o : MediaOp) (m : Fin 9) : (s.endReaders o).stream m = s.stream m := by
  unfold State.endReaders
  dsimp only
  cases o.bandRead <;> cases o.recordRead <;> rfl

theorem State.band?_moveFrontier (s : State) (n : Fin 9) (b f : Nat) (v : Option Slot) (release : Bool) (k : Nat) :
    (s.moveFrontier n b f v release).band? k = (s.band? k).map fun x => if b = k then x.frontierReport f v else x := by
  have := s.band?_updBand b k fun x => x.frontierReport f v
  unfold State.moveFrontier
  dsimp only
  split <;> exact this

/-- A frontier report to a band that is not OPEN, or to another band, leaves a band as it was (R21). -/
theorem State.moveFrontier_other (hb : s.band? k = some bd) (h : b ≠ k ∨ bd.state ≠ .opened) (f : Nat) (v : Option Slot)
    (release : Bool) : (s.moveFrontier n b f v release).band? k = some bd := by
  rw [State.band?_moveFrontier, hb, Option.map_some]
  rcases h with h | h
  · rw [if_neg h]
  · have hsame : bd.frontierReport f v = bd := if_neg fun hx => h hx.1
    rw [hsame, ite_self]

theorem State.capacityClose_other (hb : s.band? k = some bd) (h : b ≠ k ∨ bd.state ≠ .opened) :
    (s.capacityClose n b).band? k = some bd := by
  unfold State.capacityClose
  split
  · have hb' : (s.updStream n fun x => { x with exposed := [], openBand := none }).band? k = some bd := hb
    generalize (s.updStream n fun x => { x with exposed := [], openBand := none }) = u at hb'
    unfold State.closeBand
    split
    · next bx hbx =>
      split
      · next ho =>
        have hne : b ≠ k := by
          rcases h with h | h
          · exact h
          · rintro rfl
            obtain rfl := Option.some.inj (hbx.symm.trans hb')
            exact absurd ho h
        have := u.band?_updBand b k fun bd => bd.closedFor u.btu.closeOrder .capacity
        rw [hb', Option.map_some, if_neg hne] at this
        exact this
      · exact hb'
    · exact hb'
  · exact hb

theorem State.abortRound_other (hb : s.band? k = some bd) (h : (s.stream n).openBand ≠ some k ∨ bd.state ≠ .opened)
    (d : Nat) : (s.abortRound n d).band? k = some bd := by
  unfold State.abortRound
  dsimp only
  split
  · next b w hopen hwrite =>
    have hother : b ≠ k ∨ bd.state ≠ .opened := h.imp_left fun h hbk => h (hopen.trans (congrArg some hbk))
    show (if _ then s else _ : State).band? k = some bd
    split
    · exact hb
    · exact State.capacityClose_other (State.moveFrontier_other (State.moveFrontier_other hb hother _ _ _) hother _ _ _) hother
  · exact hb

/-- The end of a run by an abort, the slot and the band named (R74). -/
theorem State.abortRound_eq {w : Nat} (ho : (s.stream n).openBand = some b) (hw : (s.stream n).writing = some w) (d : Nat) :
    s.abortRound n d = (if s.frontier b - 16 * w + d = 0 then s
      else ((s.moveFrontier n b (16 * w + min (s.frontier b - 16 * w + d) 15) none true).moveFrontier n b (16 * (w + 1)) none
        true).capacityClose n b).updStream n fun x => { x with writing := none } := by
  simp only [State.abortRound, ho, hw]

/-- A stream's abort touches its own record alone (R74). -/
theorem State.stream_abortRound_of_ne {m : Fin 9} (hm : m ≠ n) (d : Nat) : (s.abortRound n d).stream m = s.stream m := by
  have hupd (u : State) (f : Stream → Stream) : (u.updStream n f).stream m = u.stream m := by
    rw [State.stream_updStream, if_neg hm]
  have hmove (u : State) (b f : Nat) : (u.moveFrontier n b f none true).stream m = u.stream m := by
    unfold State.moveFrontier
    rw [if_pos rfl, hupd]
    rfl
  have hcap (u : State) (b : Nat) : (u.capacityClose n b).stream m = u.stream m := by
    unfold State.capacityClose
    split
    · rw [State.stream_congr (s := u.updStream n fun x => { x with exposed := [], openBand := none }), hupd]
      unfold State.closeBand
      split
      · split <;> rfl
      · rfl
    · rfl
  unfold State.abortRound
  dsimp only
  split
  · rw [hupd]
    split
    · rfl
    · rw [hcap, hmove, hmove]
  · rfl

/-- Operations of other streams leave a stream as it was. -/
theorem State.stream_reportAborted_of_ne {os : List MediaOp} (h : ∀ o ∈ os, o.origin ≠ .stream n) :
    (s.reportAll os .aborted).stream n = s.stream n := by
  induction os generalizing s with
  | nil => rfl
  | cons o os ih =>
    rw [State.reportAll_cons, ih fun x hx => h x (List.mem_cons_of_mem o hx)]
    by_cases ho : ∃ m, o.origin = .stream m
    · obtain ⟨m, ho⟩ := ho
      have hm : n ≠ m := by
        rintro rfl
        exact h o List.mem_cons_self ho
      rw [State.reportAborted_stream ho, State.stream_abortRound_of_ne hm, State.stream_endReaders]
    · rw [State.reportAborted_of_ne fun m hm => ho ⟨m, hm⟩, State.stream_endReaders]

/-- A band that is not OPEN, or whose stream's run is not among the operations, loses their readers alone (R37). -/
theorem State.band?_reportAborted {os : List MediaOp} (hb : s.band? k = some bd)
    (h : bd.state ≠ .opened ∨ ∀ o ∈ os, ∀ m, o.origin = .stream m → (s.stream m).openBand ≠ some k) :
    (s.reportAll os .aborted).band? k = some (bd.readsEnded (os.countP fun o => decide (o.bandRead = some k))) := by
  induction os generalizing s bd with
  | nil => rw [List.countP_nil, Band.readsEnded_zero]; exact hb
  | cons o os ih =>
    have hfirst : (s.reportOutcome o .aborted).band? k =
        some (bd.readsEnded (if o.bandRead = some k then 1 else 0)) := by
      have hend := State.band?_endReaders hb o
      by_cases ho : ∃ m, o.origin = .stream m
      · obtain ⟨m, ho⟩ := ho
        rw [State.reportAborted_stream ho]
        refine State.abortRound_other hend ?_ _
        rw [State.stream_endReaders]
        rcases h with h | h
        · exact .inr h
        · exact .inl (h o List.mem_cons_self m ho)
      · rw [State.reportAborted_of_ne fun m hm => ho ⟨m, hm⟩]
        exact hend
    have hkeep : ∀ m, (s.stream m).openBand ≠ some k → ((s.reportOutcome o .aborted).stream m).openBand ≠ some k := by
      intro m hm
      obtain ⟨e, b', w', hst, hb', -⟩ := (State.RunsAborted.report s o).streams m
      rw [hst]
      rcases hb' with rfl | rfl
      · exact hm
      · exact nofun
    rw [State.reportAll_cons, ih hfirst (h.imp_right fun h x hx m hxm => hkeep m (h x (List.mem_cons_of_mem o hx) m hxm)),
      Band.readsEnded_readsEnded, List.countP_cons, Nat.add_comm]
    simp

/-- A stream's item is written no more once its run is aborted, if it had an open band (R74, R83). -/
theorem State.writing_reportAborted {os : List MediaOp} (h : (s.stream n).writing = none
      ∨ (s.stream n).openBand ≠ none ∧ ∃ o ∈ os, o.origin = .stream n) :
    ((s.reportAll os .aborted).stream n).writing = none := by
  have hnone {t u : State} (ht : t.RunsAborted u) (hw : (t.stream n).writing = none) : (u.stream n).writing = none := by
    obtain ⟨e, b, w, hst, -, hw'⟩ := ht.streams n
    rw [hst]
    rcases hw' with rfl | rfl
    · exact hw
    · rfl
  induction os generalizing s with
  | nil => exact h.resolve_right fun ⟨_, o, ho, _⟩ => nomatch ho
  | cons o os ih =>
    rw [State.reportAll_cons]
    by_cases hw : (s.stream n).writing = none
    · exact ih (.inl (hnone (State.RunsAborted.report s o) hw))
    obtain ⟨hopen, x, hx, hxn⟩ := h.resolve_left hw
    by_cases ho : o.origin = .stream n
    · refine ih (.inl ?_)
      rw [State.reportAborted_stream ho]
      obtain ⟨b, hb⟩ := Option.ne_none_iff_exists'.1 hopen
      obtain ⟨w, hw⟩ := Option.ne_none_iff_exists'.1 hw
      rw [State.abortRound_eq (b := b) (w := w) (by rw [State.stream_endReaders, hb]) (by rw [State.stream_endReaders, hw]),
        State.stream_updStream, if_pos rfl]
    · have hsame : (s.reportOutcome o .aborted).stream n = s.stream n :=
        State.stream_reportAborted_of_ne (os := [o]) (by simpa using ho)
      refine ih (.inr ?_)
      rw [hsame]
      exact ⟨hopen, x, (List.mem_cons.1 hx).resolve_left fun hxo => ho (hxo ▸ hxn), hxn⟩

end

end Sys2Proof.Machine
end

section
namespace Sys2Proof.Machine

/-! ### A stream's run as it ends ABORTED (R71, R74) -/

/-- A slot touched and not finished is TORN (R21, R74). -/
theorem slotsAt_torn {slots : List Slot} {w : Nat} (hlo : w ≤ slots.length) (hhi : slots.length ≤ w + 1)
    (ht : ∀ x, slots[w]? = some x → x = .torn) : slotsAt slots (w + 1) none = slots.take w ++ [.torn] := by
  show slots ++ List.replicate (w + 1 - slots.length) Slot.torn = _
  by_cases h : slots.length = w
  · rw [List.take_of_length_le h.le, h, Nat.add_sub_cancel_left]
    rfl
  · have hlen : slots.length = w + 1 := by omega
    have hlast : slots[w] = .torn := ht _ (List.getElem?_eq_getElem (by omega))
    rw [hlen, Nat.sub_self, List.replicate_zero, List.append_nil, ← hlast, List.take_append_getElem,
      List.take_of_length_le hlen.le]

theorem slotsAt_slotsAt_none (slots : List Slot) {m : Nat} (h : slots.length ≤ m) :
    slotsAt (slotsAt slots m none) m none = slotsAt slots m none := by
  have hlen : (slotsAt slots m none).length = m := slotsAt_length h none
  show slotsAt slots m none ++ List.replicate (m - (slotsAt slots m none).length) Slot.torn = _
  rw [hlen, Nat.sub_self, List.replicate_zero, List.append_nil]

/-- A release at a later track takes what an earlier one took (R71). -/
theorem filter_staysExposed (g : BandGeo) {j k : Nat} (h : j ≤ k) (l : List Exposed) :
    ((l.filter fun x => staysExposed g j x.slot).filter fun x => staysExposed g k x.slot) =
      l.filter fun x => staysExposed g k x.slot := by
  rw [List.filter_filter]
  refine List.filter_congr fun x _ => ?_
  by_cases hk : staysExposed g k x.slot = true
  · have hj : staysExposed g j x.slot = true := by
      simp only [staysExposed, decide_eq_true_eq] at hk ⊢
      omega
    rw [hk, hj]
    rfl
  · rw [Bool.eq_false_iff.2 hk]
    rfl

section
variable {s : State} {n : Fin 9} {b w : Nat} {bd : Band}

theorem State.geo_moveFrontier (s : State) (n : Fin 9) (b f : Nat) (v : Option Slot) :
    (s.moveFrontier n b f v true).geo = s.geo := by
  unfold State.moveFrontier
  rw [if_pos rfl]
  rfl

theorem State.stream_moveFrontier (s : State) (n : Fin 9) (b f : Nat) (v : Option Slot) :
    (s.moveFrontier n b f v true).stream n = (s.stream n).release (s.geo b) (f / (s.geo b).spt) := by
  unfold State.moveFrontier
  rw [if_pos rfl, State.stream_updStream, if_pos rfl]
  rfl

/-- A band that is not full stays open (R71). -/
theorem State.capacityClose_open (h : s.frontier b < 16 * (s.geo b).cap) : s.capacityClose n b = s :=
  if_neg (Nat.not_le.2 h)

/-- A full band is closed for CAPACITY, its exposed set released whole (R71, R77). -/
theorem State.capacityClose_full (hb : s.band? b = some bd) (ho : bd.state = .opened)
    (h : 16 * (s.geo b).cap ≤ s.frontier b) :
    (s.capacityClose n b).band? b = some (bd.closedFor s.btu.closeOrder .capacity)
      ∧ ((s.capacityClose n b).stream n).exposed = [] := by
  obtain ⟨u, hu⟩ : ∃ u, u = s.updStream n fun x => { x with exposed := [], openBand := none } := ⟨_, rfl⟩
  have hub : u.band? b = some bd := hu ▸ hb
  have hclose : s.capacityClose n b = u.closeBand b .capacity := by
    rw [hu]
    exact if_pos h
  have horder : u.btu.closeOrder = s.btu.closeOrder := by rw [hu]; rfl
  have hband := u.band?_updBand b b fun x => x.closedFor u.btu.closeOrder .capacity
  rw [hub, Option.map_some, if_pos rfl] at hband
  rw [hclose, State.closeBand_eq hub ho, ← horder]
  refine ⟨hband, ?_⟩
  show (u.stream n).exposed = []
  rw [hu, State.stream_updStream, if_pos rfl]

/-- A run aborted with nothing of its slot written (R74). -/
theorem State.abortRound_untouched (ho : (s.stream n).openBand = some b) (hw : (s.stream n).writing = some w) {d : Nat}
    (hb : s.band? b = some bd) (hle : 16 * w ≤ bd.frontier) (h : bd.frontier + d = 16 * w) :
    (s.abortRound n d).band? b = some bd ∧ ((s.abortRound n d).stream n).openBand = some b
      ∧ ((s.abortRound n d).stream n).exposed = (s.stream n).exposed := by
  have hfr : s.frontier b = bd.frontier := by simp [State.frontier, hb]
  rw [State.abortRound_eq ho hw, hfr, if_pos (by omega), State.stream_updStream, if_pos rfl]
  exact ⟨hb, ho, rfl⟩

/-- A run aborted with its slot touched: the slot is TORN and the stream goes to its end (R71, R74). -/
theorem State.abortRound_touched (ho : (s.stream n).openBand = some b) (hw : (s.stream n).writing = some w) {d : Nat}
    (hb : s.band? b = some bd) (hst : bd.state = .opened) (hsound : bd.slots.length = slotsBehind bd.frontier)
    (hle : 16 * w ≤ bd.frontier) (hhi : bd.frontier ≤ 16 * w + 15) (ht : ∀ x, bd.slots[w]? = some x → x = .torn)
    (h : 16 * w < bd.frontier + d) :
    ∃ bd', (s.abortRound n d).band? b = some bd' ∧ bd'.frontier = 16 * (w + 1) ∧ bd'.slots = bd.slots.take w ++ [.torn]
      ∧ ((s.geo b).cap ≤ w + 1 → bd'.state = .full ∧ bd'.closeReason = some .capacity
        ∧ ((s.abortRound n d).stream n).exposed = [])
      ∧ (w + 1 < (s.geo b).cap → bd'.state = .opened ∧ ((s.abortRound n d).stream n).openBand = some b
        ∧ ((s.abortRound n d).stream n).exposed = (s.stream n).exposed.filter fun x =>
          staysExposed (s.geo b) (16 * (w + 1) / (s.geo b).spt) x.slot) := by
  obtain ⟨f, hf⟩ : ∃ f, f = 16 * w + min (bd.frontier - 16 * w + d) 15 := ⟨_, rfl⟩
  obtain ⟨u, hu⟩ : ∃ u, u = (s.moveFrontier n b f none true).moveFrontier n b (16 * (w + 1)) none true := ⟨_, rfl⟩
  have hfr : s.frontier b = bd.frontier := by simp [State.frontier, hb]
  have habort : s.abortRound n d = (u.capacityClose n b).updStream n fun x => { x with writing := none } := by
    rw [State.abortRound_eq ho hw, hfr, if_neg (by omega), ← hf, hu]
  have hbehind : slotsBehind bd.frontier = w ∨ slotsBehind bd.frontier = w + 1 := by
    simp only [slotsBehind, ceilDiv]
    omega
  have hlen : w ≤ bd.slots.length ∧ bd.slots.length ≤ w + 1 := by omega
  have hfb : slotsBehind f = w + 1 := by
    simp only [slotsBehind, ceilDiv]
    omega
  have hub : u.band? b = some { bd with frontier := 16 * (w + 1), slots := bd.slots.take w ++ [.torn] } := by
    rw [hu, State.band?_moveFrontier, State.band?_moveFrontier, hb, Option.map_some, if_pos rfl, Option.map_some, if_pos rfl]
    have hfirst : bd.frontierReport f none = { bd with frontier := f, slots := slotsAt bd.slots (w + 1) none } := by
      rw [Band.frontierReport, if_pos ⟨hst, by omega⟩, hfb]
    have hbe : slotsBehind (16 * (w + 1)) = w + 1 := slotsBehind_mul (w + 1)
    rw [hfirst, Band.frontierReport, if_pos ⟨hst, by show f ≤ _; omega⟩, hbe]
    show some { bd with frontier := 16 * (w + 1), slots := slotsAt (slotsAt bd.slots (w + 1) none) (w + 1) none } = _
    rw [slotsAt_slotsAt_none bd.slots hlen.2, slotsAt_torn hlen.1 hlen.2 ht]
  have hgeo : u.geo = s.geo := by rw [hu, State.geo_moveFrontier, State.geo_moveFrontier]
  have hufr : u.frontier b = 16 * (w + 1) := by simp [State.frontier, hub]
  have hstream : u.stream n = (s.stream n).release (s.geo b) (16 * (w + 1) / (s.geo b).spt) := by
    have hreleased := filter_staysExposed (s.geo b) (j := f / (s.geo b).spt) (k := 16 * (w + 1) / (s.geo b).spt)
      (Nat.div_le_div_right (by omega)) (s.stream n).exposed
    rw [hu, State.stream_moveFrontier, State.stream_moveFrontier, State.geo_moveFrontier]
    simp only [Stream.release, hreleased]
  have hfinal : (s.abortRound n d).stream n = { (u.capacityClose n b).stream n with writing := none } := by
    rw [habort, State.stream_updStream, if_pos rfl]
  have hband : (s.abortRound n d).band? b = (u.capacityClose n b).band? b := by
    rw [habort]
    rfl
  rw [hfinal, hband]
  by_cases hcap : (s.geo b).cap ≤ w + 1
  · obtain ⟨hclosed, hset⟩ := State.capacityClose_full (n := n) hub hst (by rw [hgeo, hufr]; omega)
    exact ⟨_, hclosed, rfl, rfl, fun _ => ⟨rfl, rfl, hset⟩, fun h => absurd hcap (Nat.not_le.2 h)⟩
  · rw [State.capacityClose_open (by rw [hgeo, hufr]; omega)]
    refine ⟨_, hub, rfl, rfl, fun h => absurd h hcap, fun _ => ⟨hst, ?_, ?_⟩⟩
    · rw [hstream]
      exact ho
    · rw [hstream]
      rfl

end

end Sys2Proof.Machine
end

section
namespace Sys2Proof.Machine

/-! ### The log at a RESET (R59, R97, R108) -/

/-- The log once a RESET has ended the work on it: nothing waits, no fold runs, and it is not held (R108). -/
def Slu.Quiet (l : Slu) : Prop := l.logHeld = false ∧ l.foldReqs = [] ∧ l.overlayWait = [] ∧ l.fold = none

theorem Slu.Quiet.advance {l : Slu} (h : l.Quiet) : l.advance.Quiet := by
  obtain ⟨hheld, hreqs, hwait, hfold⟩ := h
  obtain ⟨-, hfold', hwait', hreqs'⟩ := l.advance_frame
  refine ⟨?_, hreqs'.trans hreqs, hwait'.trans hwait, hfold'.trans hfold⟩
  unfold Slu.advance
  dsimp only
  split <;> rw [apply_ite Slu.logHeld, hheld, ite_self]

/-- What records that die while the log is quiet can change: the map's overlay counts and chains, and the directory,
where no record comes and none revives (R45, R97). -/
structure State.RecordsDie (s t : State) : Prop where
  parts : ∃ m l, t = { s with gmu := { s.gmu with map := m }, slu := l }
  quiet : t.slu.Quiet
  canonical : s.MapCanonical → t.MapCanonical
  entries : s.MapCanonical → ∀ k, (t.entryOf k).home = (s.entryOf k).home ∧ (t.entryOf k).base = (s.entryOf k).base
    ∧ (t.entryOf k).lost = (s.entryOf k).lost
  positions : (t.slu.dir.map Record.pos).Sublist (s.slu.dir.map Record.pos)
  records : ∀ x ∈ t.slu.dir, ∃ y ∈ s.slu.dir, y.pos = x.pos ∧ (x.state = y.state ∨ x.state = .dead)

namespace State.RecordsDie
variable {s t u : State}

theorem refl (h : s.slu.Quiet) : s.RecordsDie s :=
  ⟨⟨_, _, rfl⟩, h, id, fun _ _ => ⟨rfl, rfl, rfl⟩, List.Sublist.refl _, fun x hx => ⟨x, hx, rfl, .inl rfl⟩⟩

theorem trans (h : s.RecordsDie t) (k : t.RecordsDie u) : s.RecordsDie u := by
  obtain ⟨m, l, ht⟩ := h.parts
  obtain ⟨m', l', hu⟩ := k.parts
  refine ⟨⟨m', l', by rw [hu, ht]⟩, k.quiet, fun hm => k.canonical (h.canonical hm), fun hm j => ?_,
    k.positions.trans h.positions, fun x hx => ?_⟩
  · obtain ⟨hh, hb, hl⟩ := h.entries hm j
    obtain ⟨hh', hb', hl'⟩ := k.entries (h.canonical hm) j
    exact ⟨hh'.trans hh, hb'.trans hb, hl'.trans hl⟩
  · obtain ⟨y, hy, hyx, hst⟩ := k.records x hx
    obtain ⟨z, hz, hzy, hst'⟩ := h.records y hy
    refine ⟨z, hz, hzy.trans hyx, ?_⟩
    rcases hst with hst | hst
    · rw [hst]
      exact hst'
    · exact .inr hst

theorem advanceHead (h : s.slu.Quiet) : s.RecordsDie s.advanceHead := by
  obtain ⟨hdir, -⟩ := s.slu.advance_frame
  refine ⟨⟨s.gmu.map, _, rfl⟩, h.advance, id, fun _ _ => ⟨rfl, rfl, rfl⟩, ?_, fun x hx => ⟨x, Slu.mem_advance hx, rfl, .inl rfl⟩⟩
  show (s.slu.advance.dir.map Record.pos).Sublist _
  rw [hdir]
  exact (List.dropWhile_suffix _).sublist.map _

/-- One record dies. -/
theorem makeDead (h : s.slu.Quiet) (p : Nat) : s.RecordsDie (s.makeDead p) := by
  unfold State.makeDead
  split
  · next r hr =>
    split
    · exact refl h
    · obtain ⟨v, hv⟩ : ∃ v : State, v = ({ s with slu := { s.slu with dir := s.slu.dir.map fun x : Record => x.afterDeath r } }
          ).setEntryOf r.lgn ((s.entryOf r.lgn).recordDead r) := ⟨_, rfl⟩
      have hvq : v.slu.Quiet := by rw [hv]; exact h
      have hgmu : v.gmu = { s.gmu with map := tablePut {} s.gmu.map r.lgn ((s.entryOf r.lgn).recordDead r) } := by
        rw [hv]; rfl
      have hdead : s.RecordsDie v := by
        refine ⟨⟨_, _, hv⟩, hvq, fun hm => ?_, fun hm k => ?_, ?_, fun x hx => ?_⟩
        · rw [State.MapCanonical, hgmu]
          exact tableWf_tablePut hm ..
        · obtain ⟨hself, hother⟩ := State.entryOf_tablePut hm hgmu
          by_cases hk : k = r.lgn
          · rw [hk, hself]
            exact ⟨rfl, rfl, rfl⟩
          · rw [hother k hk]
            exact ⟨rfl, rfl, rfl⟩
        · rw [hv]
          show ((s.slu.dir.map fun x : Record => x.afterDeath r).map Record.pos).Sublist _
          have hpos : s.slu.dir.map (Record.pos ∘ fun x : Record => x.afterDeath r) = s.slu.dir.map Record.pos :=
            List.map_congr_left fun x _ => Record.afterDeath_pos x r
          rw [List.map_map, hpos]
        · rw [hv] at hx
          obtain ⟨y, hy, rfl⟩ := List.mem_map.1 hx
          refine ⟨y, hy, (y.afterDeath_pos r).symm, ?_⟩
          unfold Record.afterDeath
          split
          · exact .inr rfl
          · split <;> exact .inl rfl
      have hend := hdead.trans (advanceHead hvq)
      show s.RecordsDie (({ s with slu := { s.slu with dir := s.slu.dir.map fun x : Record => x.afterDeath r } }.setEntryOf r.lgn
        ((s.entryOf r.lgn).recordDead r)).advanceHead.judgeFoldReqs)
      rw [← hv, State.judgeFoldReqs_of_no_reqs hend.quiet.2.1]
      exact hend
  · exact refl h

theorem makeDeads (h : s.slu.Quiet) (ps : List Nat) : s.RecordsDie (ps.foldl State.makeDead s) := by
  induction ps generalizing s with
  | nil => exact refl h
  | cons p ps ih =>
    have hfirst := makeDead h p
    exact hfirst.trans (ih hfirst.quiet)

end State.RecordsDie

section
variable {s : State}

/-- A record named alone dies (R45). -/
theorem State.makeDead_dead (hq : s.slu.Quiet) (hn : (s.slu.dir.map Record.pos).Nodup) (p : Nat) :
    ∀ x ∈ (s.makeDead p).slu.dir, x.pos = p → x.state = .dead := by
  intro x hx hxp
  unfold State.makeDead at hx
  cases hr : s.record? p with
  | none =>
    rw [hr] at hx
    have hnone := List.find?_eq_none.1 hr x hx
    simp [hxp] at hnone
  | some r =>
    rw [hr] at hx
    have hrp : r.pos = p := by simpa using List.find?_some hr
    dsimp only at hx
    split at hx
    · next hd =>
      have hxr : x = r := List.inj_on_of_nodup_map hn hx (List.mem_of_find?_eq_some hr) (hxp.trans hrp.symm)
      rw [hxr, hd]
    · rw [State.judgeFoldReqs_of_no_reqs (by exact (Slu.Quiet.advance (l := { s.slu with
        dir := s.slu.dir.map fun x : Record => x.afterDeath r }) hq).2.1)] at hx
      obtain ⟨y, -, rfl⟩ := List.mem_map.1 (Slu.mem_advance hx)
      exact Record.afterDeath_dead (by rw [← Record.afterDeath_pos y r, hxp, hrp])

/-- Records that die stay dead (R45). -/
theorem State.makeDeads_dead (hq : s.slu.Quiet) (hn : (s.slu.dir.map Record.pos).Nodup) {ps : List Nat} {p : Nat}
    (hp : p ∈ ps) : ∀ x ∈ (ps.foldl State.makeDead s).slu.dir, x.pos = p → x.state = .dead := by
  induction ps generalizing s with
  | nil => exact nomatch hp
  | cons q ps ih =>
    have hfirst := State.RecordsDie.makeDead hq q
    rcases List.mem_cons.1 hp with rfl | hp
    · intro x hx hxp
      obtain ⟨y, hy, hyx, hst⟩ := (State.RecordsDie.makeDeads hfirst.quiet ps).records x hx
      have hdead := State.makeDead_dead hq hn p y hy (hyx.trans hxp)
      rcases hst with hst | hst
      · rw [hst, hdead]
      · exact hst
    · exact ih hfirst.quiet (hn.sublist hfirst.positions) hp

/-- The log at a RESET (R59, R108). -/
theorem State.sluReset_spec (s : State) :
    (∃ m l, s.sluReset = { s with gmu := { s.gmu with map := m }, slu := l }) ∧ s.sluReset.slu.Quiet
      ∧ (s.MapCanonical → s.sluReset.MapCanonical)
      ∧ (s.MapCanonical → ∀ k, (s.sluReset.entryOf k).home = (s.entryOf k).home
        ∧ (s.sluReset.entryOf k).base = (s.entryOf k).base ∧ (s.sluReset.entryOf k).lost = (s.entryOf k).lost)
      ∧ ((∀ r ∈ s.slu.dir, r.state ≠ .writing) → s.sluReset.gmu = s.gmu)
      ∧ ((s.slu.dir.map Record.pos).Nodup → ∀ r ∈ s.sluReset.slu.dir, r.state ≠ .writing) := by
  obtain ⟨ps, hps⟩ : ∃ ps, ps = (s.slu.dir.filter fun r => decide (r.state = .writing)).map Record.pos := ⟨_, rfl⟩
  obtain ⟨u, hu⟩ : ∃ u : State, u = { s with slu := { s.slu with
    writes := [], overlayWait := [], foldReqs := [], fold := none, logHeld := false } } := ⟨_, rfl⟩
  have hreset : s.sluReset = (ps.foldl State.makeDead u).advanceHead := by rw [hu, hps]; rfl
  have hq : u.slu.Quiet := by rw [hu]; exact ⟨rfl, rfl, rfl, rfl⟩
  have hdie := State.RecordsDie.makeDeads hq ps
  have hall := hdie.trans (State.RecordsDie.advanceHead hdie.quiet)
  rw [← hreset] at hall
  obtain ⟨m, l, hparts⟩ := hall.parts
  have hdir : u.slu.dir = s.slu.dir := by rw [hu]
  refine ⟨⟨m, l, by rw [hparts, hu]⟩, hall.quiet, fun hm => hall.canonical (by rw [hu]; exact hm), fun hm k => ?_,
    fun hno => ?_, fun hn r hr hw => ?_⟩
  · have := hall.entries (by rw [hu]; exact hm) k
    rw [hu] at this
    exact this
  · have hnil : ps = [] := by
      rw [hps, List.filter_eq_nil_iff.2 fun r hr => by simpa using hno r hr]
      rfl
    rw [hreset, hnil, hu]
    rfl
  · obtain ⟨y, hy, hyr, hst⟩ := hall.records r hr
    have hwy : y.state = .writing := by
      rcases hst with hst | hst
      · rw [← hst, hw]
      · rw [hw] at hst
        cases hst
    have hmem : r.pos ∈ ps := by
      rw [hps, ← hyr]
      exact List.mem_map_of_mem (List.mem_filter.2 ⟨hdir ▸ hy, by simp [hwy]⟩)
    rw [hreset] at hr
    have hdead := State.makeDeads_dead hq (by rw [hdir]; exact hn) hmem r (Slu.mem_advance hr) rfl
    rw [hw] at hdead
    cases hdead

end

end Sys2Proof.Machine
end

section
namespace Sys2Proof.Machine

/-! ### The streams at a RESET (R66, R67, R83) -/

/-- What work on the head of a stream of re-placements makes of the part: no request is touched, the stream waits for a
band or does not, and where it does not its head is being written; `r` tells which items are stale. -/
structure State.ReplacesWorked (r s t : State) (n : Fin 9) : Prop where
  rqu : t.rqu = s.rqu
  opens : (t.stream n).openPending = false ∧ t.btu.openWait = s.btu.openWait
    ∨ (t.stream n).openPending = true ∧ t.btu.openWait = s.btu.openWait ++ [n] ∧ (t.stream n).openBand = none
      ∧ (t.stream n).fifo ≠ []
  band : ∀ b, (s.stream n).openBand = some b → (t.stream n).openBand = some b
  head : (t.stream n).openPending = false → (s.stream n).writing = none → ∀ it rest, (t.stream n).fifo = it :: rest →
    (t.stream n).writing.isSome = true ∧ r.stale it = false

section
variable {r s : State} {n : Fin 9}

theorem State.pumpFor_replaces (h : r.HeadWork s) (hup : r.mpt.up = true) (hp : (s.stream n).openPending = false)
    (hall : ∀ it ∈ (s.stream n).fifo, it.work.isReplace = true) {fuel : Nat}
    (hfuel : (s.stream n).fifo.length + (if (s.stream n).openBand = none then 2 else 1) ≤ fuel) :
    r.ReplacesWorked s (s.pumpFor n fuel) n := by
  induction fuel generalizing s with
  | zero => split at hfuel <;> omega
  | succ fuel ih =>
    by_cases hw : (s.stream n).writing = none
    swap
    · have hbusy : (s.stream n).writing.isSome = true := by simpa [Option.isSome_iff_ne_none] using hw
      rw [State.pumpFor_busy (.inl hbusy)]
      exact ⟨rfl, .inl ⟨hp, rfl⟩, fun _ hb => hb, fun _ hn => absurd hn hw⟩
    cases hf : (s.stream n).fifo with
    | nil =>
      rw [State.pumpFor_empty hf]
      refine ⟨rfl, .inl ⟨hp, rfl⟩, fun _ hb => hb, fun _ _ it rest hx => ?_⟩
      rw [hf] at hx
      cases hx
    | cons it rest =>
      have hit : it.work.isReplace = true := hall it (hf ▸ List.mem_cons_self)
      have hhost : hostOpen (s.stream n) it = false := by
        cases hwk : it.work <;> simp_all [hostOpen, Work.isStore, Work.isReplace]
      cases hb : (s.stream n).openBand with
      | none =>
        by_cases hwait : s.freeCount = 0 ∨ s.btu.openWait ≠ []
        · obtain ⟨u, hu⟩ : ∃ u, u = s.updStream n fun x => { x with openPending := true } := ⟨_, rfl⟩
          have hself : u.stream n = { s.stream n with openPending := true } := by
            rw [hu]
            exact s.stream_setStream_self ..
          have hstep : s.pumpFor n (fuel + 1) = { u with btu := { s.btu with openWait := s.btu.openWait ++ [n] } } := by
            rw [State.pumpFor]
            simp only [hw, hp, hf, hb, hhost, Option.isSome_none, Bool.or_self, Bool.false_and, Bool.false_eq_true, if_false,
              if_pos hwait]
            rw [hu]
            rfl
          rw [hstep]
          refine ⟨by rw [hu]; rfl, .inr ⟨?_, rfl, ?_, ?_⟩, fun b hb' => by simp [hb] at hb', fun hpend => ?_⟩
          · exact congrArg Stream.openPending hself
          · exact (congrArg Stream.openBand hself).trans hb
          · exact fun hnil => by simpa [hf] using (congrArg Stream.fifo hself).symm.trans hnil
          · exact absurd ((congrArg Stream.openPending hself).symm.trans hpend) nofun
        · obtain ⟨hfree, hnone⟩ : s.freeCount ≠ 0 ∧ s.btu.openWait = [] := by simpa using hwait
          obtain ⟨b, spill, hpick⟩ := State.pickBand_of_free h.sound hfree n
          have hgrant := State.grantOpen_of_pick hpick
          obtain ⟨-, hrqu, -, -, -, -, hstream, -⟩ := s.grantBand_frame n b spill
          have hopen := s.openWait_grantBand n b spill
          have hwork := h.grantOpen (n := n)
          rw [hgrant] at hwork
          have hstep : s.pumpFor n (fuel + 1) = (s.grantBand n b spill).pumpFor n fuel := by
            rw [State.pumpFor, ← hgrant]
            simp [hw, hp, hf, hb, hhost, hfree, hnone]
          have hnext := ih hwork (by rw [hstream]) (by rw [hstream]; exact hall) (by
            rw [hstream, if_neg (by simp)]
            rw [if_pos hb] at hfuel
            exact Nat.le_of_succ_le_succ hfuel)
          rw [hstep]
          obtain ⟨hrqu', hopens', -, hhead'⟩ := hnext
          rw [hopen] at hopens'
          refine ⟨hrqu'.trans hrqu, hopens', fun b' hb' => by simp [hb] at hb', fun hpend _ => hhead' hpend ?_⟩
          rw [hstream]
          exact hw
      | some b =>
        have hups : s.mpt.up = true := (congrArg Mpt.up h.mpt).trans hup
        by_cases hst : s.stale it = true
        · have hdrop : (s.dropHead n).stream n = (s.stream n).keeping rest := by
            rw [State.dropHead, State.stream_updStream, if_pos rfl, hf]
            rfl
          have hstep : s.pumpFor n (fuel + 1) = (s.dropHead n).pumpFor n fuel := by
            rw [State.pumpFor]
            simp [hw, hp, hf, hb, hups, hst]
          have hnext := ih (s := s.dropHead n) ((State.HeadWork.pump r n).dropHead h) (by rw [hdrop]; exact hp)
            (by rw [hdrop]; exact fun x hx => hall x (hf ▸ List.mem_cons_of_mem it hx)) (by
              rw [hdrop, if_neg (by show (s.stream n).openBand ≠ none; rw [hb]; exact nofun)]
              rw [if_neg (by rw [hb]; exact nofun), hf, List.length_cons] at hfuel
              exact Nat.le_of_succ_le_succ hfuel)
          rw [hstep]
          obtain ⟨hrqu', hopens', hband', hhead'⟩ := hnext
          rw [hdrop] at hband' hhead'
          exact ⟨hrqu', hopens', hband', fun hpend _ => hhead' hpend hw⟩
        · have hst : s.stale it = false := by simpa using hst
          rw [State.pumpFor_place hw hp hf hb hups hst]
          obtain ⟨u, hu⟩ : ∃ u, u = s.updStream n fun x => { x with writing := some (slotsBehind (s.frontier b)) } :=
            ⟨_, rfl⟩
          have hself : u.stream n = { s.stream n with writing := some (slotsBehind (s.frontier b)) } := by
            rw [hu]
            exact s.stream_setStream_self ..
          obtain ⟨k, hk⟩ := u.queueRun_har n
          rw [← hu, hk]
          refine ⟨by rw [hu]; rfl, .inl ⟨(congrArg Stream.openPending hself).trans hp, by rw [hu]; rfl⟩, fun b' hb' => ?_,
            fun _ _ x items hx => ⟨congrArg (fun y => y.writing.isSome) hself, ?_⟩⟩
          · exact (congrArg Stream.openBand hself).trans hb'
          · obtain ⟨rfl, -⟩ : it = x ∧ rest = items := by
              have hfu : (u.stream n).fifo = it :: rest := (congrArg Stream.fifo hself).trans hf
              have hx : (u.stream n).fifo = x :: items := hx
              rw [hfu] at hx
              exact List.cons.inj hx
            exact (h.stale it).symm.trans hst

end

end Sys2Proof.Machine
end

section
namespace Sys2Proof.Machine

/-! ### All streams go on after a RESET (R66, R67, R82, R83) -/

/-- The record of stream `m` is `x`. -/
abbrev State.StreamIs (m : Fin 9) (x : Stream) (s : State) : Prop := s.stream m = x

/-- Work on a stream's head leaves the other streams' records alone. -/
theorem State.StreamIs.pump {m n : Fin 9} (h : m ≠ n) (x : Stream) : Kept.Pump (State.StreamIs m x) n where
  outbound := fun _ hs => hs
  requests := fun _ _ hs => hs
  events := fun _ _ hs => hs
  queues := fun _ _ _ hs => hs
  buffers := fun _ hs => hs
  stream := fun _ _ _ hs => by rw [State.StreamIs, State.stream_setStream, if_neg h, hs]
  wait := fun _ hs => hs
  grant := fun hs => by
    unfold State.StreamIs State.grantOpen
    split
    · rw [State.stream_grantBand_of_ne m h, hs]
    · exact hs

/-- What a stream of re-placements of `s`, waiting for no band, is in `u` once its head was worked on: items gone that
are stale, its open band kept or waited for, and where it is not waited for its head being written. -/
structure State.StreamSettled (s u : State) (n : Fin 9) : Prop where
  drained : (s.stream n).Drained (u.stream n) s.leavesHead
  band : ∀ b, (s.stream n).openBand = some b → (u.stream n).openBand = some b
  head : (u.stream n).openPending = false → (s.stream n).writing = none → ∀ it rest, (u.stream n).fifo = it :: rest →
    (u.stream n).writing.isSome = true ∧ s.stale it = false
  pending : (u.stream n).openPending = true ↔ n ∈ u.btu.openWait
  waits : (u.stream n).openPending = true → (u.stream n).openBand = none ∧ (u.stream n).fifo ≠ []

/-- A part whose streams hold re-placements alone, none waiting for a band, its port UP. -/
structure State.ReplacesOnly (s : State) : Prop where
  sound : s.BandsSound
  up : s.mpt.up = true
  pending : ∀ n, (s.stream n).openPending = false
  fifo : ∀ n, ∀ it ∈ (s.stream n).fifo, it.work.isReplace = true
  none : s.btu.openWait = []

section
variable {s u : State}

theorem State.StreamSettled.congr {t : State} {n : Fin 9} (h : s.StreamSettled u n) (hst : t.stream n = u.stream n)
    (hw : n ∈ t.btu.openWait ↔ n ∈ u.btu.openWait) : s.StreamSettled t n := by
  obtain ⟨hd, hb, hh, hp, hwt⟩ := h
  constructor
  · rw [hst]; exact hd
  · rw [hst]; exact hb
  · rw [hst]; exact hh
  · rw [hst, hw]; exact hp
  · rw [hst]; exact hwt

/-- The streams of `ns` settled in `u`, the others as in `s`. -/
structure State.SettledUpTo (s u : State) (ns : List (Fin 9)) : Prop where
  work : s.HeadWork u
  rqu : u.rqu = s.rqu
  settled : ∀ n ∈ ns, s.StreamSettled u n
  left : ∀ n, n ∉ ns → u.stream n = s.stream n ∧ n ∉ u.btu.openWait

theorem State.SettledUpTo.goOn (hs : s.ReplacesOnly) {ns : List (Fin 9)} (h : s.SettledUpTo u ns) {m : Fin 9}
    (hm : m ∉ ns) : s.SettledUpTo (u.goOn m) (m :: ns) := by
  obtain ⟨hwork, hrqu, hdone, hleft⟩ := h
  obtain ⟨hself, hnot⟩ := hleft m hm
  have hgo : s.ReplacesWorked u (u.goOn m) m := State.pumpFor_replaces hwork hs.up (by rw [hself]; exact hs.pending m) (by rw [hself]; exact hs.fifo m)
    (fuel := (u.stream m).fifo.length + 2) (by split <;> omega)
  have hother {n : Fin 9} (hn : n ≠ m) : (u.goOn m).stream n = u.stream n :=
    (State.StreamIs.pump hn (u.stream n)).goOn rfl
  obtain ⟨hrqu', hopens, hband, hhead⟩ := hgo
  rw [hself] at hband hhead
  have hwait {n : Fin 9} (hn : n ≠ m) : n ∈ (u.goOn m).btu.openWait ↔ n ∈ u.btu.openWait := by
    rcases hopens with ⟨-, hw⟩ | ⟨-, hw, -⟩
    · rw [hw]
    · rw [hw]
      simp [hn]
  refine ⟨(State.HeadWork.pump s m).goOn hwork, hrqu'.trans hrqu, fun n hn => ?_, fun n hn => ?_⟩
  · by_cases hnm : n = m
    · subst hnm
      refine ⟨?_, hband, hhead, ?_, fun hp => ?_⟩
      · rw [← hself]
        exact State.pumpFor_drained hwork _
      · rcases hopens with ⟨hp, hw⟩ | ⟨hp, hw, -⟩
        · rw [hp, hw]
          simp [hnot]
        · rw [hp, hw]
          simp
      · rcases hopens with ⟨hp', -⟩ | ⟨-, -, hb, hf⟩
        · exact absurd (hp.symm.trans hp') nofun
        · exact ⟨hb, hf⟩
    · exact (hdone n ((List.mem_cons.1 hn).resolve_left hnm)).congr (hother hnm) (hwait hnm)
  · obtain ⟨hnm, hn⟩ := List.ne_and_not_mem_of_not_mem_cons hn
    obtain ⟨hst, hno⟩ := hleft n hn
    exact ⟨(hother hnm).trans hst, fun hx => hno ((hwait hnm).1 hx)⟩

theorem State.SettledUpTo.foldl (hs : s.ReplacesOnly) {ns l : List (Fin 9)} (h : s.SettledUpTo u ns)
    (hl : l.Nodup) (hd : ∀ n ∈ l, n ∉ ns) :
    s.SettledUpTo (l.foldl State.goOn u) (l.reverse ++ ns) := by
  induction l generalizing u ns with
  | nil => exact h
  | cons m l ih =>
    obtain ⟨hml, hl⟩ := List.nodup_cons.1 hl
    have hnext := h.goOn hs (hd m List.mem_cons_self)
    have := ih hnext hl fun n hn hx => by
      rcases List.mem_cons.1 hx with rfl | hx
      · exact hml hn
      · exact hd n (List.mem_cons_of_mem m hn) hx
    rw [List.foldl_cons, List.reverse_cons, List.append_assoc]
    exact this

theorem mem_allStreams (n : Fin 9) : n ∈ allStreams := by
  revert n
  decide

/-- After all streams have gone on, each is settled, and no request was touched (R83). -/
theorem State.pumpAll_settled (hs : s.ReplacesOnly) :
    s.HeadWork s.pumpAll ∧ s.pumpAll.rqu = s.rqu ∧ ∀ n, s.StreamSettled s.pumpAll n := by
  have hstart : s.SettledUpTo s [] :=
    ⟨.refl hs.sound, rfl, fun _ hn => absurd hn List.not_mem_nil, fun n _ => ⟨rfl, by rw [hs.none]; exact List.not_mem_nil⟩⟩
  have hall := hstart.foldl hs (l := allStreams) (by decide) fun _ _ => List.not_mem_nil
  obtain ⟨g, hg⟩ : ∃ g, g = allStreams.foldl State.goOn s := ⟨_, rfl⟩
  have hpump : s.pumpAll = g.raiseEnded s.recoveries := by rw [hg]; rfl
  have hsettled : ∀ n, s.StreamSettled g n := fun n => hg ▸ hall.settled n (by simp [mem_allStreams])
  have hrqu : g.rqu = s.rqu := hg ▸ hall.rqu
  obtain ⟨v, out, hended, -⟩ := g.raiseEnded_eq s.recoveries
  refine ⟨Kept.pumpAll (State.HeadWork.pump s) (.refl hs.sound), ?_, fun n => ?_⟩
  · rw [hpump, hended]
    exact hrqu
  · refine (hsettled n).congr ?_ ?_
    · rw [hpump, hended]
      rfl
    · rw [hpump, hended]

/-! ### The streams' own reset (R83) -/

/-- A stream's record at a RESET (R83). -/
def Stream.restarted (x : Stream) : Stream :=
  { x.keeping (x.fifo.filter fun it => it.work.isReplace) with openPending := false }

theorem State.streamReset_eq (s : State) (n : Fin 9) : s.streamReset n = s.setStream n (s.stream n).restarted := by
  unfold State.streamReset State.keepItems State.updStream
  rw [State.stream_setStream_self, State.setStream_setStream]
  rfl

theorem State.foldl_streamReset {l : List (Fin 9)} (hl : l.Nodup) (s : State) :
    ∃ w, l.foldl State.streamReset s = { s with swr := w }
      ∧ ∀ m, (l.foldl State.streamReset s).stream m = if m ∈ l then (s.stream m).restarted else s.stream m := by
  induction l generalizing s with
  | nil => exact ⟨s.swr, rfl, fun m => by simp⟩
  | cons n l ih =>
    obtain ⟨hn, hl⟩ := List.nodup_cons.1 hl
    obtain ⟨w, hw, hall⟩ := ih hl (s.streamReset n)
    rw [State.streamReset_eq] at hw hall
    refine ⟨w, by rw [List.foldl_cons, State.streamReset_eq, hw]; rfl, fun m => ?_⟩
    rw [List.foldl_cons, State.streamReset_eq, hall, State.stream_setStream]
    by_cases hm : m = n
    · subst hm
      simp [hn]
    · simp [hm]

/-- The streams at a RESET: the work that is no re-placement is gone, and no open is waited for (R83). -/
theorem State.swrReset_spec (s : State) :
    (∃ w v out, s.swrReset = { s with swr := w, evu := v, flu := { s.flu with outbound := out } })
      ∧ ∀ m, s.swrReset.stream m = (s.stream m).restarted := by
  obtain ⟨w, hw, hall⟩ := State.foldl_streamReset (l := allStreams) (by decide) s
  obtain ⟨g, hg⟩ : ∃ g, g = allStreams.foldl State.streamReset s := ⟨_, rfl⟩
  have hreset : s.swrReset = g.raiseEnded s.recoveries := by rw [hg]; rfl
  rw [← hg] at hw hall
  obtain ⟨v, out, hended, -⟩ := g.raiseEnded_eq s.recoveries
  refine ⟨⟨w, v, out, by rw [hreset, hended, hw]⟩, fun m => ?_⟩
  rw [hreset, hended]
  exact (hall m).trans (if_pos (mem_allStreams m))

end

end Sys2Proof.Machine
end

section
namespace Sys2Proof.Machine

/-! ### The cleaner, the qualification and the controller at a RESET (R36, R40, R131, R140, R183, R184) -/

section
variable {s : State}

/-- The cleaner's own reset: its victim's band is FULL again, its mark clear (R40, R131). -/
theorem State.cleReset_spec (s : State) :
    (∃ bs, s.cleReset = { s with
        btu := { s.btu with bands := bs }, cle := ⟨.idle, none, [], s.cle.pacer.resetRequest, 512⟩ }
      ∧ bs.length = s.btu.bands.length)
    ∧ ∀ b bd, s.band? b = some bd → (bd.state ≠ .cleaning → s.cleReset.band? b = some bd)
      ∧ ∀ v, s.cle.victim = some v → v.band = b → bd.state = .cleaning →
        s.cleReset.band? b = some { bd with state := .full, holdBlocked := false } := by
  unfold State.cleReset
  cases hv : s.cle.victim with
  | none => exact ⟨⟨_, rfl, rfl⟩, fun b bd hb => ⟨fun _ => hb, nofun⟩⟩
  | some v =>
    refine ⟨⟨_, rfl, List.length_modify ..⟩, fun b bd hb => ?_⟩
    have hband : (s.leaveCleaning v.band false).band? b = _ := s.band?_updBand v.band b _
    rw [hb, Option.map_some] at hband
    refine ⟨fun hst => hband.trans (congrArg some ?_), fun v' hv' hvb hst => hband.trans (congrArg some ?_)⟩
    · rw [if_neg hst, ite_self]
    · obtain rfl := Option.some.inj hv'
      rw [if_pos hvb, if_pos hst]

/-- The end of a qualification by a stop: the band is in its prior state again (R36). -/
theorem State.endQualifying_withdrawn (s : State) (b : Nat) :
    (∃ bs p v out, s.endQualifying b .stopped = { s with
        btu := { s.btu with bands := bs, pressure := p }, evu := v, flu := { s.flu with outbound := out } }
      ∧ bs.length = s.btu.bands.length)
    ∧ ∀ k bd, s.band? k = some bd → (bd.state ≠ .qualifying → (s.endQualifying b .stopped).band? k = some bd)
      ∧ (k = b → bd.state = .qualifying →
        (s.endQualifying b .stopped).band? k = some { bd with state := bd.prior.getD .empty, prior := none }) := by
  unfold State.endQualifying
  cases hb : s.band? b with
  | none =>
    exact ⟨⟨_, _, _, _, rfl, rfl⟩, fun k bd hk => ⟨fun _ => hk, fun hkb => absurd ((hkb ▸ hk).symm.trans hb) nofun⟩⟩
  | some bd =>
    dsimp only
    by_cases hst : bd.state = .qualifying
    swap
    · rw [if_neg hst]
      refine ⟨⟨_, _, _, _, rfl, rfl⟩, fun k bd' hk => ⟨fun _ => hk, fun hkb hst' => ?_⟩⟩
      obtain rfl := Option.some.inj ((hkb ▸ hk).symm.trans hb)
      exact absurd hst' hst
    · rw [if_pos hst]
      obtain ⟨u, hu⟩ : ∃ u, u = s.updBand b fun x => { x with state := bd.prior.getD .empty, prior := none } := ⟨_, rfl⟩
      have hlen : u.btu.bands.length = s.btu.bands.length := by rw [hu]; exact List.length_modify ..
      obtain ⟨p, v, out, hend⟩ : ∃ p v out, (if bd.prior.getD .empty = .empty then u.judgePressureOff else u) = { u with
          btu := { u.btu with pressure := p }, evu := v, flu := { u.flu with outbound := out } } := by
        obtain ⟨out, hout⟩ := u.judgePressureOff_eq
        split
        · exact ⟨_, _, out, hout⟩
        · exact ⟨_, _, _, rfl⟩
      rw [← hu, hend]
      refine ⟨⟨u.btu.bands, p, v, out, by rw [hu]; rfl, hlen⟩, fun k bd' hk => ?_⟩
      have hband := s.band?_updBand b k fun x => { x with state := bd.prior.getD .empty, prior := none }
      rw [← hu, hk, Option.map_some] at hband
      refine ⟨fun hst' => ?_, fun hkb _ => ?_⟩
      · refine (?_ : u.band? k = some bd')
        have hne : b ≠ k := by
          rintro rfl
          obtain rfl := Option.some.inj (hk.symm.trans hb)
          exact hst' hst
        rw [hband, if_neg hne]
      · subst hkb
        obtain rfl := Option.some.inj (hk.symm.trans hb)
        refine (?_ : u.band? k = _)
        rw [hband, if_pos rfl]

/-- The qualification's own reset (R36, R140). -/
theorem State.qualReset_spec (s : State) :
    (∃ bs p v out qn, s.qualReset = { s with
        btu := { s.btu with bands := bs, pressure := p }, evu := v, flu := { s.flu with outbound := out }, qen := qn }
      ∧ bs.length = s.btu.bands.length ∧ qn.qual = none)
    ∧ ∀ b bd, s.band? b = some bd → (bd.state ≠ .qualifying → s.qualReset.band? b = some bd)
      ∧ ∀ q, s.qen.qual = some q → q.band = b → bd.state = .qualifying →
        s.qualReset.band? b = some { bd with state := bd.prior.getD .empty, prior := none } := by
  unfold State.qualReset
  cases hq : s.qen.qual with
  | none => exact ⟨⟨_, _, _, _, _, rfl, rfl, hq⟩, fun b bd hb => ⟨fun _ => hb, nofun⟩⟩
  | some q =>
    obtain ⟨⟨bs, p, v, out, hend, hlen⟩, hbands⟩ := s.endQualifying_withdrawn q.band
    dsimp only
    have hidle {b : Nat} : ((s.endQualifying q.band .stopped).qenIdle (q.result .stopped)).band? b =
        (s.endQualifying q.band .stopped).band? b := rfl
    refine ⟨⟨bs, p, v, out, _, by rw [hend]; rfl, hlen, rfl⟩, fun b bd hb => ?_⟩
    obtain ⟨hsame, hback⟩ := hbands b bd hb
    rw [hidle]
    refine ⟨hsame, fun q' hq' hqb hst => ?_⟩
    obtain rfl := Option.some.inj hq'
    exact hback hqb.symm hst

/-- What the blocks make of the part at a RESET behind their work in flight and the streams (R40, R59, R131, R183). -/
structure State.UnitsReset (s t : State) : Prop where
  parts : ∃ m l bs p qn out, t = { s with
      gmu := { s.gmu with map := m }, slu := l, btu := { s.btu with bands := bs, pressure := p }, qen := qn, evu := {}
      cle := ⟨.idle, none, [], s.cle.pacer.resetRequest, 512⟩, flu := { s.flu with outbound := out }
      ctl := { s.ctl with
        mode := if s.ctl.mode = .unformatted then .unformatted else .online, imageLoad := none, quiesceTag := none } }
    ∧ bs.length = s.btu.bands.length ∧ qn.qual = none
  quiet : t.slu.Quiet
  entries : s.MapCanonical → ∀ k, (t.entryOf k).home = (s.entryOf k).home ∧ (t.entryOf k).base = (s.entryOf k).base
    ∧ (t.entryOf k).lost = (s.entryOf k).lost
  map : (∀ r ∈ s.slu.dir, r.state ≠ .writing) → t.gmu = s.gmu
  records : (s.slu.dir.map Record.pos).Nodup → ∀ r ∈ t.slu.dir, r.state ≠ .writing
  bands : ∀ b bd, s.band? b = some bd →
    (bd.state ≠ .cleaning → bd.state ≠ .qualifying → t.band? b = some bd)
    ∧ (∀ v, s.cle.victim = some v → v.band = b → bd.state = .cleaning →
      t.band? b = some { bd with state := .full, holdBlocked := false })
    ∧ ∀ q, s.qen.qual = some q → q.band = b → bd.state = .qualifying →
      t.band? b = some { bd with state := bd.prior.getD .empty, prior := none }

theorem State.unitsReset (s : State) : s.UnitsReset ((s.sluReset.cleReset).qualReset).ctlReset := by
  obtain ⟨⟨m, l, hslu⟩, hquiet, -, hentries, hmap, hrecords⟩ := s.sluReset_spec
  obtain ⟨u, hu⟩ : ∃ u, u = s.sluReset := ⟨_, rfl⟩
  rw [← hu] at hslu hquiet hentries hmap hrecords ⊢
  obtain ⟨⟨bs, hcle, hlen⟩, hclean⟩ := u.cleReset_spec
  obtain ⟨v, hv⟩ : ∃ v, v = u.cleReset := ⟨_, rfl⟩
  rw [← hv] at hcle hclean ⊢
  obtain ⟨⟨bs', p, e, out, qn, hqual, hlen', hnone⟩, hqualify⟩ := v.qualReset_spec
  obtain ⟨w, hw⟩ : ∃ w, w = v.qualReset := ⟨_, rfl⟩
  rw [← hw] at hqual hqualify ⊢
  have hub (b : Nat) : u.band? b = s.band? b := by rw [hslu]; rfl
  have hwb (b : Nat) : w.ctlReset.band? b = w.band? b := rfl
  have hwgmu : w.ctlReset.gmu = u.gmu := by
    show w.gmu = u.gmu
    rw [hqual, hcle]
  have hwslu : w.ctlReset.slu = u.slu := by
    show w.slu = u.slu
    rw [hqual, hcle]
  refine ⟨⟨m, l, bs', p, qn, out, ?_, ?_, hnone⟩, hwslu ▸ hquiet, fun hm k => ?_, fun h => hwgmu.trans (hmap h),
    fun h => by rw [hwslu]; exact hrecords h, fun b bd hb => ?_⟩
  · show State.ctlReset w = _
    rw [hqual, hcle, hslu]
    rfl
  · rw [hlen', hcle]
    show bs.length = _
    rw [hlen, hslu]
  · have hentry : w.ctlReset.entryOf k = u.entryOf k := by unfold State.entryOf; rw [hwgmu]
    rw [hentry]
    exact hentries hm k
  · obtain ⟨hkeep, hleave⟩ := hclean b bd ((hub b).trans hb)
    have hvictim : u.cle.victim = s.cle.victim := by rw [hslu]
    have hqn : v.qen.qual = s.qen.qual := by rw [hcle, hslu]
    rw [hvictim] at hleave
    rw [hwb]
    refine ⟨fun hc hq => (hqualify b bd (hkeep hc)).1 hq, fun x hx hxb hst => ?_, fun q hq hqb hst => ?_⟩
    · exact (hqualify b _ (hleave x hx hxb hst)).1 nofun
    · exact (hqualify b bd (hkeep (by rw [hst]; exact nofun))).2 q (hqn.trans hq) hqb hst

end

end Sys2Proof.Machine
end

section
namespace Sys2Proof.Machine

/-! ### The blocks at a RESET, one after another (R40, R59, R83, R131, R140, R160, R183) -/

/-- The part once a RESET has discarded the requests, emptied the queues and freed the port, no order being out
(R160, R175). -/
def State.resetStart (s : State) : State :=
  State.mptTakesReset { s with
    rqu := s.rqu.resetRequest, har := { s.har.emptied with mask := {} }, btu := { s.btu with openWait := [] } }

/-- The operations a RESET ends (R160). -/
def State.endedAtReset (s : State) : List MediaOp := s.mpt.endedAtReset ++ s.har.allQueued

/-- The stages of a RESET with no order out: `r` with the operations ended, `e` with every block reset, `p` with the
streams gone on. -/
structure State.ResetStages (s r e p : State) : Prop where
  ended : r = s.resetStart.reportAll s.endedAtReset .aborted
  units : r.swrReset.UnitsReset e
  work : e.HeadWork p
  rqu : p.rqu = e.rqu
  settled : ∀ n, e.StreamSettled p n
  enables : p.evu.enables = 0
  mask : p.har.mask = {}

section
variable {s r e p : State}

/-- The end of the blocks' own resets leaves the streams' records as the streams' reset made them. -/
theorem State.UnitsReset.stream_eq {t : State} (h : r.swrReset.UnitsReset t) (m : Fin 9) :
    t.stream m = (r.stream m).restarted := by
  obtain ⟨-, hall⟩ := r.swrReset_spec
  obtain ⟨m', l, bs, p, qn, out, ht, -⟩ := h.parts
  rw [← hall m, ht]
  rfl

theorem State.BandsSound.unitsReset {t : State} (ht : t.BandsSound) :
    (((t.sluReset.cleReset).qualReset).ctlReset).BandsSound := by
  have hslu := (State.sluReset_work (BlockWork.refl t)).bands ht
  have hcle : t.sluReset.cleReset.BandsSound := by
    unfold State.cleReset
    cases t.sluReset.cle.victim with
    | none => exact hslu
    | some v => exact (State.leaveCleaning_work (BlockWork.refl t.sluReset) v.band false).bands hslu
  exact (State.qualReset_work (BlockWork.refl t.sluReset.cleReset)).bands hcle

/-- A RESET with no order out goes through the stages. -/
theorem State.resetBlocks_stages (hs : s.BandsSound) (ha : s.mpt.awaitsAbort = false) :
    ∃ r e, s.ResetStages r e s.resetBlocks := by
  obtain ⟨r, hr⟩ : ∃ r, r = s.resetStart.reportAll s.endedAtReset .aborted := ⟨_, rfl⟩
  obtain ⟨e, he⟩ : ∃ e, e = ((r.swrReset.sluReset.cleReset).qualReset).ctlReset := ⟨_, rfl⟩
  have hunits : r.swrReset.UnitsReset e := he ▸ r.swrReset.unitsReset
  have hblocks : s.resetBlocks = e.pumpAll := by
    rw [he, hr]
    unfold State.resetBlocks State.mptReset
    dsimp only
    rw [if_neg (by rw [ha]; exact nofun)]
    rfl
  have hrb : r.BandsSound := hr ▸ (State.reportAll_work (BlockWork.refl s.resetStart) _ _).bands hs
  have hsound : e.BandsSound := he ▸ ((State.swrReset_work (BlockWork.refl r)).bands hrb).unitsReset
  obtain ⟨bs, c, l, w, hparts, -⟩ := (hr ▸ State.RunsAborted.reportAll s.resetStart s.endedAtReset :
    s.resetStart.RunsAborted r).parts
  obtain ⟨⟨w', v, out, hswr⟩, -⟩ := r.swrReset_spec
  obtain ⟨m, l', bs', p, qn, out', hee, -⟩ := hunits.parts
  have hpump := State.pumpAll_work (BlockWork.refl e)
  have hreplaces : e.ReplacesOnly := by
    refine ⟨hsound, ?_, fun n => ?_, fun n it hit => ?_, ?_⟩
    · rw [hee, hswr, hparts]
      rfl
    · rw [hunits.stream_eq]
      rfl
    · rw [hunits.stream_eq] at hit
      exact (List.mem_filter.1 hit).2
    · rw [hee, hswr, hparts]
      rfl
  obtain ⟨hwork, hrqu, hsettled⟩ := State.pumpAll_settled hreplaces
  rw [hblocks]
  refine ⟨r, e, hr, hunits, hwork, hrqu, hsettled, ?_, ?_⟩
  · rw [hpump.enables, hee]
  · rw [hpump.mask, hee, hswr, hparts]
    rfl

end

end Sys2Proof.Machine
end

section
namespace Sys2Proof.Machine

/-! ### One stream's run among the operations a RESET ends (R71, R74, R160) -/

/-- What an aborted run leaves of its band and of its stream, by whether a sector of its slot was written (R71, R74). -/
structure RunTorn (g : BandGeo) (bd : Band) (x : Stream) (b w d : Nat) (bd' : Band) (y : Stream) : Prop where
  state : bd'.state = .opened ∨ bd'.state = .full
  untouched : bd.frontier + d = 16 * w → bd'.frontier = bd.frontier ∧ bd'.slots = bd.slots ∧ bd'.state = .opened
    ∧ y.openBand = some b ∧ y.exposed = x.exposed
  touched : 16 * w < bd.frontier + d → bd'.frontier = 16 * (w + 1) ∧ bd'.slots = bd.slots.take w ++ [.torn]
    ∧ (g.cap ≤ w + 1 → bd'.state = .full ∧ bd'.closeReason = some .capacity ∧ y.exposed = [])
    ∧ (w + 1 < g.cap → bd'.state = .opened ∧ y.openBand = some b
      ∧ y.exposed = x.exposed.filter fun z => staysExposed g (16 * (w + 1) / g.spt) z.slot)

section
variable {s t : State} {n : Fin 9} {b w : Nat} {bd : Band} {o : MediaOp}

theorem State.RunsAborted.geo (h : s.RunsAborted t) : t.geo = s.geo := by
  obtain ⟨bs, c, l, w, ht, -⟩ := h.parts
  rw [ht]
  rfl

/-- Streams that do not have a band open do not come to have it open. -/
theorem State.RunsAborted.openBand_ne (h : s.RunsAborted t) {m : Fin 9} (hm : (s.stream m).openBand ≠ some b) :
    (t.stream m).openBand ≠ some b := by
  obtain ⟨e, b', w', hst, hb', -⟩ := h.streams m
  rw [hst]
  rcases hb' with rfl | rfl
  · exact hm
  · exact nofun

/-- The abort of a run on a band whose slot list ends at its frontier. -/
theorem State.abortRound_torn (ho : (s.stream n).openBand = some b) (hw : (s.stream n).writing = some w) (d : Nat)
    (hb : s.band? b = some bd) (hst : bd.state = .opened) (hsound : bd.slots.length = slotsBehind bd.frontier)
    (hle : 16 * w ≤ bd.frontier) (hhi : bd.frontier ≤ 16 * w + 15) (ht : ∀ x, bd.slots[w]? = some x → x = .torn) :
    ∃ bd', (s.abortRound n d).band? b = some bd'
      ∧ RunTorn (s.geo b) bd (s.stream n) b w d bd' ((s.abortRound n d).stream n) := by
  by_cases h : bd.frontier + d = 16 * w
  · obtain ⟨hband, hopen, hexp⟩ := State.abortRound_untouched ho hw hb hle h
    exact ⟨bd, hband, .inl hst, fun _ => ⟨rfl, rfl, hst, hopen, hexp⟩, fun hlt => absurd h (Nat.ne_of_gt hlt)⟩
  · have hlt : 16 * w < bd.frontier + d := by omega
    obtain ⟨bd', hband, hfr, hslots, hfull, hopen⟩ := State.abortRound_touched ho hw hb hst hsound hle hhi ht hlt
    refine ⟨bd', hband, ?_, fun heq => absurd heq h, fun _ => ⟨hfr, hslots, hfull, hopen⟩⟩
    by_cases hcap : (s.geo b).cap ≤ w + 1
    · exact .inr (hfull hcap).1
    · exact .inl (hopen (Nat.not_le.1 hcap)).1

/-- The operations that a RESET ends, one of them the stream's run: the others only end their reads of its band
(R37, R74). -/
theorem State.reportAborted_torn {before after : List MediaOp} (hon : o.origin = .stream n)
    (hothers : ∀ x ∈ before ++ after, x.origin ≠ .stream n) (ho : (s.stream n).openBand = some b)
    (hm : ∀ m, m ≠ n → (s.stream m).openBand ≠ some b) (hw : (s.stream n).writing = some w) (hb : s.band? b = some bd)
    (hst : bd.state = .opened) (hsound : bd.slots.length = slotsBehind bd.frontier)
    (hle : 16 * w ≤ bd.frontier) (hhi : bd.frontier ≤ 16 * w + 15) (ht : ∀ x, bd.slots[w]? = some x → x = .torn) :
    ∃ bd', (s.reportAll (before ++ o :: after) .aborted).band? b = some bd'
      ∧ RunTorn (s.geo b) bd (s.stream n) b w o.sectorsDone bd'
        ((s.reportAll (before ++ o :: after) .aborted).stream n) := by
  obtain ⟨u, hu⟩ : ∃ u, u = (s.reportAll before .aborted).endReaders o := ⟨_, rfl⟩
  have hbefore (x : MediaOp) (hx : x ∈ before) := hothers x (List.mem_append_left after hx)
  have hafter (x : MediaOp) (hx : x ∈ after) := hothers x (List.mem_append_right before hx)
  have hother {m : Fin 9} {x : MediaOp} (hx : x.origin ≠ .stream n) (hxm : x.origin = .stream m) : m ≠ n := by
    rintro rfl
    exact hx hxm
  have hruns : s.RunsAborted u := hu ▸ (State.RunsAborted.reportAll s before).trans (State.RunsAborted.endReaders _ o)
  have hstream : u.stream n = s.stream n := by
    rw [hu, State.stream_endReaders, State.stream_reportAborted_of_ne hbefore]
  obtain ⟨k, hk⟩ : ∃ k, u.band? b = some (bd.readsEnded k) := by
    have hfirst := State.band?_reportAborted hb (os := before) (.inr fun x hx m hxm => hm m (hother (hbefore x hx) hxm))
    have hend := State.band?_endReaders hfirst o
    rw [Band.readsEnded_readsEnded, ← hu] at hend
    exact ⟨_, hend⟩
  obtain ⟨bd₁, hband₁, htorn⟩ := State.abortRound_torn (n := n) (by rw [hstream]; exact ho) (by rw [hstream]; exact hw)
    o.sectorsDone hk hst hsound hle hhi ht
  have hall : s.reportAll (before ++ o :: after) .aborted = (u.abortRound n o.sectorsDone).reportAll after .aborted := by
    rw [State.reportAll_append, State.reportAll_cons, State.reportAborted_stream hon, hu]
  have hlast := State.band?_reportAborted hband₁ (os := after) (.inr fun x hx m hxm => by
    have hmn := hother (hafter x hx) hxm
    rw [State.stream_abortRound_of_ne hmn]
    exact hruns.openBand_ne (hm m hmn))
  rw [hall, State.stream_reportAborted_of_ne hafter]
  rw [hruns.geo, hstream] at htorn
  exact ⟨_, hlast, htorn.state, htorn.untouched, htorn.touched⟩

end

end Sys2Proof.Machine
end

section
namespace Sys2Proof.Machine

/-! ### What a RESET leaves of the bands (R36, R37, R40, R74) -/

section
variable {s r e p : State} {b : Nat} {bd : Band}

/-- The reads of a band that a RESET ends (R37). -/
def State.readsAtReset (s : State) (b : Nat) : Nat := s.endedAtReset.countP fun o => decide (o.bandRead = some b)

theorem State.ResetStages.runs (h : s.ResetStages r e p) : s.resetStart.RunsAborted r :=
  h.ended ▸ State.RunsAborted.reportAll ..

theorem State.band?_swrReset (s : State) (b : Nat) : s.swrReset.band? b = s.band? b := by
  obtain ⟨⟨w, v, out, hswr⟩, -⟩ := s.swrReset_spec
  rw [hswr]
  rfl

theorem State.ResetStages.victim (h : s.ResetStages r e p) : r.swrReset.cle = s.cle ∧ r.swrReset.qen = s.qen := by
  obtain ⟨bs, c, l, w, hparts, -⟩ := h.runs.parts
  obtain ⟨⟨w', v, out, hswr⟩, -⟩ := r.swrReset_spec
  rw [hswr, hparts]
  exact ⟨rfl, rfl⟩

/-- A band that is not OPEN comes to the cleaner's and the qualification's resets with its ended reads counted off. -/
theorem State.ResetStages.band_reads (h : s.ResetStages r e p) (hb : s.band? b = some bd) (hst : bd.state ≠ .opened) :
    r.swrReset.band? b = some (bd.readsEnded (s.readsAtReset b)) := by
  rw [State.band?_swrReset, h.ended]
  exact State.band?_reportAborted (s := s.resetStart) hb (.inl hst)

theorem State.ResetStages.band_full (h : s.ResetStages r e p) (hb : s.band? b = some bd) (hst : bd.state = .full) :
    p.band? b = some { bd with readers := bd.readers - s.readsAtReset b } := by
  have hreads := h.band_reads hb (by rw [hst]; exact nofun)
  have hended : bd.readsEnded (s.readsAtReset b) = { bd with readers := bd.readers - s.readsAtReset b } := by
    simp [Band.readsEnded, Band.takesReports, hst]
  rw [hended] at hreads
  obtain ⟨hsame, -⟩ := h.units.bands b _ hreads
  exact h.work.bands (hsame (by simp [hst]) (by simp [hst])) (by simp [hst])

theorem State.ResetStages.band_victim (h : s.ResetStages r e p) {v : Victim} (hv : s.cle.victim = some v)
    (hb : s.band? v.band = some bd) (hst : bd.state = .cleaning) :
    p.band? v.band = some { bd with
      state := .full, holdBlocked := false, readers := bd.readers - s.readsAtReset v.band } := by
  have hreads := h.band_reads hb (by rw [hst]; exact nofun)
  have hended : bd.readsEnded (s.readsAtReset v.band) = { bd with readers := bd.readers - s.readsAtReset v.band } := by
    simp [Band.readsEnded, Band.takesReports, hst]
  rw [hended] at hreads
  obtain ⟨-, hleft, -⟩ := h.units.bands v.band _ hreads
  exact h.work.bands (hleft v (h.victim.1 ▸ hv) rfl hst) nofun

theorem State.ResetStages.band_qualifying (h : s.ResetStages r e p) {q : Qual} (hq : s.qen.qual = some q)
    (hb : s.band? q.band = some bd) (hst : bd.state = .qualifying) :
    (bd.prior = some .retired → p.band? q.band = some { bd with state := .retired, prior := none })
      ∧ (bd.prior = some .empty → ∃ bd', p.band? q.band = some bd' ∧ bd'.prior = none
        ∧ (bd'.state = .empty ∨ bd'.state = .opened)) := by
  have hreads := h.band_reads hb (by rw [hst]; exact nofun)
  have hended : bd.readsEnded (s.readsAtReset q.band) = bd := by
    have htakes : bd.takesReports = false := by simp [Band.takesReports, hst]
    rw [Band.readsEnded, htakes]
    rfl
  rw [hended] at hreads
  obtain ⟨-, -, hback⟩ := h.units.bands q.band _ hreads
  have hback := hback q (h.victim.2 ▸ hq) rfl hst
  refine ⟨fun hp => ?_, fun hp => ?_⟩
  · rw [hp] at hback
    exact h.work.bands hback nofun
  · rw [hp] at hback
    rcases h.work.empties hback rfl with hsame | ⟨x, hopened⟩
    · exact ⟨_, hsame, rfl, .inl rfl⟩
    · exact ⟨_, hopened, rfl, .inr rfl⟩

/-- A band that is OPEN or FULL when the operations have ended stays as it is. -/
theorem State.ResetStages.band_settled (h : s.ResetStages r e p) (hb : r.band? b = some bd)
    (hst : bd.state = .opened ∨ bd.state = .full) : p.band? b = some bd := by
  obtain ⟨hsame, -⟩ := h.units.bands b bd ((r.band?_swrReset b).trans hb)
  rcases hst with hst | hst
  · exact h.work.bands (hsame (by simp [hst]) (by simp [hst])) (by simp [hst])
  · exact h.work.bands (hsame (by simp [hst]) (by simp [hst])) (by simp [hst])

/-! ### What a RESET leaves of the streams (R66, R67, R74, R82, R83) -/

variable {n : Fin 9}

theorem State.ResetStages.range (h : s.ResetStages r e p) (n : Fin 9) :
    (p.stream n).lo = (s.stream n).lo ∧ (p.stream n).hi = (s.stream n).hi := by
  obtain ⟨x, b, w, hst, -⟩ := h.runs.streams n
  rw [h.work.lo, h.work.hi, h.units.stream_eq, hst]
  exact ⟨rfl, rfl⟩

theorem State.ResetStages.fifo_restarted (h : s.ResetStages r e p) (n : Fin 9) :
    (e.stream n).fifo = (s.stream n).fifo.filter (fun it => it.work.isReplace)
      ∧ (e.stream n).recovery = (s.stream n).recovery.filter
        (countsToward ((s.stream n).fifo.filter fun it => it.work.isReplace)) := by
  obtain ⟨x, b, w, hst, -⟩ := h.runs.streams n
  rw [h.units.stream_eq, hst]
  exact ⟨rfl, rfl⟩

theorem State.ResetStages.gone (h : s.ResetStages r e p) (n : Fin 9) :
    ∃ gone, (s.stream n).fifo.filter (fun it => it.work.isReplace) = gone ++ (p.stream n).fifo
      ∧ ∀ it ∈ gone, it.faulted = false ∧ ∃ src, it.work = .replace src ∧ p.slotLiveFor src it.lgn = false := by
  obtain ⟨hfifo, -⟩ := h.fifo_restarted n
  obtain ⟨gone, hgone, hall⟩ := (h.settled n).drained.fifo
  refine ⟨gone, hfifo.symm.trans hgone, fun it hit => ?_⟩
  have hreplace : it.work.isReplace = true := by
    have hmem : it ∈ (s.stream n).fifo.filter fun it => it.work.isReplace := by
      rw [← hfifo, hgone]
      exact List.mem_append_left _ hit
    exact (List.mem_filter.1 hmem).2
  rcases hall it hit with hstore | hstale
  · cases hw : it.work <;> simp [hw, Work.isReplace, Work.isStore] at hreplace hstore
  · exact State.stale_iff.1 ((h.work.stale it).trans hstale)

theorem State.ResetStages.head (h : s.ResetStages r e p) (n : Fin 9) (hopen : (p.stream n).openPending = false)
    (hw : (s.stream n).writing = none ∨ (s.stream n).openBand ≠ none ∧ ∃ o ∈ s.endedAtReset, o.origin = .stream n)
    (it : Item) (rest : List Item) (hf : (p.stream n).fifo = it :: rest) : (p.stream n).writing.isSome = true
      ∧ (it.faulted = true ∨ ∃ src, it.work = .replace src ∧ p.slotLiveFor src it.lgn = true) := by
  have hwriting : (e.stream n).writing = none := by
    rw [h.units.stream_eq, h.ended]
    exact State.writing_reportAborted (s := s.resetStart) hw
  obtain ⟨hsome, hfresh⟩ := (h.settled n).head hopen hwriting it rest hf
  refine ⟨hsome, ?_⟩
  have hreplace : it.work.isReplace = true := by
    obtain ⟨gone, hgone, -⟩ := h.gone n
    have hmem : it ∈ (s.stream n).fifo.filter fun it => it.work.isReplace := by
      rw [hgone, hf]
      exact List.mem_append_right _ List.mem_cons_self
    exact (List.mem_filter.1 hmem).2
  rcases State.not_stale_iff.1 ((h.work.stale it).trans hfresh) with hfault | hno | hlive
  · exact .inl hfault
  · exact absurd (hreplace.symm.trans hno) nofun
  · exact .inr hlive

theorem State.ResetStages.recovery (h : s.ResetStages r e p) (n : Fin 9) :
    (p.stream n).recovery = (s.stream n).recovery.filter (countsToward (p.stream n).fifo) := by
  obtain ⟨hfifo, hrec⟩ := h.fifo_restarted n
  obtain ⟨gone, hgone, -⟩ := h.gone n
  have hrecovers : (e.stream n).Recovers := fun x hx => by
    rw [hrec] at hx
    rw [hfifo]
    exact (Option.filter_eq_some_iff.1 hx).2
  rw [(h.settled n).drained.recovery hrecovers, hrec, hgone, filter_countsToward_append]

/-- A stream with no run queued or deferred keeps its exposed set and its open band (R77). -/
theorem State.ResetStages.idle (h : s.ResetStages r e p) (hn : ∀ o ∈ s.endedAtReset, o.origin ≠ .stream n) :
    (p.stream n).exposed = (s.stream n).exposed
      ∧ ∀ b, (s.stream n).openBand = some b → (p.stream n).openBand = some b := by
  have hsame : r.stream n = s.stream n := by
    rw [h.ended]
    exact State.stream_reportAborted_of_ne (s := s.resetStart) hn
  have he := h.units.stream_eq n
  rw [hsame] at he
  refine ⟨?_, fun b hb => (h.settled n).band b ?_⟩
  · rw [h.work.exposed, he]
    rfl
  · rw [he]
    exact hb

/-- The stream's run among the ended operations, as the streams go on (R71, R74). -/
theorem State.ResetStages.torn (h : s.ResetStages r e p) (hs : s.BandsSound) {before after : List MediaOp} {o : MediaOp}
    {w : Nat} (hended : s.endedAtReset = before ++ o :: after) (hon : o.origin = .stream n)
    (hothers : ∀ x ∈ before ++ after, x.origin ≠ .stream n) (ho : (s.stream n).openBand = some b)
    (hm : ∀ m, m ≠ n → (s.stream m).openBand ≠ some b) (hw : (s.stream n).writing = some w) (hb : s.band? b = some bd)
    (hst : bd.state = .opened) (hle : 16 * w ≤ bd.frontier) (hhi : bd.frontier ≤ 16 * w + 15)
    (ht : ∀ x, bd.slots[w]? = some x → x = .torn) :
    ∃ bd', p.band? b = some bd' ∧ RunTorn (s.geo b) bd (s.stream n) b w o.sectorsDone bd' (p.stream n) := by
  obtain ⟨-, hsound, -⟩ := hs b bd hb
  obtain ⟨bd', hband, htorn⟩ := State.reportAborted_torn (s := s.resetStart) hon hothers ho hm hw hb hst hsound hle hhi ht
  rw [← hended, ← h.ended] at hband htorn
  have he := h.units.stream_eq n
  have hexp : (p.stream n).exposed = (r.stream n).exposed := by
    rw [h.work.exposed, he]
    rfl
  have hopen (hr : (r.stream n).openBand = some b) : (p.stream n).openBand = some b :=
    (h.settled n).band b (by rw [he]; exact hr)
  obtain ⟨hstate, huntouched, htouched⟩ := htorn
  refine ⟨bd', h.band_settled hband hstate, hstate, fun heq => ?_, fun hlt => ?_⟩
  · obtain ⟨hfr, hslots, hopened, hop, hex⟩ := huntouched heq
    exact ⟨hfr, hslots, hopened, hopen hop, hexp.trans hex⟩
  · obtain ⟨hfr, hslots, hfull, hroom⟩ := htouched hlt
    refine ⟨hfr, hslots, fun hcap => ?_, fun hcap => ?_⟩
    · obtain ⟨hstf, hwhy, hex⟩ := hfull hcap
      exact ⟨hstf, hwhy, hexp.trans hex⟩
    · obtain ⟨hsto, hop, hex⟩ := hroom hcap
      exact ⟨hsto, hopen hop, hexp.trans hex⟩

end

end Sys2Proof.Machine
end

section
namespace Sys2Proof.Machine

/-! ### What a RESET leaves of the other blocks (R59, R125, R131, R160, R183, R184) -/

section
variable {s r e p : State}

/-- The part once the operations have ended and the streams' work is gone. -/
theorem State.ResetStages.swrReset_eq (h : s.ResetStages r e p) :
    ∃ bs c l w v out, r.swrReset = { s.resetStart with
        btu := { s.resetStart.btu with bands := bs, closeOrder := c }, slu := l, swr := w, evu := v
        flu := { s.flu with outbound := out } }
      ∧ bs.length = s.btu.bands.length
      ∧ (l.dir.map fun r => (r.pos, r.state)).Sublist (s.slu.dir.map fun r => (r.pos, r.state)) := by
  obtain ⟨bs, c, l, w, hparts, hlen⟩ := h.runs.parts
  obtain ⟨⟨w', v, out, hswr⟩, -⟩ := r.swrReset_spec
  have hrecords := h.runs.records
  rw [hparts] at hrecords
  exact ⟨bs, c, l, w', v, out, by rw [hswr, hparts]; rfl, hlen, hrecords⟩

/-- The parts of a state that a RESET sets, whatever work was in flight. -/
structure State.ResetFields (s p : State) : Prop where
  rqu : p.rqu = s.rqu.resetRequest
  mpt : p.mpt = s.resetStart.mpt
  cle : p.cle = ⟨.idle, none, [], s.cle.pacer.resetRequest, 512⟩
  qual : p.qen.qual = none
  windows : p.evu.windows = ({} : Evu).windows
  notices : p.evu.watchQueue = []
  ctl : p.ctl = { s.ctl with
    mode := if s.ctl.mode = .unformatted then .unformatted else .online, imageLoad := none, quiesceTag := none }
  sequence : p.gmu.sequence = s.gmu.sequence
  lgnCount : p.gmu.lgnCount = s.gmu.lgnCount
  zones : p.btu.zones = s.btu.zones
  reserve : p.btu.reserve = s.btu.reserve
  refresh : p.btu.refresh = s.btu.refresh
  count : p.btu.bands.length = s.btu.bands.length

theorem State.ResetStages.fields (h : s.ResetStages r e p) : s.ResetFields p := by
  obtain ⟨bs, c, l, w, v, out, hr, hlen, -⟩ := h.swrReset_eq
  obtain ⟨m, l', bs', pr, qn, out', he, hlen', hqn⟩ := h.units.parts
  rw [hr] at he hlen'
  have hwork := h.work
  constructor
  · rw [h.rqu, he]
    rfl
  · rw [hwork.mpt, he]
  · rw [hwork.cle, he]
    rfl
  · rw [hwork.qen, he]
    exact hqn
  · rw [hwork.windows, he]
  · rw [hwork.notices, he]
  · rw [hwork.ctl, he]
    rfl
  · rw [hwork.gmu, he]
    rfl
  · rw [hwork.gmu, he]
    rfl
  · rw [hwork.zones, he]
    rfl
  · rw [hwork.reserve, he]
    rfl
  · rw [hwork.refresh, he]
    rfl
  · rw [hwork.count, he]
    exact hlen'.trans hlen

theorem State.ResetStages.quiet (h : s.ResetStages r e p) : p.slu.Quiet := h.work.slu ▸ h.units.quiet

theorem State.ResetStages.entries (h : s.ResetStages r e p) (hm : s.MapCanonical) (k : Nat) :
    (p.entryOf k).home = (s.entryOf k).home ∧ (p.entryOf k).base = (s.entryOf k).base
      ∧ (p.entryOf k).lost = (s.entryOf k).lost := by
  obtain ⟨bs, c, l, w, v, out, hr, -⟩ := h.swrReset_eq
  have hgmu : r.swrReset.gmu = s.gmu := by rw [hr]; rfl
  have hp : p.entryOf k = e.entryOf k := by unfold State.entryOf; rw [h.work.gmu]
  have hs : r.swrReset.entryOf k = s.entryOf k := by unfold State.entryOf; rw [hgmu]
  rw [hp, ← hs]
  exact h.units.entries (by rw [State.MapCanonical, hgmu]; exact hm) k

theorem State.ResetStages.map_kept (h : s.ResetStages r e p) (hno : ∀ x ∈ s.slu.dir, x.state ≠ .writing) :
    p.gmu = s.gmu := by
  obtain ⟨bs, c, l, w, v, out, hr, -, hrecords⟩ := h.swrReset_eq
  have hgmu : r.swrReset.gmu = s.gmu := by rw [hr]; rfl
  rw [h.work.gmu, h.units.map fun x hx => ?_, hgmu]
  rw [hr] at hx
  obtain ⟨y, hy, hxy⟩ := List.mem_map.1 (hrecords.subset (List.mem_map_of_mem hx))
  have hst : y.state = x.state := (Prod.ext_iff.1 hxy).2
  rw [← hst]
  exact hno y hy

theorem State.ResetStages.records (h : s.ResetStages r e p) (hn : (s.slu.dir.map Record.pos).Nodup) :
    ∀ x ∈ p.slu.dir, x.state ≠ .writing := by
  obtain ⟨bs, c, l, w, v, out, hr, -, hrecords⟩ := h.swrReset_eq
  have hpos := hrecords.map Prod.fst
  rw [List.map_map, List.map_map] at hpos
  rw [h.work.slu]
  exact h.units.records (by rw [hr]; exact hn.sublist hpos)

/-- The part once the RESET is answered: behind at most the frame being sent stands the reply alone (R175). -/
def State.resetAnswered (s : State) (sent : List OutFrame) (w : ResetWait) : State :=
  { s with
    ctl := { s.ctl with resetWait := none }
    flu := { s.flu with
      outbound := sent ++ [replyFrame codeReset w.tag false .done [.num 1 w.inUse, .num 3 0]], errors := 0 } }

theorem State.judgeReset_free (ha : s.mpt.awaitsAbort = false) (tag : Nat) :
    s.judgeReset tag = s.resetBlocks.resetAnswered (s.flu.outbound.take 1) ⟨tag, s.rqu.entries.length⟩ := by
  unfold State.judgeReset
  dsimp only
  rw [if_neg (by rw [ha]; exact nofun)]
  generalize s.resetBlocks = p
  rfl

end

/-- Settles O57: the stages of the RESET one after another, each block's own reset behind the operations it ends. -/
theorem reset_request_result : Obligations.Reset_request_result := by
  unfold Obligations.Reset_request_result
  intro s tag ended _ hmap hbands htakes hawaits hended
  obtain ⟨r, e, h⟩ := State.resetBlocks_stages (s := s.ready) hbands hawaits
  have hexec : exec (.reset tag) s =
      .next (s.ready.resetBlocks.resetAnswered (s.flu.outbound.take 1) ⟨tag, s.rqu.entries.length⟩) := by
    show Host.Outcome.next (s.arrive _ _) = _
    rw [State.arrive_of_takesFrames htakes, State.judgeReset_free (s := s.ready) hawaits]
    rfl
  have hall : s.ready.endedAtReset = ended := hended.symm
  have hreads (b : Nat) : s.ready.readsAtReset b = ended.countP fun o => decide (o.bandRead = some b) := by
    rw [State.readsAtReset, hall]
  generalize s.ready.resetBlocks = p at h hexec
  obtain ⟨hrqu, hmpt, hcle, hqual, hwindows, hnotices, hctl, hseq, hlgn, hzones, hreserve, hrefresh, hcount⟩ := h.fields
  obtain ⟨hheld, hreqs, hwait, hfold⟩ := h.quiet
  have hport {α : Type} (f : Mpt → α) : f p.mpt = f s.ready.resetStart.mpt := congrArg f hmpt
  refine ⟨_, hexec, rfl, rfl, hrqu, hport Mpt.up, hport Mpt.stage, hport Mpt.op, hport Mpt.failures, hport Mpt.causes,
    hport Mpt.latched, hport Mpt.orderNo, h.mask, hcle, hqual, h.enables, fun w hw => ?_, hnotices, congrArg Ctl.mode hctl,
    congrArg Ctl.imageLoad hctl, congrArg Ctl.quiesceTag hctl, hheld, hreqs, hwait, hfold, h.entries hmap, h.map_kept,
    h.records, hseq, hlgn, hzones, hreserve, hrefresh, hcount, fun b bd hb hst => ?_, fun v bd hv hb hst => ?_,
    fun q bd hq hb hst => h.band_qualifying hq hb hst, fun n => ⟨(h.range n).1, (h.range n).2, h.gone n, ?_, h.recovery n,
      (h.settled n).pending, (h.settled n).waits, ?_, ?_⟩⟩
  · have hwin : p.evu.windows[w.val] = ({} : Evu).windows[w.val] := by rw [hwindows]
    exact hwin.trans (Vector.getElem_replicate ..)
  · rw [← hreads]
    exact h.band_full hb hst
  · rw [← hreads]
    exact h.band_victim hv hb hst
  · rw [← hall]
    exact h.head n
  · rw [← hall]
    exact h.idle
  · intro before o after b w bd hsplit hon hothers ho hm hw hb hst hle hhi htorn
    obtain ⟨bd', hband, -, huntouched, htouched⟩ :=
      h.torn hbands (hall.trans hsplit) hon hothers ho hm hw hb hst hle hhi htorn
    exact ⟨bd', hband, huntouched, htouched⟩

end Sys2Proof.Machine
end

section
namespace Sys2Proof.Machine

/-! ### The granule map through the port's steps and the reset (log entry 3)

The blocks' own work keeps the map canonical (`BlockWork.map`). The port, the requests and the link leave the map alone
besides, so that a change of another record alone is seen by no proof here; FORMAT, a commit and a power-on reset build
the map anew. -/

namespace State.MapCanonical
variable {s t : State}

theorem work (h : s.MapCanonical) (hw : BlockWork s t) : t.MapCanonical := hw.map h

theorem finish (h : s.MapCanonical) (tag : Nat) (st : Status) (fs : List Field) : (s.finish tag st fs).MapCanonical :=
  work h (State.finish_work (.refl _) ..)

theorem raise (h : s.MapCanonical) (e : EventFlag) (d : Nat) : (s.raise e d).MapCanonical :=
  work h (State.raise_work (.refl _) ..)

theorem reportOutcome (h : s.MapCanonical) (o : MediaOp) (out : Outcome) : (s.reportOutcome o out).MapCanonical :=
  work h (State.reportOutcome_work (.refl _) ..)

theorem pumpAll (h : s.MapCanonical) : s.pumpAll.MapCanonical := work h (State.pumpAll_work (.refl _))

theorem judgeQualStop (h : s.MapCanonical) : s.judgeQualStop.MapCanonical := work h (State.judgeQualStop_work (.refl _))

theorem reportUnrecovered (h : s.MapCanonical) (o : MediaOp) : (s.reportUnrecovered o).MapCanonical := by
  obtain ⟨hgmu, -⟩ := s.reportUnrecovered_frame o
  rw [State.MapCanonical, hgmu]
  exact h

theorem endOp (h : s.MapCanonical) (o : MediaOp) (out : Outcome) : (s.endOp o out).MapCanonical :=
  reportOutcome (s := s.portIdle) h ..

theorem stopOp (h : s.MapCanonical) (o : MediaOp) : (s.stopOp o).MapCanonical := by
  have hq : ((s.endOp o .stopped).requeueHead o.remainder).MapCanonical := endOp h ..
  unfold State.stopOp
  dsimp only
  split
  · exact judgeQualStop hq
  · exact hq

theorem portDown (h : s.MapCanonical) (o : MediaOp) : (s.portDown o).MapCanonical := by
  have hlatch {t : State} (ht : t.MapCanonical) : t.latchDown.MapCanonical :=
    raise (s := { t with mpt := { t.mpt with latched := t.mpt.latched ||| t.mpt.causes } }) ht ..
  unfold State.portDown
  dsimp only
  refine pumpAll (hlatch (work ?_ (State.qualDown_work (State.cleDown_work (State.sluDown_work
    (State.raiseEnded_work (State.swrDown_work (State.reportAll_work (State.reportOutcome_work (.refl _) ..) ..)) ..)
    _)))))
  exact h

theorem failOp (h : s.MapCanonical) (o : MediaOp) (c : Cause) (out : Outcome) : (s.failOp o c out).MapCanonical := by
  unfold State.failOp
  dsimp only
  split
  · exact portDown (s := s.countFailure c) h o
  · exact endOp (s := s.countFailure c) h ..

theorem portUp (h : s.MapCanonical) : s.portUp.MapCanonical := by
  have hgo {t : State} (ht : t.MapCanonical) : t.pumpAll.reissueBatch.MapCanonical :=
    work (pumpAll ht) (State.reissueBatch_work (.refl _))
  unfold State.portUp
  dsimp only
  split
  · refine hgo (finish ?_ ..)
    exact h
  · exact hgo h

theorem probeFailed (h : s.MapCanonical) : s.probeFailed.MapCanonical := by
  unfold State.probeFailed
  dsimp only
  split
  · refine finish ?_ ..
    exact h
  · exact h

theorem keepSending (h : s.MapCanonical) (l : List OutFrame) : (s.keepSending l).MapCanonical := h

theorem resetReply (h : s.MapCanonical) (w : ResetWait) : (s.resetReply w).MapCanonical := h

theorem resetAborted (h : s.MapCanonical) (o : MediaOp) (w : ResetWait) (l : List OutFrame) :
    (s.resetAborted o w l).MapCanonical := by
  have hp := pumpAll (reportOutcome (s := s.mptTakesReset) h o .aborted)
  exact resetReply (keepSending hp l) w

theorem completeOp (h : s.MapCanonical) (o : MediaOp) : (s.completeOp o).MapCanonical :=
  endOp (s := s.countSuccess) h ..

theorem finishRun (h : s.MapCanonical) (o : MediaOp) (a : Answer) : (s.finishRun o a).MapCanonical := by
  unfold State.finishRun
  split
  case h_1 => exact completeOp h o
  case h_2 => exact stopOp h o
  case h_3 =>
    unfold State.readUnrecovered
    dsimp only
    split
    · exact reportUnrecovered h o
    · exact endOp (reportUnrecovered h o) ..
  case h_4 => exact endOp h ..
  case h_5 =>
    unfold State.servoLost
    split
    · exact failOp h ..
    · exact h

theorem timedOut (h : s.MapCanonical) (o : MediaOp) : (s.timedOut o).MapCanonical := by
  unfold State.timedOut
  split
  · exact endOp h ..
  split
  · exact endOp h ..
  split
  · exact h
  · exact endOp h ..

theorem abortAnswered (h : s.MapCanonical) (o : MediaOp) (a : Answer) (d : Nat) :
    (s.abortAnswered o a d).MapCanonical := by
  have hs : (if a = .unrecovered then s.reportUnrecovered o else s).MapCanonical := by
    split
    · exact reportUnrecovered h o
    · exact h
  unfold State.abortAnswered
  dsimp only
  split
  · exact resetAborted hs ..
  · unfold State.finishAbort
    split
    · exact completeOp hs o
    · exact timedOut hs _

theorem finishOp (h : s.MapCanonical) (o : MediaOp) (a : Answer) (done x : Nat) :
    (s.finishOp o a done x).MapCanonical := by
  unfold State.finishOp
  dsimp only
  split
  case h_1 => exact finishRun (s := s.claim o) h ..
  case h_2 => exact finishRun h ..
  case h_3 => exact abortAnswered h ..
  all_goals exact h

theorem abortUnanswered (h : s.MapCanonical) (o : MediaOp) : (s.abortUnanswered o).MapCanonical := by
  unfold State.abortUnanswered
  split
  · exact resetAborted h ..
  split
  · exact failOp h ..
  · exact failOp h ..

theorem deferred (h : s.MapCanonical) (o : MediaOp) : (s.deferred o).MapCanonical := by
  unfold State.deferred
  split
  · exact h
  · exact failOp h ..

/-! #### RESET -/

theorem mptReset (h : s.MapCanonical) : s.mptReset.MapCanonical := by
  unfold State.mptReset
  split
  · dsimp only
    split <;> exact h
  · exact h

theorem cleReset (h : s.MapCanonical) : s.cleReset.MapCanonical := by
  obtain ⟨⟨b, hb, -⟩, -⟩ := s.cleReset_spec
  rw [State.MapCanonical, hb]
  exact h

theorem resetBlocks (h : s.MapCanonical) : s.resetBlocks.MapCanonical := by
  have hctl {t : State} (ht : t.MapCanonical) : t.ctlReset.MapCanonical := ht
  unfold State.resetBlocks
  dsimp only
  refine pumpAll (hctl (work (cleReset (work (mptReset ?_) (State.sluReset_work (State.swrReset_work
    (State.reportAll_work (.refl _) _ _))))) (State.qualReset_work (.refl _))))
  exact h

theorem judgeReset (h : s.MapCanonical) (tag : Nat) : (s.judgeReset tag).MapCanonical := by
  have hb := keepSending (resetBlocks h) (s.flu.outbound.take 1)
  unfold State.judgeReset
  dsimp only
  generalize s.resetBlocks.keepSending (s.flu.outbound.take 1) = u at hb ⊢
  split <;> exact hb

end State.MapCanonical

end Sys2Proof.Machine
end

section
namespace Sys2Proof.Machine

/-! ### The granule map through the judgement of a frame (R60, R186, R193) -/

namespace State.MapCanonical
variable {s t : State}

theorem refuse (h : s.MapCanonical) (tag : Nat) (st : Status) : (s.refuse tag st).MapCanonical := finish h ..

theorem judgeRequest (h : s.MapCanonical) (code tag : Nat) {own : State → State}
    (ho : ∀ {t : State}, t.MapCanonical → (own t).MapCanonical) : (s.judgeRequest code tag own).MapCanonical := by
  unfold State.judgeRequest
  split
  · exact h
  split
  · exact h
  · exact ho (t := s.admitRequest code tag) h

theorem inState (h : s.MapCanonical) (x : TakenIn) (tag : Nat) {own : State → State}
    (ho : ∀ {t : State}, t.MapCanonical → (own t).MapCanonical) : (s.inState x tag own).MapCanonical := by
  unfold State.inState
  split
  · exact ho h
  · exact refuse h ..

/-- A request that a controller state takes or refuses (R167, R185). -/
theorem judgeTaken (h : s.MapCanonical) (code tag : Nat) (x : TakenIn) {own : State → State}
    (ho : ∀ {t : State}, t.MapCanonical → (own t).MapCanonical) :
    (s.judgeRequest code tag fun t => t.inState x tag own).MapCanonical :=
  judgeRequest h _ _ fun ht => inState ht _ _ ho

theorem arrive (h : s.MapCanonical) (i : Instr) {judge : State → State}
    (hj : ∀ {t : State}, t.MapCanonical → (judge t).MapCanonical) : (s.arrive i judge).MapCanonical := by
  unfold State.arrive
  split
  · exact hj (t := s.ready) h
  · exact h

theorem enterOrdering (h : s.MapCanonical) (tag : Nat) (f : Nat → Entry → Entry) :
    (s.enterOrdering tag f).MapCanonical := by
  unfold State.enterOrdering State.takeSequence
  split
  · rename_i hs
    split at hs
    · obtain ⟨rfl, rfl⟩ := Prod.mk.inj (Option.some.inj hs)
      exact h
    · cases hs
  · exact refuse h ..

theorem storeOwn (h : s.MapCanonical) (tag lgn first count stream : Nat) (payload : List Sector) :
    (s.storeOwn tag lgn first count stream payload).MapCanonical := by
  unfold State.storeOwn
  split
  · exact refuse h ..
  split
  · exact refuse h ..
  · dsimp only
    split
    · exact refuse (s := s.markClamped tag _) h ..
    · exact enterOrdering (s := s.markClamped tag _) h ..

theorem fetchOwn (h : s.MapCanonical) (tag lgn first count : Nat) : (s.fetchOwn tag lgn first count).MapCanonical := by
  unfold State.fetchOwn
  split
  · exact refuse h ..
  split
  · exact refuse h ..
  · exact h

theorem discardOwn (h : s.MapCanonical) (tag lgn count : Nat) : (s.discardOwn tag lgn count).MapCanonical := by
  unfold State.discardOwn
  split
  · exact refuse h ..
  · exact enterOrdering (s := s.markClamped tag _) h ..

theorem streamSetOwn (h : s.MapCanonical) (tag stream lo hi : Nat) : (s.streamSetOwn tag stream lo hi).MapCanonical := by
  unfold State.streamSetOwn
  split
  · exact refuse h ..
  · refine finish ?_ ..
    exact h

theorem pacerSetOwn (h : s.MapCanonical) (tag mode running option reload : Nat) :
    (s.pacerSetOwn tag mode running option reload).MapCanonical := by
  unfold State.pacerSetOwn
  split
  · refine finish ?_ ..
    exact h
  · exact refuse h ..

theorem maskSetOwn (h : s.MapCanonical) (tag mask threshold timeout : Nat) :
    (s.maskSetOwn tag mask threshold timeout).MapCanonical := by
  unfold State.maskSetOwn
  split
  · refine finish ?_ ..
    exact h
  · exact refuse h ..

theorem eventEnableOwn (h : s.MapCanonical) (tag set : Nat) : (s.eventEnableOwn tag set).MapCanonical := by
  unfold State.eventEnableOwn
  split
  · rename_i e _
    have hf := finish (s := s.setEnables e) h tag .done [.num 2 e.toNat, .num 2 0]
    dsimp only
    split <;> exact hf
  · exact refuse h ..

theorem eventAckOwn (h : s.MapCanonical) (tag set : Nat) : (s.eventAckOwn tag set).MapCanonical := by
  unfold State.eventAckOwn
  split
  · refine finish ?_ ..
    unfold State.acknowledge
    dsimp only
    split <;> exact h
  · exact refuse h ..

theorem judgeInspect (h : s.MapCanonical) (x : TakenIn) (tag : Nat) (report : State → Option (List Field)) :
    (s.judgeInspect x tag report).MapCanonical := by
  unfold State.judgeInspect
  refine judgeTaken h _ _ _ fun ht => ?_
  split
  · exact finish ht ..
  · exact refuse ht ..

/-- A FORMAT builds an empty map (R186). -/
theorem formatOwn (h : s.MapCanonical) (tag lgnCount reserve : Nat) (area : AreaDesc) (zones : List ZoneDesc)
    (retired : List Nat) : (s.formatOwn tag lgnCount reserve area zones retired).MapCanonical := by
  unfold State.formatOwn
  split
  · refine finish ?_ ..
    rfl
  · exact refuse h ..

theorem judgeQuiet (h : s.MapCanonical) : s.judgeQuiet.MapCanonical := by
  obtain ⟨-, -, -, hgmu, -⟩ := s.judgeQuiet_frame
  rw [State.MapCanonical, hgmu]
  exact h

theorem quiesceOwn (h : s.MapCanonical) (tag : Nat) : (s.quiesceOwn tag).MapCanonical := by
  unfold State.quiesceOwn
  split
  · exact refuse h ..
  · refine judgeQuiet (work ?_ (State.stopQual_work (State.cleQuiescing_work (.refl _)) none))
    exact h
  · exact refuse h ..
  · exact finish h ..

/-- The map a commit builds lists an image's entries in rising LGN, those never written left out (R60, R193). -/
theorem imageCommitOwn (h : s.MapCanonical) (tag : Nat) : (s.imageCommitOwn tag).MapCanonical := by
  unfold State.imageCommitOwn
  split
  · split
    · refine finish ?_ ..
      exact tableWf_sparseFrom 0 _
    · exact refuse (s := s.setLoad none) h ..
  · exact refuse h ..

theorem imageReadOwn (h : s.MapCanonical) (tag index : Nat) : (s.imageReadOwn tag index).MapCanonical := by
  unfold State.imageReadOwn
  exact iteInduction (fun _ => finish h ..) (fun _ => refuse h ..)

/-- The judgement's steps are opened one at a time: `judgeTaken` would have the kernel compute the image's length. -/
theorem judgeImageRead (h : s.MapCanonical) (tag index : Nat) : (s.judgeImageRead tag index).MapCanonical := by
  rw [State.judgeImageRead, State.judgeRequest]
  split
  · exact h
  split
  · exact h
  rw [State.inState]
  split
  · exact imageReadOwn (s := s.admitRequest _ tag) h ..
  · exact refuse (s := s.admitRequest _ tag) h ..

theorem imageWriteOwn (h : s.MapCanonical) (tag index : Nat) (chunk : Chunk) :
    (s.imageWriteOwn tag index chunk).MapCanonical := by
  have hset (l : Option ImageLoad) : (s.setLoad l).MapCanonical := h
  unfold State.imageWriteOwn
  exact iteInduction (fun _ => finish (hset _) ..) (fun _ => refuse (hset _) ..)

theorem mediaRestartOwn (h : s.MapCanonical) (tag : Nat) : (s.mediaRestartOwn tag).MapCanonical := by
  unfold State.mediaRestartOwn
  split
  · exact finish h ..
  split
  · exact refuse h ..
  · exact h

theorem judgeGood (h : s.MapCanonical) (i : Instr) : (s.judgeGood i).MapCanonical := by
  cases i
  case store => exact judgeTaken h _ _ _ fun ht => storeOwn ht ..
  case fetch => exact judgeTaken h _ _ _ fun ht => fetchOwn ht ..
  case discard => exact judgeTaken h _ _ _ fun ht => discardOwn ht ..
  case fold => exact judgeTaken h _ _ _ fun ht => work ht (State.foldOwn_work (.refl _) ..)
  case clean => exact judgeTaken h _ _ _ fun ht => work ht (State.cleanOwn_work (.refl _) ..)
  case qualify => exact judgeTaken h _ _ _ fun ht => work ht (State.qualifyOwn_work (.refl _) ..)
  case qualifyStop => exact judgeTaken h _ _ _ fun ht => work ht (State.qualifyStopOwn_work (.refl _) _)
  case streamSet => exact judgeTaken h _ _ _ fun ht => streamSetOwn ht ..
  case pacerSet => exact judgeTaken h _ _ _ fun ht => pacerSetOwn ht ..
  case maskSet => exact judgeTaken h _ _ _ fun ht => maskSetOwn ht ..
  case watchSet => exact judgeTaken h _ _ _ fun ht => work ht (State.watchSetOwn_work (.refl _) ..)
  case watchClear => exact judgeTaken h _ _ _ fun ht => work ht (State.watchClearOwn_work (.refl _) ..)
  case eventEnable => exact judgeTaken h _ _ _ fun ht => eventEnableOwn ht ..
  case eventAck => exact judgeTaken h _ _ _ fun ht => eventAckOwn ht ..
  case format => exact judgeTaken h _ _ _ fun ht => formatOwn ht ..
  case quiesce => exact judgeRequest h _ _ fun ht => quiesceOwn ht _
  case resume => exact judgeTaken h _ _ _ fun {t} ht => finish (s := t.setMode .online) ht ..
  case imageRead => exact judgeImageRead h ..
  case imageWrite => exact judgeTaken h _ _ _ fun ht => imageWriteOwn ht ..
  case imageCommit => exact judgeTaken h _ _ _ fun ht => imageCommitOwn ht _
  case mediaRestart => exact judgeTaken h _ _ _ fun ht => mediaRestartOwn ht _
  case reset => exact judgeReset h _
  case badRequest => exact h
  case inspectZone | inspectBand | inspectGranule | inspectPool | inspectStream | inspectLog | inspectCleaner
      | inspectQualification | inspectPort | inspectLink | inspectEvent | inspectController =>
    exact judgeInspect h ..
  all_goals exact h

/-- A good frame is judged at its arrival, or waits (R163, R165). -/
theorem arriveGood (h : s.MapCanonical) (i : Instr) : (s.arrive i fun t => t.judgeGood i).MapCanonical :=
  arrive h _ fun ht => judgeGood ht _

theorem frameError (h : s.MapCanonical) : s.frameError.MapCanonical := by
  refine raise ?_ ..
  exact h

theorem assembleFor (h : s.MapCanonical) (fuel : Nat) (bs : List Byte) : (assembleFor fuel s bs).MapCanonical := by
  induction fuel generalizing s bs with
  | zero => exact h
  | succ fuel ih =>
    have hset (a : Assembler) (l : List Byte) : (s.setAssembler a l).MapCanonical := h
    unfold Machine.assembleFor
    split
    · split
      · exact ih (hset ..) _
      · exact hset ..
    · split
      · split
        · exact hset ..
        · exact ih (frameError h) _
        · exact ih (frameError h) _
        · exact ih (arriveGood h _) _
      · exact hset ..
    · split
      · split
        · exact ih (hset ..) _
        · exact ih (frameError h) _
      · exact hset ..
      · exact hset ..

theorem assemble (h : s.MapCanonical) (bs : List Byte) : (s.assemble bs).MapCanonical := assembleFor h ..

theorem discardFrame (h : s.MapCanonical) : s.discardFrame.MapCanonical := assemble (frameError h) _

theorem queueFrames (h : s.MapCanonical) (l : List Instr) : (s.queueFrames l).MapCanonical := by
  unfold State.queueFrames
  split <;> exact h

end State.MapCanonical

end Sys2Proof.Machine
end

section
namespace Sys2Proof.Machine

/-! ### The granule map through every command -/

theorem State.MapCanonical.placeSector {s : State} (h : s.MapCanonical) (o : MediaOp) (j : Nat) (x : Sector) :
    (s.placeSector o j x).MapCanonical := by
  unfold State.placeSector State.placeEntry
  repeat' split
  all_goals exact h

/-- Every command keeps the map canonical. -/
theorem exec_keeps_mapCanonical {i : Instr} {s t : State} (h : s.MapCanonical) (hexec : exec i s = .next t) :
    t.MapCanonical := by
  open State.MapCanonical in
  cases i
  all_goals obtain rfl := Host.Outcome.next.inj hexec
  case powerOnReset => rfl
  case msTick => exact h
  case pacerUnderflow | markerFound | frameSent | watchNoticeTaken | completionLimitExpiry =>
    split <;> exact h
  case reissueDelayExpiry | accepted | headGrant =>
    repeat' split
    all_goals exact h
  case badMarker =>
    split
    · exact frameError h
    · exact h
  case overlength | badCheck | frameLimitExpiry =>
    split
    · exact discardFrame h
    · exact h
  case deferredFrameTaken =>
    split
    · split
      · refine queueFrames (assemble (judgeGood ?_ _) _) _
        exact h
      · exact h
    · exact h
  case holdExpiry =>
    split
    · exact finish h ..
    · exact h
  case claimLimitExpiry =>
    split
    · split
      · exact failOp (s := s.sendAbort) h ..
      · exact h
    · exact h
  case abortLimitExpiry =>
    split
    · split
      · exact abortUnanswered h _
      · exact h
    · exact h
  case probeLimitExpiry =>
    split
    · exact probeFailed h
    · exact h
  case defer =>
    split
    · split
      · exact deferred h _
      · exact h
    · exact h
  case finished =>
    split
    · split
      · split
        · exact finishOp h ..
        · split
          · unfold State.probeAnswered
            split
            · exact portUp h
            · exact probeFailed h
          · exact h
      · exact h
    · exact h
  case data =>
    split
    · split
      · split
        · exact placeSector h ..
        · exact h
      · exact h
    · exact h
  case requestStart =>
    split
    · exact work h (State.handToOwner_work (State.updEntry_work (.refl s) ..) _)
    · exact h
  case pressureRelease =>
    split
    · exact work h (State.release_work (.refl _) _ fun k e => State.takeStore_work k e)
    · exact h
  case logRelease =>
    split
    · exact work h (State.release_work (.refl _) _ fun k e => State.takePartial_work k e)
    · exact h
  case openWaitGrant =>
    split
    · split
      · exact h
      · exact work h (State.pump_work (State.grantOpen_work ((BlockWork.refl s).of_btu ..) _) _)
    · exact h
  case bandReset =>
    split
    · exact h
    split
    · exact work h (State.victimEnd_work (State.resetBand_work (.refl _) _) _ _)
    · exact h
  case quiesceComplete => exact judgeQuiet h
  case foldChoice =>
    split
    · exact work h (State.startFold_work (.refl _) _)
    · exact h
  case victimChoice =>
    have hc (own : Bool) : (s.choose own s.cle.hostList).MapCanonical := work h (State.choose_work (.refl _) ..)
    split
    · split
      · exact hc _
      · exact hc _
      · exact h
      · exact h
    · exact h
  case batchStart =>
    split
    · exact work h (State.startBatch_work (.refl _))
    · exact h
  all_goals exact arriveGood h _

/-- Settles O4: the front command is carried out on a state with the same map. -/
theorem step_keeps_map_canonical : Obligations.Step_keeps_map_canonical := by
  intro s t h hstep
  unfold step at hstep
  split at hstep
  · obtain rfl := Host.Outcome.next.inj hstep
    exact h
  · rename_i rest _
    exact exec_keeps_mapCanonical (s := s.withPending rest) h hstep

end Sys2Proof.Machine
end

section
namespace Sys2Proof.Machine

/-! ### Ranges and sequences (R44, R169) -/

section
variable {s : State} {tag lgn first count stream : Nat} {payload : List Sector}

theorem sectorRange_inside (hf : first ≤ 15) (hc : 1 ≤ count) :
    sectorRange first count = some (first, min count (16 - first)) := by
  rw [sectorRange, if_neg (by omega)]

theorem sectorRange_outside (h : 15 < first ∨ count = 0) : sectorRange first count = none := if_pos h

/-- A range is changed exactly where it passes the granule's end (R169). -/
theorem decide_count_clamped (hf : first ≤ 15) : decide (min count (16 - first) ≠ count) = decide (16 < first + count) :=
  decide_eq_decide.2 (by omega)

/-- `s` with the next placement sequence taken (R44). -/
def State.sequenced (s : State) : State := { s with gmu := { s.gmu with sequence := s.gmu.sequence + 1 } }

theorem State.enterOrdering_taken (h : s.gmu.sequence < Config.counterMax) (f : Nat → Entry → Entry) :
    s.enterOrdering tag f = s.sequenced.updEntry tag (f s.gmu.sequence) := by
  rw [State.enterOrdering, State.takeSequence, if_pos h]
  rfl

theorem State.enterOrdering_refused (h : Config.counterMax ≤ s.gmu.sequence) (f : Nat → Entry → Entry) :
    s.enterOrdering tag f = s.refuse tag .wrongState := by
  rw [State.enterOrdering, State.takeSequence, if_neg (Nat.not_lt.2 h)]

/-! ### The entry of an admitted request as its judgement fills it (R166, R170) -/

theorem State.updEntry_admit {code : Nat} (ht : ∀ e ∈ s.rqu.entries, e.tag ≠ tag) (f : Entry → Entry) :
    (s.ready.admitRequest code tag).updEntry tag f = s.entered (f (s.plainEntry code tag)) :=
  State.updEntry_last (t := s.ready.admitRequest code tag) (e := s.plainEntry code tag) rfl ht rfl f

/-- A request that takes a sequence holds its mark and what ordering fills its entry with (R44, R161, R170). -/
theorem State.enterOrdering_admit {code : Nat} (ht : ∀ e ∈ s.rqu.entries, e.tag ≠ tag)
    (hseq : s.gmu.sequence < Config.counterMax) (c : Bool) (f : Nat → Entry → Entry) :
    ((s.ready.admitRequest code tag).markClamped tag c).enterOrdering tag f =
      s.sequenced.entered (f s.gmu.sequence { s.plainEntry code tag with clamped := c }) := by
  rw [State.markClamped, State.updEntry_admit ht,
    State.enterOrdering_taken (s := s.entered { s.plainEntry code tag with clamped := c }) hseq]
  exact State.updEntry_last (t := (s.entered { s.plainEntry code tag with clamped := c }).sequenced) rfl ht rfl _

/-- A request that finds the sequence counter at its maximum is refused with its mark (R44, log entry 20). -/
theorem State.enterOrdering_admit_refused {code : Nat} (ht : ∀ e ∈ s.rqu.entries, e.tag ≠ tag)
    (hseq : Config.counterMax ≤ s.gmu.sequence) (c : Bool) (f : Nat → Entry → Entry) :
    ((s.ready.admitRequest code tag).markClamped tag c).enterOrdering tag f = s.answered code tag c .wrongState [] := by
  rw [State.enterOrdering_refused (s := (s.ready.admitRequest code tag).markClamped tag c) hseq]
  exact State.finish_markClamped_admit ht ..

/-! ### STORE (R169) -/

theorem exec_store_taken (h : s.admitsTag tag) (hm : s.ctl.mode = .online) :
    exec (.store tag lgn first count stream payload) s =
      .next ((s.ready.admitRequest codeStore tag).storeOwn tag lgn first count stream payload) :=
  congrArg Host.Outcome.next (State.arrive_taken h (taken := takenData) (by rw [hm]; rfl) _ _ _)

theorem State.storeOwn_refused (h : s.gmu.lgnCount ≤ lgn ∨ 8 ≤ stream ∨ 15 < first ∨ count = 0) :
    s.storeOwn tag lgn first count stream payload = s.refuse tag .badArgument := by
  unfold State.storeOwn
  split
  · rfl
  · rw [sectorRange_outside (by omega)]

/-- A STORE whose range passes carries its mark from there on (R169, log entry 20). -/
theorem State.storeOwn_clamped (hl : lgn < s.gmu.lgnCount) (hst : stream < 8) (hf : first ≤ 15) (hc : 1 ≤ count) :
    s.storeOwn tag lgn first count stream payload =
      if payload.length < min count (16 - first) then
        (s.markClamped tag (decide (16 < first + count))).refuse tag .badArgument
      else (s.markClamped tag (decide (16 < first + count))).enterOrdering tag fun p e =>
        { e with
          lgns := some (lgn, lgn), range := some (first, min count (16 - first)), sequence := some p, stream := stream
          phase := .waiting, buffer := placeSectors e.buffer first (payload.take (min count (16 - first))) } := by
  rw [State.storeOwn, if_neg (by omega), sectorRange_inside hf hc]
  dsimp only
  rw [decide_count_clamped hf]

/-! ### FETCH and DISCARD (R169) -/

theorem exec_fetch_taken (h : s.admitsTag tag) (hm : s.ctl.mode = .online) :
    exec (.fetch tag lgn first count) s =
      .next ((s.ready.admitRequest codeFetch tag).fetchOwn tag lgn first count) :=
  congrArg Host.Outcome.next (State.arrive_taken h (taken := takenData) (by rw [hm]; rfl) _ _ _)

theorem exec_discard_taken (h : s.admitsTag tag) (hm : s.ctl.mode = .online) :
    exec (.discard tag lgn count) s = .next ((s.ready.admitRequest codeDiscard tag).discardOwn tag lgn count) :=
  congrArg Host.Outcome.next (State.arrive_taken h (taken := takenData) (by rw [hm]; rfl) _ _ _)

theorem State.fetchOwn_refused (h : s.gmu.lgnCount ≤ lgn ∨ 15 < first ∨ count = 0) :
    s.fetchOwn tag lgn first count = s.refuse tag .badArgument := by
  unfold State.fetchOwn
  split
  · rfl
  · rw [sectorRange_outside (by omega)]

theorem State.fetchOwn_clamped (hl : lgn < s.gmu.lgnCount) (hf : first ≤ 15) (hc : 1 ≤ count) :
    s.fetchOwn tag lgn first count = s.updEntry tag fun e =>
      { e with
        lgns := some (lgn, lgn), range := some (first, min count (16 - first))
        clamped := decide (16 < first + count), phase := .waiting } := by
  rw [State.fetchOwn, if_neg (Nat.not_le.2 hl), sectorRange_inside hf hc]
  dsimp only
  rw [decide_count_clamped hf]

theorem State.discardOwn_refused (h : s.gmu.lgnCount ≤ lgn ∨ count = 0 ∨ 65536 < count) :
    s.discardOwn tag lgn count = s.refuse tag .badArgument := if_pos h

/-- A DISCARD whose range passes carries its mark from there on: its last LGN was brought back to the map's end (R169,
log entry 20). -/
theorem State.discardOwn_clamped (hl : lgn < s.gmu.lgnCount) (hc : 1 ≤ count) (hk : count ≤ 65536) :
    s.discardOwn tag lgn count =
      (s.markClamped tag (decide (s.gmu.lgnCount < lgn + count))).enterOrdering tag fun p e =>
        { e with
          lgns := some (lgn, min (lgn + count - 1) (s.gmu.lgnCount - 1)), sequence := some p, phase := .waiting } := by
  have hbrought : decide (min (lgn + count - 1) (s.gmu.lgnCount - 1) ≠ lgn + count - 1)
      = decide (s.gmu.lgnCount < lgn + count) := decide_eq_decide.2 (by omega)
  rw [State.discardOwn, if_neg (by simp only [discardLimit]; omega)]
  dsimp only
  rw [hbrought]

end

/-! ### The requests' arrival (R44, R169, R170) -/

/-- Settles O14: the judgement's own branches on the admitted entry. -/
theorem store_arrival_result : Obligations.Store_arrival_result := by
  unfold Obligations.Store_arrival_result
  refine ⟨fun s tag lgn first count stream payload h hm hl hst hf hc hp hseq => ?taken,
    fun s tag lgn first count stream payload h hm => ?refused⟩
  case taken =>
    obtain ⟨-, -, htag⟩ := id h
    rw [exec_store_taken h hm, State.storeOwn_clamped (s := s.ready.admitRequest codeStore tag) hl hst hf hc,
      if_neg (Nat.not_lt.2 hp), State.enterOrdering_admit htag hseq]
    rfl
  case refused =>
    obtain ⟨-, -, htag⟩ := id h
    rw [exec_store_taken h hm]
    refine ⟨fun hbad => ?_, fun hl hst hf hc hp => ?_, fun hl hst hf hc hp hseq => ?_⟩
    · rw [State.storeOwn_refused (s := s.ready.admitRequest codeStore tag) hbad, State.refuse, State.finish_admit htag]
    · rw [State.storeOwn_clamped (s := s.ready.admitRequest codeStore tag) hl hst hf hc, if_pos hp, State.refuse,
        State.finish_markClamped_admit htag]
    · rw [State.storeOwn_clamped (s := s.ready.admitRequest codeStore tag) hl hst hf hc, if_neg (Nat.not_lt.2 hp),
        State.enterOrdering_admit_refused htag hseq]

/-- Settles O15: the judgements' own branches on the admitted entries. -/
theorem fetch_discard_enter_ordering : Obligations.Fetch_discard_enter_ordering := by
  unfold Obligations.Fetch_discard_enter_ordering
  intro s tag lgn h hm
  obtain ⟨-, -, htag⟩ := id h
  refine ⟨fun first count => ?fetch, fun count => ?discard⟩
  case fetch =>
    rw [exec_fetch_taken h hm]
    refine ⟨fun hl hf hc => ?_, fun hbad => ?_⟩
    · rw [State.fetchOwn_clamped (s := s.ready.admitRequest codeFetch tag) hl hf hc, State.updEntry_admit htag]
    · rw [State.fetchOwn_refused (s := s.ready.admitRequest codeFetch tag) hbad, State.refuse, State.finish_admit htag]
  case discard =>
    rw [exec_discard_taken h hm]
    refine ⟨fun hl hc hk => ⟨fun hseq => ?_, fun hseq => ?_⟩, fun hbad => ?_⟩
    · rw [State.discardOwn_clamped (s := s.ready.admitRequest codeDiscard tag) hl hc hk,
        State.enterOrdering_admit htag hseq]
      rfl
    · rw [State.discardOwn_clamped (s := s.ready.admitRequest codeDiscard tag) hl hc hk,
        State.enterOrdering_admit_refused htag hseq]
      rfl
    · rw [State.discardOwn_refused (s := s.ready.admitRequest codeDiscard tag) hbad, State.refuse, State.finish_admit htag]

end Sys2Proof.Machine
end

section
namespace Sys2Proof.Machine

/-! ### Read data (R141, R148, R204) -/

section
variable {s : State} {o : MediaOp} (j : Nat) (content : Sector)

theorem State.placeSector_fetch {tag : Nat} (ho : o.origin = .fetchBand ∨ ∃ p, o.origin = .fetchRecord p)
    (ht : o.tag = some tag) :
    s.placeSector o j content = s.updEntry tag fun e => { e with buffer := granulePut e.buffer j content } := by
  unfold State.placeSector State.placeEntry
  obtain ho | ⟨p, ho⟩ := ho <;> rw [ho, ht]

theorem State.placeSector_foldRecord {p : Nat} {f : Fold} (ho : o.origin = .foldRecord p) (hf : s.slu.fold = some f) :
    s.placeSector o j content = { s with slu := { s.slu with
      fold := some (f.updSource p fun y => { y with buffer := granulePut y.buffer j content }) } } := by
  unfold State.placeSector State.placeFold
  rw [ho, hf]
  rfl

theorem State.placeSector_foldHome {f : Fold} (ho : o.origin = .foldHome) (hf : s.slu.fold = some f) :
    s.placeSector o j content = { s with slu := { s.slu with
      fold := some { f with homeBuffer := granulePut f.homeBuffer j content } } } := by
  unfold State.placeSector State.placeFold
  rw [ho, hf]
  rfl

theorem State.placeSector_cleanRead {slot : Nat} {v : Victim} (ho : o.origin = .cleanRead slot)
    (hv : s.cle.victim = some v) :
    s.placeSector o j content = { s with cle := { s.cle with
      victim := some (v.updEntry slot fun e => { e with buffer := granulePut e.buffer j content }) } } := by
  unfold State.placeSector State.placeClean
  rw [ho, hv]
  rfl

theorem State.placeSector_qual (ho : o.origin = .qual) : s.placeSector o j content = s.placeQual j content := by
  unfold State.placeSector
  rw [ho]

end

/-- Settles O52: a sector of the run has its place, and the owner of the run is the operation's origin. -/
theorem data_lands_in_owners_buffer : Obligations.Data_lands_in_owners_buffer := by
  unfold Obligations.Data_lands_in_owners_buffer
  intro s o n x j content hop hst hw hlo hhi hj
  have hexec : exec (.data n x content) s = .next (s.placeSector o j content) :=
    execData_placed hop hst (MediaOp.placeOf?_eq_some.2 ⟨hw, hlo, hhi, hj⟩) n content
  rw [hexec]
  refine ⟨fun tag ho ht => ?fetch, fun f hf => ⟨fun p ho => ?foldRecord, fun ho => ?foldHome⟩, fun v slot hv ho => ?clean,
    fun ho => ?qual⟩
  case fetch =>
    rw [State.placeSector_fetch j content ho ht]
    rfl
  case foldRecord =>
    rw [State.placeSector_foldRecord j content ho hf]
    rfl
  case foldHome =>
    rw [State.placeSector_foldHome j content ho hf]
    rfl
  case clean =>
    rw [State.placeSector_cleanRead j content ho hv]
    rfl
  case qual =>
    rw [State.placeSector_qual j content ho]
    rfl

end Sys2Proof.Machine
end

section
namespace Sys2Proof.Machine

/-! ### A GRANULE_LOST that stands while the cleaner goes on (R57, R177)

The cleaner's walk and the work on a stream's head raise other events alone. -/

/-- GRANULE_LOST is shown with this LGN. -/
def State.LossShown (lgn : Nat) (s : State) : Prop := s.evu.Shows .granuleLost lgn

namespace State.LossShown
variable {lgn : Nat} {s t : State}

theorem of_evu (h : s.LossShown lgn) (hevu : t.evu = s.evu) : t.LossShown lgn := by
  rw [State.LossShown, hevu]
  exact h

theorem raise (h : s.LossShown lgn) {e : EventFlag} (he : e ≠ .granuleLost) (d : Nat) : (s.raise e d).LossShown lgn := by
  rw [State.LossShown, State.raise_evu]
  exact Evu.set_other he h d

theorem raiseEnded (h : s.LossShown lgn) (rs : List Recovery) : (s.raiseEnded rs).LossShown lgn := by
  obtain ⟨v, out, heq, -, -, hshows⟩ := s.raiseEnded_eq rs
  rw [heq]
  exact hshows _ _ nofun h

theorem finish (h : s.LossShown lgn) (tag : Nat) (st : Status) (fs : List Field) : (s.finish tag st fs).LossShown lgn :=
  h.of_evu (State.finish_evu ..)

theorem countReaders (h : s.LossShown lgn) (o : MediaOp) : (s.countReaders o).LossShown lgn := by
  unfold State.countReaders
  cases o.bandRead <;> cases o.recordRead <;> exact h

theorem handOver (h : s.LossShown lgn) (o : MediaOp) : (s.handOver o).LossShown lgn := by
  unfold State.handOver
  refine countReaders ?_ _
  exact h

theorem handOverAll (h : s.LossShown lgn) (os : List MediaOp) : (s.handOverAll os).LossShown lgn :=
  Kept.foldl (P := State.LossShown lgn) (fun h o => h.handOver o) h os

theorem judgePressureOn (h : s.LossShown lgn) : s.judgePressureOn.LossShown lgn := by
  unfold State.judgePressureOn
  split
  · refine raise ?_ (by decide) _
    exact h
  · exact h

theorem grantOpen (h : s.LossShown lgn) (n : Fin 9) : (s.grantOpen n).LossShown lgn := by
  unfold State.grantOpen
  split
  · rename_i b spill _
    have hraise : (s.raiseSpill n spill).LossShown lgn := by
      unfold State.raiseSpill
      split
      · exact h.raise (by decide) _
      · exact h
    exact judgePressureOn (s := (s.raiseSpill n spill).openFor n b) hraise
  · exact h

theorem queueRun (h : s.LossShown lgn) (n : Fin 9) : (s.queueRun n).LossShown lgn := by
  obtain ⟨x, hx⟩ := s.queueRun_har n
  rw [hx]
  exact h

theorem pumpFor (h : s.LossShown lgn) (n : Fin 9) (fuel : Nat) : (s.pumpFor n fuel).LossShown lgn := by
  induction fuel generalizing s with
  | zero => exact h
  | succ fuel ih =>
    unfold State.pumpFor
    dsimp only
    split
    · exact h
    split
    · exact h
    split
    · split
      · refine ih ?_
        split <;> exact h
      split
      · exact h
      · exact ih (h.grantOpen n)
    · split
      · exact h
      split
      · refine ih ?_
        exact h
      · refine queueRun ?_ n
        exact h

theorem enqueue (h : s.LossShown lgn) (n : Fin 9) (items : List Item) : (s.enqueue n items).LossShown lgn := by
  refine raiseEnded (pumpFor ?_ n _) _
  exact h

theorem victimEnd (h : s.LossShown lgn) (v : Victim) (after : BandState) : (s.victimEnd v after).LossShown lgn := by
  unfold State.victimEnd
  dsimp only
  split
  · refine finish ?_ ..
    exact h
  · exact h

theorem walkEnd (h : s.LossShown lgn) (v : Victim) : (s.walkEnd v).LossShown lgn := by
  unfold State.walkEnd
  split
  · split
    · exact h
    · refine victimEnd (raise ?_ (by decide) _) _ _
      exact h
  · exact h

theorem handBatch (h : s.LossShown lgn) : s.handBatch.LossShown lgn := by
  unfold State.handBatch
  split
  · refine enqueue ?_ ..
    exact h
  · exact h

theorem gatherBatch (h : s.LossShown lgn) (v : Victim) (bd : Band) : (s.gatherBatch v bd).LossShown lgn := by
  unfold State.gatherBatch
  dsimp only
  split
  · exact h.walkEnd _
  · refine handBatch (handOverAll ?_ _)
    exact h

theorem startBatch (h : s.LossShown lgn) : s.startBatch.LossShown lgn := by
  unfold State.startBatch
  split
  · split
    · split
      · exact h.walkEnd _
      split
      · split
        · exact h
        · refine gatherBatch ?_ ..
          exact h
      · exact h.gatherBatch ..
    · exact h
  · exact h

theorem judgeBatch (h : s.LossShown lgn) : s.judgeBatch.LossShown lgn := by
  have hv (v : Victim) : (s.setVictim v).LossShown lgn := h
  unfold State.judgeBatch
  split
  · dsimp only
    split
    · split
      · exact (hv _).walkEnd _
      split
      · exact (hv _).startBatch
      · exact h
    · exact h
  · exact h

theorem cleanRunEnded (h : s.LossShown lgn) (slot : Nat) (f : BatchEntry → BatchEntry) :
    (s.cleanRunEnded slot f).LossShown lgn := by
  unfold State.cleanRunEnded
  split
  · split
    · refine judgeBatch (handBatch ?_)
      exact h
    · exact h
  · exact h

end State.LossShown

end Sys2Proof.Machine
end

section
namespace Sys2Proof.Machine

/-! ### An answer in RUNNING, and the run issued again (R148, R153, R155) -/

section
variable {s : State} {o : MediaOp}

/-- An answer of a run in RUNNING, by what it is taken as (R148). -/
theorem exec_finished_running {st d x : Nat} {a b : Answer} (hop : s.mpt.op = some o) (hst : s.mpt.stage = .running)
    (hcode : Answer.ofCode st = some a) (ht : a.taken o.isWrite s.mpt.order.count d = b) :
    exec (.finished s.mpt.order.number st d x) s =
      .next (s.finishRun { o with sectorsDone := o.doneAfter s.mpt.order b d x } b) := by
  simp only [exec_finished, execFinished, hcode, if_true, hop, State.finishOp, hst, ht]

theorem State.reportUnrecovered_work (s : State) (o : MediaOp) : BlockWork s (s.reportUnrecovered o) := by
  unfold State.reportUnrecovered
  split
  · exact State.unrecoveredReport_work (.refl _) _
  · exact .refl _

/-- A read in RUNNING with a retry left is issued again from its failing sector (R153). -/
theorem exec_finished_unrecovered_again {d x : Nat} (hop : s.mpt.op = some o) (hst : s.mpt.stage = .running)
    (hw : o.isWrite = false) (hret : o.retries < 8) (hlo : o.first ≤ x) (hhi : x < o.first + o.count) :
    exec (.finished s.mpt.order.number 2 d x) s = .next ((s.reportUnrecovered { o with sectorsDone := x - o.first }).issue
      { o with sectorsDone := x - o.first, retries := o.retries + 1 }) := by
  have htaken : Answer.unrecovered.taken o.isWrite s.mpt.order.count d = .unrecovered := by rw [hw]; rfl
  rw [exec_finished_running hop hst rfl htaken,
    show o.doneAfter s.mpt.order .unrecovered d x = x - o.first from MediaOp.doneBefore_inside ⟨hlo, hhi⟩]
  exact congrArg Host.Outcome.next (if_pos hret)

/-- A run in RUNNING is issued again at its first SERVO_LOST (R155). -/
theorem exec_finished_servoLost_again {d x : Nat} (hop : s.mpt.op = some o) (hst : s.mpt.stage = .running)
    (hservo : o.servoUsed = false) (hd : d ≤ s.mpt.order.count) :
    exec (.finished s.mpt.order.number 4 d x) s =
      .next (s.issue { o with sectorsDone := o.sectorsDone + d, servoUsed := true }) := by
  rw [exec_finished_running (a := .servoLost) (b := .servoLost) hop hst rfl rfl,
    show o.doneAfter s.mpt.order .servoLost d x = o.sectorsDone + d from congrArg _ (Nat.min_eq_left hd)]
  exact congrArg Host.Outcome.next (if_neg (by rw [hservo]; nofun))

/-! ### A cleaning read given up (R57, R120) -/

theorem State.reportOutcome_cleanRead {slot : Nat} (ho : o.origin = .cleanRead slot) :
    s.reportOutcome o .unrecovered = (s.endReaders o).cleanReadLost slot := by
  rw [State.reportOutcome, if_neg nofun, State.ownerOutcome, ho]
  rfl

theorem State.cleanReadLost_eq {slot : Nat} {v : Victim} {e : BatchEntry} (hv : s.cle.victim = some v)
    (he : (v.batch.find? fun y => decide (y.slot = slot)) = some e) :
    s.cleanReadLost slot =
      (s.lostReport e.lgn ⟨v.band, slot⟩).cleanRunEnded slot fun y => { y with unrecovered := true } := by
  simp only [State.cleanReadLost, hv, he]
  rfl

/-! ### A slot that stands through the end of a read (R37, R38) -/

namespace State.SlotStands
variable {b w : Nat} {st : BandState}

theorem of_bands {t : State} (h : s.SlotStands b w st) (hb : t.btu.bands = s.btu.bands) : t.SlotStands b w st := by
  obtain ⟨bd, hbd, hrest⟩ := h
  exact ⟨bd, (State.band?_congr hb b).trans hbd, hrest⟩

/-- A change of a band that keeps its state and its slots. -/
theorem updBand (h : s.SlotStands b w st) (k : Nat) {f : Band → Band} (hst : ∀ bd, (f bd).state = bd.state)
    (hsl : ∀ bd, (f bd).slots = bd.slots) : (s.updBand k f).SlotStands b w st := by
  obtain ⟨bd, hbd, hstate, htakes, hslot⟩ := h
  refine ⟨if k = b then f bd else bd, by rw [State.band?_updBand, hbd]; rfl, ?_⟩
  split
  · exact ⟨(hst bd).trans hstate, by simpa only [Band.takesReports, hst] using htakes, by rw [hsl]; exact hslot⟩
  · exact ⟨hstate, htakes, hslot⟩

theorem readEnd (h : s.SlotStands b w st) (k : Nat) : (s.readEnd k).SlotStands b w st :=
  h.updBand k (fun _ => by split <;> rfl) (fun _ => by split <;> rfl)

theorem unrecoveredReport (h : s.SlotStands b w st) (k : Nat) : (s.unrecoveredReport k).SlotStands b w st := by
  unfold State.unrecoveredReport
  split
  · rename_i bd _
    split
    · split
      · have hup := h.updBand k (f := fun x => { x with retry := 128, fatigue := min (bd.fatigue + 1) 3 }) (fun _ => rfl)
          fun _ => rfl
        exact hup.of_bands (by rw [State.raise_btu])
      · exact h.updBand k (fun _ => rfl) fun _ => rfl
    · exact h
  · exact h

theorem reportUnrecovered (h : s.SlotStands b w st) (o : MediaOp) : (s.reportUnrecovered o).SlotStands b w st := by
  unfold State.reportUnrecovered
  split
  · exact h.unrecoveredReport _
  · exact h

end State.SlotStands

theorem State.reportUnrecovered_cle (s : State) (o : MediaOp) : (s.reportUnrecovered o).cle = s.cle := by
  unfold State.reportUnrecovered State.unrecoveredReport
  repeat' split
  all_goals simp

/-- A cleaning read with no retry left reaches the cleaner: the map and the cleaner as they were, the slots standing. -/
theorem exec_finished_clean_unrecovered {slot d x : Nat} (hop : s.mpt.op = some o) (hst : s.mpt.stage = .running)
    (hw : o.isWrite = false) (ho : o.origin = .cleanRead slot) (hret : 8 ≤ o.retries) :
    ∃ u : State, exec (.finished s.mpt.order.number 2 d x) s = .next (u.cleanReadLost slot)
      ∧ u.gmu = s.gmu ∧ u.cle = s.cle ∧ ∀ b w st, s.SlotStands b w st → u.SlotStands b w st := by
  obtain ⟨hgmu, -⟩ := s.reportUnrecovered_frame o
  have hcle := s.reportUnrecovered_cle o
  have hrec : MediaOp.recordRead { o with sectorsDone := o.doneBefore x } = none := by rw [MediaOp.recordRead, ho]
  rw [exec_finished_unrecovered d x hst hop hw hret,
    State.reportOutcome_cleanRead (o := { o with sectorsDone := o.doneBefore x }) ho, State.endReaders, hrec]
  dsimp only
  split
  · exact ⟨_, rfl, hgmu, hcle, fun b w st h => ((h.reportUnrecovered o).of_bands rfl).readEnd _⟩
  · exact ⟨_, rfl, hgmu, hcle, fun b w st h => (h.reportUnrecovered o).of_bands rfl⟩

/-- A lost report of the granule's home: its slot DEAD, its entry without home and lost, GRANULE_LOST shown (R57). -/
theorem State.lostReport_spec {lgn : Nat} {h : Home} {st : BandState} (hh : (s.entryOf lgn).home = some h)
    (hs : s.SlotStands h.band h.slot st) :
    (s.lostReport lgn h).gmu =
        { s.gmu with map := tablePut {} s.gmu.map lgn { s.entryOf lgn with home := none, lost := true } }
      ∧ (s.lostReport lgn h).SlotDead h.band h.slot st
      ∧ (s.lostReport lgn h).LossShown lgn := by
  rw [State.lostReport, if_pos hh]
  generalize hu : s.setEntryOf lgn { s.entryOf lgn with home := none, lost := true } = u
  obtain ⟨bd, hb, hdead⟩ := State.supersede_self (s := u) (by rw [← hu]; exact hs)
  refine ⟨by rw [State.raise_gmu, ← hu]; rfl, ⟨bd, ?_, hdead⟩, ?_⟩
  · rw [← hb]
    exact State.band?_congr (by rw [State.raise_btu]) _
  · rw [State.LossShown, State.raise_evu]
    exact Evu.set_self ..

/-- What the cleaner's lost copy leaves: the report stands while the cleaner goes on. -/
theorem State.cleanReadLost_spec {slot : Nat} {v : Victim} {e : BatchEntry} {st : BandState}
    (hv : s.cle.victim = some v) (he : (v.batch.find? fun y => decide (y.slot = slot)) = some e)
    (hh : (s.entryOf e.lgn).home = some ⟨v.band, slot⟩) (hs : s.SlotStands v.band slot st) :
    (s.cleanReadLost slot).gmu =
        { s.gmu with map := tablePut {} s.gmu.map e.lgn { s.entryOf e.lgn with home := none, lost := true } }
      ∧ (∃ bd, (s.cleanReadLost slot).band? v.band = some bd ∧ bd.slots[slot]? = some .dead)
      ∧ (s.cleanReadLost slot).LossShown e.lgn := by
  obtain ⟨hgmu, ⟨bd, hb, hdead, -⟩, hshown⟩ := State.lostReport_spec hh hs
  rw [State.cleanReadLost_eq hv he]
  have hmap := (State.MapIs.cleaner _).cleanRunEnded hgmu slot fun y => { y with unrecovered := true }
  have hplaces := (State.PlacesKept.cleaner _).cleanRunEnded (.refl (s.lostReport e.lgn ⟨v.band, slot⟩)) slot
    fun y => { y with unrecovered := true }
  obtain ⟨bd', hb', hslots, -⟩ := hplaces.toSlotsKept.band hb
  exact ⟨hmap, ⟨bd', hb', by rw [hslots]; exact hdead⟩, hshown.cleanRunEnded ..⟩

end

/-- Settles O51: the two answers that issue the run again, and a cleaning read given up. -/
theorem unrecovered_reissue_and_lost_report : Obligations.Unrecovered_reissue_and_lost_report := by
  refine ⟨fun s o d x hop hst => ⟨fun hw hret hlo hhi => ?_, fun hservo hd => ?_⟩, ?_⟩
  · obtain ⟨-, -, -, hhar⟩ := s.reportUnrecovered_frame { o with sectorsDone := x - o.first }
    have hmpt : (s.reportUnrecovered { o with sectorsDone := x - o.first }).mpt = s.mpt :=
      (s.reportUnrecovered_work _).mpt
    refine ⟨_, exec_finished_unrecovered_again hop hst hw hret hlo hhi, rfl, hhar,
      show (s.reportUnrecovered { o with sectorsDone := x - o.first }).mpt.failures = _ by rw [hmpt], rfl, ?_⟩
    have hfirst : o.first + (x - o.first) = x := by omega
    have hcount : o.count - (x - o.first) = o.first + o.count - x := by omega
    show (⟨_, o.first + (x - o.first), o.count - (x - o.first)⟩ : Order) = _
    rw [hfirst, hcount]
    exact congrArg (fun m : Mpt => (⟨m.orderNo, x, o.first + o.count - x⟩ : Order)) hmpt
  · exact ⟨_, exec_finished_servoLost_again hop hst hservo hd, rfl, rfl, rfl, rfl, rfl, rfl⟩
  · intro s o v e slot d x l bd _ hmap hop hst hw ho hret hv he hh hbd hstate hslot
    obtain ⟨u, hu, hgmu, hcle, hstands⟩ := exec_finished_clean_unrecovered (d := d) (x := x) hop hst hw ho hret
    have hs : u.SlotStands v.band slot .cleaning := hstands _ _ _
      ⟨bd, hbd, hstate, Band.takesReports_iff.2 (.inr (.inr hstate)), .inl ⟨l, hslot⟩⟩
    have hentry (k : Nat) := State.entryOf_congr hgmu k
    obtain ⟨hmap', ⟨bd', hb', hdead⟩, hflag, hdetail⟩ := State.cleanReadLost_spec
      ((congrArg Cle.victim hcle).trans hv) he (by rw [hentry]; exact hh) hs
    rw [hentry, hgmu] at hmap'
    obtain ⟨hself, hother⟩ := State.entryOf_tablePut hmap hmap'
    exact ⟨_, bd', hu, hself, hother, hb', hdead, hflag, hdetail⟩

end Sys2Proof.Machine
end

section
namespace Sys2Proof.Machine

/-! ### A record at the tail of the log (R45, R92) -/

section
variable {s : State}

/-- A record's write run joins WRITE, and no other queue changes (R92, R142). -/
theorem State.queueStaged_spec {p : Nat} {r : Record} (hr : s.record? p = some r) (tag off : Nat) :
    ∃ h, s.queueStaged p tag off = { s with har := h } ∧ (∀ c, c ≠ .write → h.queue c = s.har.queue c)
      ∧ (h.queue .write).map MediaOp.run = (s.har.queue .write).map MediaOp.run ++
        ((cutLog s.slu.area (p + off) (r.len - off)).take 1).map fun c =>
          ⟨true, .staging, s.slu.area.firstTrack + c.track, c.sector, c.count, off, some tag⟩ := by
  simp only [State.queueStaged, hr]
  cases hcut : cutLog s.slu.area (p + off) (r.len - off) with
  | nil => exact ⟨s.har, rfl, fun _ _ => rfl, (List.append_nil _).symm⟩
  | cons q rest =>
    exact ⟨_, State.handOver_write rfl rfl, fun c hc => (Har.queue_join ..).trans (if_neg hc),
      Har.map_queue_join_self (fun _ _ => rfl) s.har _⟩

/-- A record appended: the directory, the tail, the sectors used and the STORE on it, the granule's entry, and the
record's first run (R45, R92, R94). -/
theorem State.appendRecord_spec (s : State) (tag lgn first count sequence stream : Nat) (prev : Option Nat) (again : Bool) :
    ∃ h, s.appendRecord tag lgn first count sequence stream prev again = { s with
        gmu := { s.gmu with
          map := tablePut {} s.gmu.map lgn
            { s.entryOf lgn with overlays := (s.entryOf lgn).overlays + 1, newest := some s.slu.tail } }
        slu := { s.slu with
          dir := s.slu.dir ++ [⟨s.slu.tail, count + 1, lgn, first, count, sequence, stream, prev, .writing, 0⟩]
          tail := (s.slu.tail + (count + 1)) % areaCap s.slu.area
          used := s.slu.used + (count + 1)
          writes := s.slu.writes ++ [⟨s.slu.tail, tag, again⟩] }
        har := h }
      ∧ (∀ c, c ≠ .write → h.queue c = s.har.queue c)
      ∧ (s.record? s.slu.tail = none → (h.queue .write).map MediaOp.run = (s.har.queue .write).map MediaOp.run ++
        ((cutLog s.slu.area s.slu.tail (count + 1)).take 1).map fun c =>
          ⟨true, .staging, s.slu.area.firstTrack + c.track, c.sector, c.count, 0, some tag⟩) := by
  obtain ⟨r, hr⟩ : ∃ r : Record, r = ⟨s.slu.tail, count + 1, lgn, first, count, sequence, stream, prev, .writing, 0⟩ :=
    ⟨_, rfl⟩
  obtain ⟨u, hu⟩ : ∃ u : State, u = { s with
      gmu := { s.gmu with
        map := tablePut {} s.gmu.map lgn
          { s.entryOf lgn with overlays := (s.entryOf lgn).overlays + 1, newest := some s.slu.tail } }
      slu := { s.slu with
        dir := s.slu.dir ++ [r], tail := (s.slu.tail + (count + 1)) % areaCap s.slu.area
        used := s.slu.used + (count + 1), writes := s.slu.writes ++ [⟨s.slu.tail, tag, again⟩] } } := ⟨_, rfl⟩
  have happend : s.appendRecord tag lgn first count sequence stream prev again = u.queueStaged s.slu.tail tag 0 := by
    rw [hu, hr]; rfl
  have hfound : u.record? s.slu.tail = (s.record? s.slu.tail).or (some r) := by
    have hlast : [r].find? (fun x => decide (x.pos = s.slu.tail)) = some r := by simp [hr]
    rw [State.record?, hu, State.record?, ← hlast]
    exact List.find?_append
  obtain ⟨x, hx⟩ : ∃ x, u.record? s.slu.tail = some x := by
    rw [hfound]
    cases s.record? s.slu.tail <;> exact ⟨_, rfl⟩
  obtain ⟨h, hq, hother, hrun⟩ := State.queueStaged_spec hx tag 0
  refine ⟨h, by rw [happend, hq, hu, hr], fun c hc => by rw [hother c hc, hu], fun hnone => ?_⟩
  rw [hfound, hnone] at hx
  obtain rfl : r = x := Option.some.inj hx
  rw [hrun, hu, hr]
  rfl

/-- The one partial STORE in use starts, its record within the limits (R90, R91, R170). -/
theorem exec_requestStart_partial {e : Entry} {lgn f n p : Nat} (hes : s.rqu.entries = [e]) (hw : e.phase = .waiting)
    (hcode : e.code = codeStore) (hrange : e.range = some (f, n)) (hpart : (f, n) ≠ (0, 16))
    (hlgns : e.lgns = some (lgn, lgn)) (hseq : e.sequence = some p) (hup : s.mpt.up = true)
    (ho : (s.entryOf lgn).overlays < 8) (hheld : s.slu.logHeld = false)
    (hroom : s.slu.used + (n + 1) ≤ softLimit s.slu.area) (hdir : s.slu.dir.length < 14336) :
    exec .requestStart s = .next ((s.withEntries [e.started]).appendRecord e.tag lgn f n p e.stream
      (s.entryOf lgn).newest false) := by
  have hadm : s.slu.admits (n + 1) = true := by
    have : s.slu.dir.length < Config.dirSoftLimit := hdir
    simp [Slu.admits, hheld, hroom, this]
  have hnot : e.started.range ≠ some (0, 16) := by
    show e.range ≠ _
    rw [hrange]
    exact fun h => hpart (Option.some.inj h)
  have hown : (s.withEntries [e.started]).handToOwner e.started = (s.withEntries [e.started]).judgeAdmission e.started := by
    rw [State.handToOwner, if_pos (by exact hcode), if_neg hnot]
    exact State.takePartial_judged hup hlgns ho
  rw [exec_requestStart_only hes hw, hown, State.judgeAdmission]
  simp only [Entry.started, hlgns, hrange, hseq, Option.getD_some]
  exact congrArg Host.Outcome.next (if_pos hadm)

/-! ### The end of a staged write run (R93, R94) -/

/-- A request in use ends: its reply goes out, and its entry is gone (R168). -/
theorem State.finish_inUse {tag : Nat} {e : Entry} (h : s.entry? tag = some e) (st : Status) (fs : List Field) :
    s.finish tag st fs = { s with
      rqu := { s.rqu with
        entries := s.rqu.entries.filter fun x => decide (x.tag ≠ tag)
        held := s.rqu.held.filter fun u => decide (u ≠ tag) }
      flu := { s.flu with outbound := s.flu.outbound ++ [replyFrame e.code tag e.clamped st fs] } } := by
  simp only [State.finish, h]
  rfl

/-- A record changed in its place (R89). -/
theorem State.record?_updRecord {p : Nat} {r : Record} (hr : s.record? p = some r) {f : Record → Record}
    (hf : ∀ x, (f x).pos = x.pos) : (s.updRecord p f).record? p = some (f r) := by
  have hrp : r.pos = p := by simpa using List.find?_some hr
  have hpos (x : Record) : (if x.pos = p then f x else x).pos = x.pos := by
    split
    · exact hf x
    · rfl
  show (s.slu.dir.map fun x => if x.pos = p then f x else x).find? (fun x => decide (x.pos = p)) = _
  simp only [List.find?_map, Function.comp_def, hpos]
  rw [show s.slu.dir.find? (fun x => decide (x.pos = p)) = some r from hr]
  exact congrArg some (if_pos hrp)

/-- A staged write's outcome reaches its record: a write has no readers to end (R93, R96). -/
theorem State.reportOutcome_staged {o : MediaOp} {p : Nat} {out : Outcome} (ho : o.origin = .staged p)
    (hw : o.isWrite = true) (hout : out ≠ .stopped) : s.reportOutcome o out = s.stagedOutcome p o out := by
  have hband : o.bandRead = none := by simp [MediaOp.bandRead, hw]
  have hrec : o.recordRead = none := by rw [MediaOp.recordRead, ho]
  rw [State.reportOutcome, if_neg hout, State.endReaders, hband, hrec, State.ownerOutcome, ho]

/-- The record at `p` LIVE, no STORE on it any more. -/
def State.recordLive (s : State) (p : Nat) : State := (s.updRecord p fun x => { x with state := .live }).dropWrite p

/-- The last run of a record written: the record LIVE, its STORE replied DONE (R93). -/
theorem State.stagedAdvance_last {p next : Nat} {r : Record} {w : StagedWrite} {e : Entry} (hr : s.record? p = some r)
    (hw : s.stagedWrite? p = some w) (hlast : r.len ≤ next) (he : s.entry? w.tag = some e) :
    s.stagedAdvance p next = (s.recordLive p).finish w.tag .done e.storeFields := by
  simp only [State.stagedAdvance, hr, hw, if_neg (Nat.not_lt.2 hlast)]
  have hsame : (s.recordLive p).entry? w.tag = some e := he
  rw [← State.recordLive, State.storeDone, hsame]

/-- FINISHED OK of a record's last run (R93, R152, R157). -/
theorem exec_finished_staged_last {o : MediaOp} {p : Nat} {r : Record} {w : StagedWrite} {e : Entry}
    (hst : s.mpt.stage = .running) (hop : s.mpt.op = some o) (ho : o.origin = .staged p) (hw : o.isWrite = true)
    (hr : s.record? p = some r) (hwrite : s.stagedWrite? p = some w) (hlast : r.len ≤ o.place + o.count)
    (he : s.entry? w.tag = some e) :
    exec (.finished s.mpt.order.number 0 0 0) s =
      .next (((s.withPort { s.mpt with stage := .idle, op := none, failures := 0, causes := 0 }).recordLive p).finish
        w.tag .done e.storeFields) := by
  obtain ⟨k, hexec⟩ := exec_finished_complete hop (.inl hst) 0 0
  rw [hexec, State.reportOutcome_staged (o := { o with defers := k, sectorsDone := o.count }) (out := .complete) ho hw
    nofun]
  exact congrArg Host.Outcome.next (State.stagedAdvance_last (s := s.withPort _) hr hwrite hlast he)

/-! ### A record that dies behind one that stays (R45, R89, R97) -/

/-- Where the first record stays, the head advance removes none. -/
theorem Slu.advance_stays {l : Slu} (h : keepFrom l.dir = l.dir) : ∃ head, l.advance = { l with head := head } := by
  have hnone : l.dir.take (l.dir.length - l.dir.length) = [] := by rw [Nat.sub_self, List.take_zero]
  unfold Slu.advance
  simp only [h, hnone, Nat.lt_irrefl, false_and, if_false]
  exact ⟨_, rfl⟩

/-- A record that is not removable stays so when another dies. -/
theorem keepFrom_afterDeath {r r0 : Record} (later : List Record) (hne : r0.pos ≠ r.pos)
    (hkeep : r0.state ≠ .dead ∨ r0.readers ≠ 0) :
    keepFrom ((r0 :: later).map fun x : Record => x.afterDeath r) = (r0 :: later).map fun x : Record => x.afterDeath r := by
  have hsame : (r0.afterDeath r).state = r0.state ∧ (r0.afterDeath r).readers = r0.readers := by
    rw [Record.afterDeath, if_neg hne]
    split <;> exact ⟨rfl, rfl⟩
  have hstays : (decide ((r0.afterDeath r).state = .dead) && decide ((r0.afterDeath r).readers = 0)) = false := by
    rw [hsame.1, hsame.2]
    rcases hkeep with h | h <;> simp [h]
  rw [List.map_cons, keepFrom, List.dropWhile_cons, hstays]
  rfl

/-- The part once record `r`, whose STORE is no longer on it, is dead and the log head stays. -/
def State.recordFaulted (s : State) (r : Record) (head : Nat) : State :=
  { s with
    gmu := { s.gmu with map := tablePut {} s.gmu.map r.lgn ((s.entryOf r.lgn).recordDead r) }
    slu := { s.slu with
      dir := s.slu.dir.map fun x : Record => x.afterDeath r, head := head
      writes := s.slu.writes.filter fun w => decide (w.pos ≠ r.pos) } }

/-- What dies here is dropped by its STORE first (R94, R97). -/
theorem State.dropWrite_makeDead {r r0 : Record} {later : List Record} (hr : s.record? r.pos = some r)
    (hst : r.state = .writing) (hreqs : s.slu.foldReqs = []) (hdir : s.slu.dir = r0 :: later) (hne : r0.pos ≠ r.pos)
    (hkeep : r0.state ≠ .dead ∨ r0.readers ≠ 0) :
    ∃ head, (s.dropWrite r.pos).makeDead r.pos = s.recordFaulted r head := by
  obtain ⟨l, hl⟩ : ∃ l : Slu, l = { s.slu with
    dir := s.slu.dir.map fun x : Record => x.afterDeath r
    writes := s.slu.writes.filter fun w => decide (w.pos ≠ r.pos) } := ⟨_, rfl⟩
  obtain ⟨head, hhead⟩ := Slu.advance_stays (l := l) (by
    rw [hl, hdir]
    exact keepFrom_afterDeath later hne hkeep)
  have hdead : (s.dropWrite r.pos).makeDead r.pos = State.judgeFoldReqs { s with
      gmu := { s.gmu with map := tablePut {} s.gmu.map r.lgn ((s.entryOf r.lgn).recordDead r) }, slu := l.advance } := by
    have hr' : (s.dropWrite r.pos).record? r.pos = some r := hr
    rw [State.makeDead, hr', hl]
    exact if_neg (by rw [hst]; nofun)
  refine ⟨head, ?_⟩
  rw [hdead, hhead, hl]
  exact State.judgeFoldReqs_of_no_reqs hreqs

/-- Record `r` dead in `s` and appended again at the tail in `t` (R94). -/
abbrev State.Reappended (s t : State) (r : Record) (tag : Nat) : Prop :=
  t.slu.dir = (s.slu.dir.map fun x : Record => x.afterDeath r) ++
      [⟨s.slu.tail, r.count + 1, r.lgn, r.first, r.count, r.sequence, r.stream, r.prev, .writing, 0⟩]
    ∧ t.slu.tail = (s.slu.tail + (r.count + 1)) % areaCap s.slu.area ∧ t.slu.used = s.slu.used + (r.count + 1)
    ∧ t.slu.writes = (s.slu.writes.filter fun y => decide (y.pos ≠ r.pos)) ++ [⟨s.slu.tail, tag, true⟩]
    ∧ t.entryOf r.lgn = { s.entryOf r.lgn with
      overlays := (s.entryOf r.lgn).overlays - 1 + 1, newest := some s.slu.tail }
    ∧ (t.har.queue .write).map MediaOp.run = (s.har.queue .write).map MediaOp.run ++
      ((cutLog s.slu.area s.slu.tail (r.count + 1)).take 1).map (fun c =>
        ⟨true, .staging, s.slu.area.firstTrack + c.track, c.sector, c.count, 0, some tag⟩)
    ∧ (∀ c, c ≠ .write → t.har.queue c = s.har.queue c) ∧ t.rqu = s.rqu ∧ t.flu = s.flu

/-- Record `r` dead in `s` and its STORE, of entry `e`, ended WRITE_FAILED in `t` (R94). -/
abbrev State.StoreFailed (s t : State) (r : Record) (tag : Nat) (e : Entry) : Prop :=
  t.slu.dir = (s.slu.dir.map fun x : Record => x.afterDeath r) ∧ t.slu.tail = s.slu.tail ∧ t.slu.used = s.slu.used
    ∧ t.slu.writes = (s.slu.writes.filter fun y => decide (y.pos ≠ r.pos))
    ∧ t.entryOf r.lgn = (s.entryOf r.lgn).recordDead r
    ∧ t.flu = { s.flu with outbound := s.flu.outbound ++ [replyFrame e.code tag e.clamped .writeFailed []] }
    ∧ t.rqu.entries = s.rqu.entries.filter (fun y => decide (y.tag ≠ tag)) ∧ t.har = s.har

/-- A staged write fault: the record dies, and is appended again or its STORE ends (R94). -/
theorem State.stagedFault_eq {r r0 : Record} {later : List Record} {w : StagedWrite} (hr : s.record? r.pos = some r)
    (hw : s.stagedWrite? r.pos = some w) (hst : r.state = .writing) (hreqs : s.slu.foldReqs = [])
    (hdir : s.slu.dir = r0 :: later) (hne : r0.pos ≠ r.pos) (hkeep : r0.state ≠ .dead ∨ r0.readers ≠ 0) :
    ∃ head, (w.again = false → s.slu.used + r.len ≤ areaCap s.slu.area → s.slu.dir.length < 16384 →
        s.stagedFault r.pos = (s.recordFaulted r head).appendRecord w.tag r.lgn r.first r.count r.sequence r.stream
          r.prev true)
      ∧ (w.again = true ∨ areaCap s.slu.area < s.slu.used + r.len ∨ 16384 ≤ s.slu.dir.length →
        s.stagedFault r.pos = (s.recordFaulted r head).finish w.tag .writeFailed []) := by
  obtain ⟨head, hdead⟩ := State.dropWrite_makeDead hr hst hreqs hdir hne hkeep
  have hlen : (s.recordFaulted r head).slu.dir.length = s.slu.dir.length := List.length_map _
  have hfault : s.stagedFault r.pos =
      if (!w.again && decide (s.slu.used + r.len ≤ areaCap s.slu.area) && decide (s.slu.dir.length < Config.dirCapacity))
        = true
      then (s.recordFaulted r head).appendRecord w.tag r.lgn r.first r.count r.sequence r.stream r.prev true
      else (s.recordFaulted r head).finish w.tag .writeFailed [] := by
    simp only [State.stagedFault, hr, hw, hdead, hlen]
    rfl
  refine ⟨head, fun hagain hroom hcap => ?_, fun hno => ?_⟩
  · have hcap' : s.slu.dir.length < Config.dirCapacity := hcap
    rw [hfault, if_pos (by simp [hagain, hroom, hcap'])]
  · rw [hfault, if_neg]
    rcases hno with h | h | h
    · simp [h]
    · simp [Nat.not_le.2 h]
    · have : ¬ s.slu.dir.length < Config.dirCapacity := Nat.not_lt.2 h
      simp [this]

/-- Whatever ends a staged write in a fault, wherever the answer says it failed (R94, R151, R154, R155). -/
theorem exec_staged_fault {o : MediaOp} {p : Nat} {i : Instr} {m : Mpt} (hop : s.mpt.op = some o)
    (ho : o.origin = .staged p) (hw : o.isWrite = true)
    (h : (s.mpt.stage = .running ∨ s.mpt.stage = .claiming) ∧ (∃ st d x, (st = 2 ∨ st = 3)
        ∧ i = .finished s.mpt.order.number st d x) ∧ m = { s.mpt with stage := .idle, op := none }
      ∨ ∃ done, s.writeFaults o i done m) :
    exec i s = .next ((s.withPort m).stagedFault p) := by
  rcases h with ⟨hst, ⟨st, d, x, hcode, rfl⟩, rfl⟩ | ⟨done, hfault⟩
  · obtain ⟨a, ha, ht⟩ := Answer.taken_write (d := d) (count := s.mpt.order.count) hcode
    obtain ⟨q, y, k, hexec⟩ := exec_finished_taken (x := x) hop hst ha (hw ▸ ht)
    rw [hexec]
    exact congrArg Host.Outcome.next
      (State.reportOutcome_staged (s := s.withPort { s.mpt with stage := .idle, op := none }) ho hw nofun)
  · obtain ⟨k, answered, hexec, -⟩ := exec_writeFaults hop hw hfault
    rw [hexec]
    exact congrArg Host.Outcome.next (State.reportOutcome_staged (s := s.withPort m) ho hw nofun)

/-- What no staged write fault of record `r` changes besides (R94). -/
abbrev State.FaultLeaves (s t : State) (r : Record) : Prop :=
  (∀ k, k ≠ r.lgn → t.entryOf k = s.entryOf k) ∧ t.mpt = s.mpt ∧ t.btu = s.btu ∧ t.swr = s.swr ∧ t.evu = s.evu

/-- A position that no record holds is free still when a record has died. -/
theorem State.record?_recordFaulted {r : Record} (head : Nat) {p : Nat} (h : s.record? p = none) :
    (s.recordFaulted r head).record? p = none := by
  show (s.slu.dir.map fun x : Record => x.afterDeath r).find? (fun x => decide (x.pos = p)) = none
  simp only [List.find?_map, Function.comp_def, Record.afterDeath_pos]
  exact congrArg (Option.map _) h

/-- The dead record appended again (R94). -/
theorem State.recordFaulted_appended {r : Record} (hmap : s.MapCanonical) (hfree : s.record? s.slu.tail = none)
    (head tag : Nat) {t : State} (ht : (s.recordFaulted r head).appendRecord tag r.lgn r.first r.count r.sequence r.stream
      r.prev true = t) : s.Reappended t r tag ∧ s.FaultLeaves t r := by
  obtain ⟨hself, hother⟩ := State.entryOf_tablePut (t := s.recordFaulted r head) hmap rfl
  have hcanon : (s.recordFaulted r head).MapCanonical := tableWf_tablePut hmap ..
  obtain ⟨h, happend, hqueues, hrun⟩ := (s.recordFaulted r head).appendRecord_spec tag r.lgn r.first r.count r.sequence
    r.stream r.prev true
  rw [ht] at happend
  obtain ⟨hself', hother'⟩ := State.entryOf_tablePut hcanon (congrArg State.gmu happend)
  have hentry : t.entryOf r.lgn =
      { s.entryOf r.lgn with overlays := (s.entryOf r.lgn).overlays - 1 + 1, newest := some s.slu.tail } := by
    rw [hself', hself]
    rfl
  subst happend
  exact ⟨⟨rfl, rfl, rfl, rfl, hentry, hrun (State.record?_recordFaulted head hfree), hqueues, rfl, rfl⟩,
    fun k hk => (hother' k hk).trans (hother k hk), rfl, rfl, rfl, rfl⟩

/-- The STORE of the dead record ended (R94). -/
theorem State.recordFaulted_failed {r : Record} {tag : Nat} {e : Entry} (hmap : s.MapCanonical)
    (he : s.entry? tag = some e) (head : Nat) {t : State}
    (ht : (s.recordFaulted r head).finish tag .writeFailed [] = t) : s.StoreFailed t r tag e ∧ s.FaultLeaves t r := by
  obtain ⟨hself, hother⟩ := State.entryOf_tablePut (t := s.recordFaulted r head) hmap rfl
  rw [State.finish_inUse (s := s.recordFaulted r head) (e := e) he] at ht
  subst ht
  exact ⟨⟨rfl, rfl, rfl, rfl, hself, rfl, rfl, rfl⟩, hother, rfl, rfl, rfl, rfl⟩

/-- A staged write fault ends with a record appended or a STORE failed (R45, R94). -/
theorem State.stagedFault_spec {r r0 : Record} {later : List Record} {w : StagedWrite} {e : Entry} (hmap : s.MapCanonical)
    (hr : s.record? r.pos = some r) (hw : s.stagedWrite? r.pos = some w) (he : s.entry? w.tag = some e)
    (hst : r.state = .writing) (hreqs : s.slu.foldReqs = []) (hdir : s.slu.dir = r0 :: later) (hne : r0.pos ≠ r.pos)
    (hkeep : r0.state ≠ .dead ∨ r0.readers ≠ 0) (hfree : s.record? s.slu.tail = none) :
    (w.again = false → s.slu.used + r.len ≤ areaCap s.slu.area → s.slu.dir.length < 16384 →
        s.Reappended (s.stagedFault r.pos) r w.tag)
      ∧ (w.again = true ∨ areaCap s.slu.area < s.slu.used + r.len ∨ 16384 ≤ s.slu.dir.length →
        s.StoreFailed (s.stagedFault r.pos) r w.tag e)
      ∧ s.FaultLeaves (s.stagedFault r.pos) r := by
  obtain ⟨head, hagain, hfailed⟩ := State.stagedFault_eq hr hw hst hreqs hdir hne hkeep
  have happended (h1 : w.again = false) (h2 : s.slu.used + r.len ≤ areaCap s.slu.area) (h3 : s.slu.dir.length < 16384) :=
    State.recordFaulted_appended hmap hfree head w.tag (hagain h1 h2 h3).symm
  have hended (h) := State.recordFaulted_failed hmap he head (hfailed h).symm
  refine ⟨fun h1 h2 h3 => (happended h1 h2 h3).1, fun h => (hended h).1, ?_⟩
  by_cases hno : w.again = true ∨ areaCap s.slu.area < s.slu.used + r.len ∨ 16384 ≤ s.slu.dir.length
  · exact (hended hno).2
  · simp only [not_or, Bool.not_eq_true, Nat.not_lt, Nat.not_le] at hno
    obtain ⟨h1, h2, h3⟩ := hno
    exact (happended h1 h2 h3).2

end

/-- Settles O19: the start, the last run, and the fault. -/
theorem partial_store_append_and_completion : Obligations.Partial_store_append_and_completion := by
  refine ⟨?_, ?_, ?_⟩
  · intro s e lgn f n p hes hw hcode hrange hpart hlgns hseq hup hmap ho hheld hroom hdir
    obtain ⟨h, happend, hqueues, hrun⟩ := (s.withEntries [e.started]).appendRecord_spec e.tag lgn f n p e.stream
      (s.entryOf lgn).newest false
    have hexec := exec_requestStart_partial hes hw hcode hrange hpart hlgns hseq hup ho hheld hroom hdir
    obtain ⟨hself, hother⟩ := State.entryOf_tablePut (s := s.withEntries [e.started]) hmap (congrArg State.gmu happend)
    rw [happend] at hexec hself hother
    exact ⟨_, hexec, rfl, rfl, rfl, hself, hother, hrun, hqueues, rfl, rfl, rfl, rfl, rfl⟩
  · intro s o r w e p f n hst hop ho hw hr hwrite hlast he hrange
    have hexec := exec_finished_staged_last hst hop ho hw hr hwrite hlast he
    have hfields : e.storeFields = [.num 1 f, .num 1 n, .num 2 0, .num 8 (e.sequence.getD 0)] := by
      rw [Entry.storeFields, hrange]; rfl
    have hended (m : Mpt) := State.finish_inUse (s := (s.withPort m).recordLive p) (e := e) he .done e.storeFields
    rw [hended, hfields] at hexec
    exact ⟨_, hexec, State.record?_updRecord hr fun _ => rfl, rfl, rfl, rfl, rfl, rfl, rfl, rfl, rfl, rfl⟩
  · intro s o r r0 later w e p i m hop ho hw hfault hmap hr hst hwrite he hreqs hdir hne hkeep hfree
    obtain rfl : r.pos = p := by simpa using List.find?_some hr
    obtain ⟨hagain, hfailed, hother, hleft⟩ := State.stagedFault_spec (s := s.withPort m) hmap hr hwrite he hst hreqs hdir
      hne hkeep hfree
    exact ⟨_, _, exec_staged_fault hop ho hw hfault, rfl, hother, hagain, hfailed, hleft⟩

end Sys2Proof.Machine
end
